-- ==== Sys2Proof/Word.lean ====
section
/-!
DEFINITION. Word types: bytes of memory and the 32- and 64-bit words of the cores.
-/

namespace Sys2Proof

/-- A byte of memory. -/
abbrev Byte := BitVec 8

/-- A 32-bit word of a curator or warden. -/
abbrev Word := BitVec 32

/-- A 64-bit word of a host core. -/
abbrev DWord := BitVec 64

end Sys2Proof
end

