-- ==== Sys2Proof/Syntax.lean ====
section
/-!
DEFINITION. The commands of the device, one constructor a row of spec/opcode_table.json. A command
is an access by an initiator (R46), an instruction a core executes, or an event (a pin, a timer, an
agent of the device finishing a piece of its work).
-/

namespace Sys2Proof

/-- An I/O die: 0 or 1 (R1). -/
abbrev Die := Fin 2

/-- A gallery, G0 to G5 (R1). -/
abbrev Gal := Fin 6

/-- A curator or warden: 0 to 5 are the curators of G0 to G5, 6 and 7 the wardens of I/O dies 0
and 1 (R104). -/
abbrev CoreId := Fin 8

/-- A host core (R1). -/
abbrev HostId := Fin 4

/-- A field that names a scalar register. -/
abbrev Reg := Fin 32

/-- An island: one of the compute die's 13 or one of an I/O die's 7 (R24). -/
inductive Island
  | cd (i : Fin 13)
  | io (d : Die) (i : Fin 7)
  deriving DecidableEq, Repr

/-- A watchdog: one a gallery, one a host core, one an I/O die's always-on domain (R515). -/
inductive Wdog
  | gal (g : Gal)
  | host (c : HostId)
  | ao (d : Die)
  deriving DecidableEq, Repr

/-- Fields of an R-format word (R108). -/
structure RF where
  sd : Reg
  sa : Reg
  sb : Reg
  deriving DecidableEq, Repr

/-- Fields of an I-format word (R108). -/
structure IF where
  sd : Reg
  sa : Reg
  imm : BitVec 16
  deriving DecidableEq, Repr

/-- Fields of an S-format word (R108). -/
structure SF where
  sb : Reg
  sa : Reg
  off : BitVec 16
  deriving DecidableEq, Repr

/-- Fields of a CSR word: bits 13:12 of the immediate and the CSR number (R121). -/
structure CF where
  sd : Reg
  sa : Reg
  z : Fin 4
  csr : Fin 4096
  deriving DecidableEq, Repr

/-- Fields of an X-format word below SUB (R108). -/
structure XF where
  a : Reg
  b : Reg
  c : Reg
  d : Fin 64
  deriving DecidableEq, Repr


/-- The commands of the device: one constructor for each row of spec/opcode_table.json. -/
inductive Instr
  /-- REGISTER_WRITE (R40): A write to a register that has no row of its own lands in its RW fields, with reserved and RO bits ignored. -/
  | registerWrite (ini addr size v : Nat)
  /-- READ_AND_RESET (R8): An RC read returns a field and resets it in the same access, so later events land in the new count. -/
  | readAndReset (ini addr size : Nat)
  /-- SNAPSHOT_READ (R8): An RS read latches every field of its snapshot group for the reading initiator. -/
  | snapshotRead (ini addr size : Nat)
  /-- LOW_HALF_READ (R38): A 32-bit read of the low half of a 64-bit register captures the whole value into the initiator's read holding register. -/
  | lowHalfRead (ini addr : Nat)
  /-- LOW_HALF_WRITE (R38): A write of the low half of a 64-bit register loads the initiator's write holding register and writes nothing to the register. -/
  | lowHalfWrite (ini addr v : Nat)
  /-- HIGH_HALF_WRITE (R38): A write of the high half writes it together with the held low word as one 64-bit write, or is refused with WIDTH. -/
  | highHalfWrite (ini addr v : Nat)
  /-- ACCESS_TIMEOUT (R43): A request with no response after 65,536 TCXO cycles completes with a bus error, cause TIMEOUT. -/
  | accessTimeout (ini addr size : Nat) (wr : Bool) (v : Nat)
  /-- ICC_CTL_WRITE (R47): A write of an island's clock limits and mode is checked and, if in range, starts the change of its clock. -/
  | iccCtlWrite (ini : Nat) (i : Fin 13) (v : Nat)
  /-- CLOCK_SETTLED (R47): New clock limits take effect within 20 µs, after any voltage exchange, and SETTLED reads 1. -/
  | clockSettled (i : Island)
  /-- CLOCK_WINDOW_END (R47): At the end of each 1,024-TCXO-cycle window the island's cycle count is stored in CURF. -/
  | clockWindowEnd (i : Island) (cycles : Nat)
  /-- SUPPLY_DROOP (R47): An island clock falls below FMIN during a supply droop, setting DROOP and counting in ICC_DROOPS. -/
  | supplyDroop (i : Island)
  /-- CDIE_ON_SET (R51): Writing CDIE_ON from 0 to 1 raises CDIE_PWREN and starts the sequencer's rise of the compute-die rails. -/
  | cdieOnSet (ini v : Nat)
  /-- CDIE_ON_CLEAR (R51): Clearing CDIE_ON starts the drain of the compute-die bridges ahead of the power-down, or ends a rise in progress. -/
  | cdieOnClear (ini v : Nat)
  /-- COMPUTE_DIE_POWER_DOWN (R51): Once the compute-die bridges have drained, the sequencer turns the rails off in reverse order and CDIE_STATE reads off. -/
  | computeDiePowerDown
  /-- RAIL_VOUT_POLL (R51): Every 100 µs the sequencer reads READ_VOUT and goes on to the next rail once the reading is within 5 % of target. -/
  | railVoutPoll (mode : Nat) (reading : Option Nat)
  /-- RAIL_VSETTLE_END (R51): For a rail that is not ULINEAR16, the sequencer goes on after VSETTLE µs. -/
  | railVsettleEnd
  /-- RAIL_STEP_TIMEOUT (R51): A rail not within 5 % after 10 ms fails its step; the sequencer turns off its rails and sets SEQERR. -/
  | railStepTimeout
  /-- ISLAND_POWER_WRITE (R49): A write of PWR_CTL.ISL_ON powers or gates switched I/O islands. -/
  | islandPowerWrite (ini : Nat) (d : Die) (v : Nat)
  /-- ISLAND_POWERED (R49): A switched I/O island accepts accesses at most 10 µs after its ISL_ON bit is set. -/
  | islandPowered (d : Die) (i : Fin 7)
  /-- GALLERY_GATE_WRITE (R52): A write of PWR_CISL.GAL_ON gates or ungates galleries, running the pair's rail step if its rail is off. -/
  | galleryGateWrite (ini v : Nat)
  /-- STACK_GATE_WRITE (R52): A write of PWR_CISL.STK_ON gates or ungates stacks and their rails. -/
  | stackGateWrite (ini v : Nat)
  /-- BROWNOUT_VDD_AO (R54): VDD_AO below 0.66 V for 2 µs sets BOD_STAT bit 0 and causes a power-on reset of the I/O die. -/
  | brownoutVddAo (d : Die)
  /-- BROWNOUT_VDDA_MTR (R54): A VDDA_MTR brownout marks every shot and station-power sample in progress invalid. -/
  | brownoutVddaMtr (d : Die)
  /-- BROWNOUT_PAD_RAIL (R54): A VDD_IO18 or VDD_IO33 brownout holds the switched islands using that rail in reset. -/
  | brownoutPadRail (d : Die) (io33 : Bool)
  /-- BROWNOUT_ATR_HOST (R54): A VDD_ATR or VDD_HOST brownout powers the compute die down at once without draining and clears CDIE_ON. -/
  | brownoutAtrHost (host : Bool)
  /-- GALLERY_RAIL_BROWNOUT (R55): A gallery-rail brownout gates and resets both galleries of the pair and sends OPERATION 0x00. -/
  | galleryRailBrownout (p : Fin 3)
  /-- PMB_ALERT (R56): An assertion of PMB_ALERT_N makes the master read STATUS_WORD of every configured rail. -/
  | pmbAlert (words : List (Option Nat))
  /-- CEILING_RISE_CONFIRM (R59): After VSETTLE µs the device reads READ_VOUT and applies the new ceiling or sets VLOW. -/
  | ceilingRiseConfirm (t : Fin 7) (reading : Option Nat)
  /-- LEDGER_TICK (R76): Each 1 ms tick the ledger integrates bus energy, credits tenants, tests the battery, emergency and grace, and adjusts caps. -/
  | ledgerTick
  /-- FULL_CHARGE (R62): After FULL_T minutes at full voltage and low current, BAT_Q becomes BAT_CAP and BAT_KNOWN is set. -/
  | fullCharge
  /-- TABLE_FIX (R63): After REST_T minutes at rest the ledger sets BAT_Q from the OCV table. -/
  | tableFix
  /-- LEDGER_HOUR_END (R66): At the end of a ledger hour the ledger computes the new budget and renews every reservation. -/
  | ledgerHourEnd
  /-- LEDGER_RECALC (R65): Writing 1 to LDG_CTL.RECALC ends the ledger hour at the next tick. -/
  | ledgerRecalc (ini v : Nat)
  /-- BAT_Q_WRITE (R64): A software write of BAT_Q sets the battery charge and BAT_KNOWN. -/
  | batQWrite (ini v : Nat)
  /-- GCAP_WRITE (R70): A write of GCAP to 0 returns the gallery's FEFF to 600 MHz. -/
  | gcapWrite (ini : Nat) (g : Gal) (v : Nat)
  /-- GRACE_EXPIRY (R74): When the grace timer reaches 0 the ledger sheds every work of the lowest running class and restarts the timer. -/
  | graceExpiry
  /-- POWER_ON_RESET (R78): VDD_AO first rising resets the I/O die, drives CDIE_PWREN low and keeps retention fields. -/
  | powerOnReset (d : Die) (vbatOut : Bool)
  /-- PIN_RESET (R81): A qualified RESET_N low level resets the I/O die and holds it in reset while low. -/
  | pinReset (d : Die)
  /-- SYSTEM_RESET (R78): A write of RST_CTL with KEY 0xA5 and SYS 1 resets the I/O die as a pin reset does. -/
  | systemReset (ini : Nat) (d : Die) (v : Nat)
  /-- CLOCK_LOSS (R81): No TCXO edge for 1 µs while the part runs resets the I/O die. -/
  | clockLoss (d : Die)
  /-- RESET_RELEASE (R81): After 1,024 consecutive TCXO cycles the I/O die leaves reset, latching straps and loading calibration. -/
  | resetRelease (d : Die) (gpio : Nat)
  /-- HOST_RELEASE_WRITE (R92): A write of CRST_REL.HOST starts or resets host cores. -/
  | hostReleaseWrite (ini v : Nat)
  /-- GALLERY_RELEASE_WRITE (R94): A write of CRST_REL.GAL releases galleries from reset or resets them. -/
  | galleryReleaseWrite (ini v : Nat)
  /-- TAP_RESET (R78): TRST_N low resets the IEEE 1149.1 TAP controller alone. -/
  | tapReset (d : Die)
  /-- BOOT_SEQUENCE (R83): The warden ROM of I/O die 0 loads, checks and starts a signed image. -/
  | bootSequence (d : Die)
  /-- FLASH_BOOT_TIMEOUT (R88): A flash port that does not respond within 1 ms gives code 0x16 for each of its copies. -/
  | flashBootTimeout (port : Fin 2)
  /-- OCTAL_SWITCH_WAIT_END (R91): After the 100 µs wait the ROM writes FL_CFG for octal DDR and verifies the first 64 bytes. -/
  | octalSwitchWaitEnd (same : Bool)
  /-- BOOT_RETRY_RESET (R89): After a failed boot attempt and a 60 s wait the ROM issues a system reset. -/
  | bootRetryReset
  /-- W1_GO (R95): Writing W1_GO ends the die-1 ROM wait, which jumps to W1_PC. -/
  | w1Go (ini v : Nat)
  /-- ATRIUM_INIT_DONE (R93): After 786,432 atrium cycles of zeroing, CDIE_STATE reads on. -/
  | atriumInitDone
  /-- STORE_ZEROING_DONE (R94): After 262,144 gallery cycles of zeroing, the gallery leaves reset and the curator starts at GREL_PC. -/
  | storeZeroingDone (g : Gal)
  /-- OTP_PROGRAM (R97): A write of OTP_CMD with KEY 0x3C and GO starts programming the 1 bits of OTP_DATA into a word. -/
  | otpProgram (ini : Nat) (d : Die) (v : Nat)
  /-- OTP_PROGRAM_DONE (R97): When programming ends BUSY falls and the mirror registers show the new value. -/
  | otpProgramDone (d : Die) (good : Bool)
  /-- CAL_COMMIT (R101): A write of CAL_CMD with KEY 0x5C and COMMIT copies the staging area and checks it before programming. -/
  | calCommit (ini : Nat) (d : Die) (v : Nat)
  /-- CAL_COMMIT_DONE (R102): When the read-back ends, the live view takes the new values or RESULT becomes VERIFY. -/
  | calCommitDone (d : Die) (good : Bool)
  /-- ADD (R111): Writes sa + sb into sd. -/
  | add (c : CoreId) (f : RF)
  /-- SUB (R111): Writes sa − sb into sd. -/
  | sub (c : CoreId) (f : RF)
  /-- AND (R111): Writes sa AND sb into sd. -/
  | and (c : CoreId) (f : RF)
  /-- OR (R111): Writes sa OR sb into sd. -/
  | or (c : CoreId) (f : RF)
  /-- XOR (R111): Writes sa XOR sb into sd. -/
  | xor (c : CoreId) (f : RF)
  /-- SLL (R111): Shifts sa left by sb[4:0]. -/
  | sll (c : CoreId) (f : RF)
  /-- SRL (R111): Shifts sa right logically by sb[4:0]. -/
  | srl (c : CoreId) (f : RF)
  /-- SRA (R111): Shifts sa right arithmetically by sb[4:0]. -/
  | sra (c : CoreId) (f : RF)
  /-- SLT (R111): Writes 1 if sa < sb signed. -/
  | slt (c : CoreId) (f : RF)
  /-- SLTU (R111): Writes 1 if sa < sb unsigned. -/
  | sltu (c : CoreId) (f : RF)
  /-- SLLI (R111): Shifts sa left by the SB field. -/
  | slli (c : CoreId) (f : RF)
  /-- SRLI (R111): Shifts sa right logically by the SB field. -/
  | srli (c : CoreId) (f : RF)
  /-- SRAI (R111): Shifts sa right arithmetically by the SB field. -/
  | srai (c : CoreId) (f : RF)
  /-- MUL (R111): Writes the low 32 bits of sa × sb. -/
  | mul (c : CoreId) (f : RF)
  /-- MULH (R111): Writes the high 32 bits of the signed product. -/
  | mulh (c : CoreId) (f : RF)
  /-- MULHU (R111): Writes the high 32 bits of the unsigned product. -/
  | mulhu (c : CoreId) (f : RF)
  /-- DIV (R112): Writes the signed quotient, with fixed results for division by zero and overflow. -/
  | div (c : CoreId) (f : RF)
  /-- DIVU (R112): Writes the unsigned quotient, 0xFFFF_FFFF for division by zero. -/
  | divu (c : CoreId) (f : RF)
  /-- REM (R112): Writes the signed remainder with the sign of sa. -/
  | rem (c : CoreId) (f : RF)
  /-- REMU (R112): Writes the unsigned remainder. -/
  | remu (c : CoreId) (f : RF)
  /-- MIN (R111): Writes the signed smaller of sa and sb. -/
  | min (c : CoreId) (f : RF)
  /-- MAX (R111): Writes the signed larger of sa and sb. -/
  | max (c : CoreId) (f : RF)
  /-- MINU (R111): Writes the unsigned smaller of sa and sb. -/
  | minu (c : CoreId) (f : RF)
  /-- MAXU (R111): Writes the unsigned larger of sa and sb. -/
  | maxu (c : CoreId) (f : RF)
  /-- CLZ (R111): Writes the number of leading zero bits of sa. -/
  | clz (c : CoreId) (f : RF)
  /-- POPC (R111): Writes the number of 1 bits of sa. -/
  | popc (c : CoreId) (f : RF)
  /-- ADDI (R113): Writes sa + sext(IMM16). -/
  | addi (c : CoreId) (f : IF)
  /-- ANDI (R113): Writes sa AND the zero-extended immediate. -/
  | andi (c : CoreId) (f : IF)
  /-- ORI (R113): Writes sa OR the zero-extended immediate. -/
  | ori (c : CoreId) (f : IF)
  /-- XORI (R113): Writes sa XOR the zero-extended immediate. -/
  | xori (c : CoreId) (f : IF)
  /-- SLTI (R113): Compares sa with the sign-extended immediate as signed values. -/
  | slti (c : CoreId) (f : IF)
  /-- SLTIU (R113): Compares sa with the sign-extended immediate as unsigned values. -/
  | sltiu (c : CoreId) (f : IF)
  /-- LUI (R113): Writes IMM16 × 65,536 into sd. -/
  | lui (c : CoreId) (z : Reg) (f : IF)
  /-- LB (R114): Loads a sign-extended byte. -/
  | lb (c : CoreId) (f : IF)
  /-- LH (R114): Loads a sign-extended halfword. -/
  | lh (c : CoreId) (f : IF)
  /-- LW (R114): Loads a word. -/
  | lw (c : CoreId) (f : IF)
  /-- LBU (R114): Loads a zero-extended byte. -/
  | lbu (c : CoreId) (f : IF)
  /-- LHU (R114): Loads a zero-extended halfword. -/
  | lhu (c : CoreId) (f : IF)
  /-- SB (R114): Stores the low byte of sb into the store buffer. -/
  | sb (c : CoreId) (f : SF)
  /-- SH (R114): Stores the low halfword of sb into the store buffer. -/
  | sh (c : CoreId) (f : SF)
  /-- SW (R114): Stores the word sb into the store buffer. -/
  | sw (c : CoreId) (f : SF)
  /-- BEQ (R116): Branches with a delay slot when sa = sb. -/
  | beq (c : CoreId) (f : SF)
  /-- BNE (R116): Branches with a delay slot when sa ≠ sb. -/
  | bne (c : CoreId) (f : SF)
  /-- BLT (R116): Branches with a delay slot when sa < sb signed. -/
  | blt (c : CoreId) (f : SF)
  /-- BGE (R116): Branches with a delay slot when sa ≥ sb signed. -/
  | bge (c : CoreId) (f : SF)
  /-- BLTU (R116): Branches with a delay slot when sa < sb unsigned. -/
  | bltu (c : CoreId) (f : SF)
  /-- BGEU (R116): Branches with a delay slot when sa ≥ sb unsigned. -/
  | bgeu (c : CoreId) (f : SF)
  /-- J (R116): Jumps to PC + 4 + sext(OFF26) × 4 after its delay slot. -/
  | j (c : CoreId) (off : BitVec 26)
  /-- JAL (R117): Jumps after its delay slot and writes PC + 8 into s31. -/
  | jal (c : CoreId) (off : BitVec 26)
  /-- JALR (R117): Jumps to sa + sext(IMM16) after its delay slot and writes PC + 8 into sd. -/
  | jalr (c : CoreId) (f : IF)
  /-- LOOPI (R119): Sets up a hardware loop level with an immediate count. -/
  | loopi (c : CoreId) (l : Fin 2) (cnt : Fin 8192) (e : Fin 4096)
  /-- LOOPR (R119): Sets up a hardware loop level with the count in sa. -/
  | loopr (c : CoreId) (l : Fin 2) (sa : Reg) (z : Fin 256) (e : Fin 4096)
  /-- CSRRW (R121): Reads a control register into sd and writes sa to it. -/
  | csrrw (c : CoreId) (f : CF)
  /-- CSRRS (R121): Reads a control register into sd and sets the bits of sa. -/
  | csrrs (c : CoreId) (f : CF)
  /-- CSRRC (R121): Reads a control register into sd and clears the bits of sa. -/
  | csrrc (c : CoreId) (f : CF)
  /-- ECALL (R122): Raises SYSCALL. -/
  | ecall (c : CoreId) (f : RF)
  /-- EBREAK (R122): Raises BREAK, or halts into debug when BRKEN is 1. -/
  | ebreak (c : CoreId) (f : RF)
  /-- ERET (R151): Returns to EPC and restores SUP and IE, honouring a pending MODESW shadow. -/
  | eret (c : CoreId) (f : RF)
  /-- WFI (R122): Stalls until an enabled interrupt is pending or a debug halt. -/
  | wfi (c : CoreId) (f : RF)
  /-- FENCE (R123): Completes only when the masked earlier requests have been performed and acknowledged. -/
  | fence (c : CoreId) (f : RF)
  /-- IFENCE (R165): Waits for unheld stores and invalidates the fetch buffer. -/
  | ifence (c : CoreId) (f : RF)
  /-- MODESW (R124): Waits for the units to drain and switches the gallery between curated and charted mode after its shadow. -/
  | modesw (c : CoreId) (f : RF)
  /-- INTERRUPT_TAKEN (R152): A pending and enabled interrupt is taken at the next boundary that the rules allow. -/
  | interruptTaken (c : CoreId)
  /-- STORE_BUS (R153): A store's bus-error response raises an imprecise STORE_BUS exception. -/
  | storeBus (c : CoreId)
  /-- STORE_BUFFER_DRAIN (R158): The oldest store-buffer entry leaves when its bridge or route accepts it. -/
  | storeBufferDrain (c : CoreId)
  /-- LOAD_COMPLETE (R139): A load's response returns and the load commits, or raises LOAD_BUS or POISON. -/
  | loadComplete (c : CoreId)
  /-- OVERLAP_LOAD_ISSUE (R160): A load that waited for overlapping unheld stores to leave is issued and merges held bytes. -/
  | overlapLoadIssue (c : CoreId)
  /-- DEBUG_HALTREQ (R166): Writing DBG_CTL.HALTREQ requests a halt of the core. -/
  | debugHaltreq (ini : Nat) (c : CoreId) (v : Nat)
  /-- DEBUG_HALT (R166): The core halts at the first allowed boundary after a request, breakpoint, EBREAK or step. -/
  | debugHalt (c : CoreId)
  /-- DEBUG_RESUME (R167): Writing DBG_CTL.RESUME restarts the halted core at DPC. -/
  | debugResume (ini : Nat) (c : CoreId) (v : Nat)
  /-- DEBUG_REG_ACCESS (R168): An access to SREG, CSRDATA or DPC reads or writes core state while halted, else sets NOTHALTED. -/
  | debugRegAccess (ini : Nat) (c : CoreId) (off : Nat) (w : Option Nat)
  /-- DOORBELL (R155): Writing DOORBELL sets IPEND.SOFT of the core. -/
  | doorbell (ini : Nat) (c : CoreId) (v : Nat)
  /-- MX_CFG (R174): Enters a mode change into the array command queue after the issue-order checks. -/
  | mxCfg (c : CoreId) (f : XF)
  /-- MX_WLD (R174): Enters a weight-plane load into the command queue and marks the shadow plane valid in the issue-order state. -/
  | mxWld (c : CoreId) (f : XF)
  /-- MX_SWAP (R174): Enters an exchange of the active and shadow planes into the command queue. -/
  | mxSwap (c : CoreId) (f : XF)
  /-- MX_RUN (R176): Enters a run of activation rows into the command queue after checking the run word. -/
  | mxRun (c : CoreId) (f : XF)
  /-- MX_WAIT (R173): Stalls until the array queue is empty, the loader idle and every tile delivered. -/
  | mxWait (c : CoreId) (f : XF)
  /-- MX_STAT (R173): Writes the array status word into sd. -/
  | mxStat (c : CoreId) (f : XF)
  /-- MX_CFG_DISPATCH (R175): A queued MX.CFG is dispatched and the new mode applies to later rows. -/
  | mxCfgDispatch (g : Gal)
  /-- MX_WLD_DISPATCH (R175): A queued MX.WLD is dispatched and the loader starts filling its plane. -/
  | mxWldDispatch (g : Gal)
  /-- MX_SWAP_DISPATCH (R175): A queued MX.SWAP is dispatched and exchanges the planes in one row slot. -/
  | mxSwapDispatch (g : Gal)
  /-- MX_RUN_DISPATCH (R175): A queued MX.RUN is dispatched, latches its zero points, and its rows start entering. -/
  | mxRunDispatch (g : Gal)
  /-- PLANE_LOAD_DONE (R175): After 128 cycles the loader completes a plane, which becomes valid. -/
  | planeLoadDone (g : Gal)
  /-- VITRINE_SLOT_RESERVE (R185): When a tile's first output row leaves the pipeline the array reserves a FREE slot or freezes. -/
  | vitrineSlotReserve (g : Gal)
  /-- TILE_READY (R179): A finished tile becomes READY in its vitrine slot. -/
  | tileReady (g : Gal)
  /-- VX_POP (R184): Issues a pop of the vitrine head into td. -/
  | vxPop (c : CoreId) (f : XF)
  /-- VX_LD (R225): Issues a load of a tile from the gallery store. -/
  | vxLd (c : CoreId) (f : XF)
  /-- VX_ST (R225): Issues a store of a tile to the gallery store. -/
  | vxSt (c : CoreId) (f : XF)
  /-- VX_ADD (R228): Issues an element-wise addition. -/
  | vxAdd (c : CoreId) (f : XF)
  /-- VX_SUB (R228): Issues an element-wise subtraction. -/
  | vxSub (c : CoreId) (f : XF)
  /-- VX_MUL (R228): Issues an element-wise multiplication. -/
  | vxMul (c : CoreId) (f : XF)
  /-- VX_MAX (R228): Issues an element-wise maximum. -/
  | vxMax (c : CoreId) (f : XF)
  /-- VX_MIN (R228): Issues an element-wise minimum. -/
  | vxMin (c : CoreId) (f : XF)
  /-- VX_RED (R230): Issues a reduction across rows or columns. -/
  | vxRed (c : CoreId) (f : XF)
  /-- VX_SUM (R231): Issues a scalar summary of a tile into sd. -/
  | vxSum (c : CoreId) (f : XF)
  /-- VX_CPR (R233): Issues a mask compress. -/
  | vxCpr (c : CoreId) (f : XF)
  /-- VX_EXP (R233): Issues a mask expand. -/
  | vxExp (c : CoreId) (f : XF)
  /-- VX_CVT (R234): Issues a format conversion. -/
  | vxCvt (c : CoreId) (f : XF)
  /-- VX_RQ (R194): Issues a requantization through a legend entry. -/
  | vxRq (c : CoreId) (f : XF)
  /-- VX_ACT (R236): Issues an activation function. -/
  | vxAct (c : CoreId) (f : XF)
  /-- VX_CMP (R228): Issues an element-wise comparison. -/
  | vxCmp (c : CoreId) (f : XF)
  /-- VX_BCST (R228): Issues a broadcast of sa. -/
  | vxBcst (c : CoreId) (f : XF)
  /-- VX_MIN2 (R238): Issues the min-sum check-node minima. -/
  | vxMin2 (c : CoreId) (f : XF)
  /-- VX_SGNX (R239): Issues the min-sum sign combination. -/
  | vxSgnx (c : CoreId) (f : XF)
  /-- VX_INSTR_START (R222): A waiting VX instruction starts execution when its predecessor has ended. -/
  | vxInstrStart (g : Gal)
  /-- VX_INSTR_END (R223): A VX instruction ends after its occupancy and writes its destination and flags. -/
  | vxInstrEnd (g : Gal)
  /-- LEGEND_WRITE (R197): A write of LEG_CTL, LEG_SCALE or LEG_INSC is checked and derives RECIP, MULT and SHIFT. -/
  | legendWrite (ini : Nat) (g : Gal) (entry : Fin 1024) (word : Fin 3) (v : Nat)
  /-- ST_OPEN (R272): Opens a stream from its descriptor and returns a status code. -/
  | stOpen (c : CoreId) (f : XF)
  /-- ST_CLOSE (R275): Closes a stream after its released writes. -/
  | stClose (c : CoreId) (f : XF)
  /-- ST_NEXT (R273): Takes the next ready tile of a stream and returns its slot address. -/
  | stNext (c : CoreId) (f : XF)
  /-- ST_DONE (R273): Releases the oldest taken tile of a stream. -/
  | stDone (c : CoreId) (f : XF)
  /-- ST_WAIT (R275): Stalls until every started transfer of a stream is performed. -/
  | stWait (c : CoreId) (f : XF)
  /-- ST_STAT (R130): Writes the status word of a stream into sd. -/
  | stStat (c : CoreId) (f : XF)
  /-- TILE_FETCH_DONE (R273): The last granule of a read-stream tile is written and the tile becomes ready. -/
  | tileFetchDone (g : Gal) (n : Fin 16)
  /-- TILE_WRITE_DONE (R274): A write-stream tile's rows have been performed and its slot can be reused. -/
  | tileWriteDone (g : Gal) (n : Fin 16)
  /-- STREAM_END (R275): A stream ends, shows END, and performs its DONECELL add or NOTIFY. -/
  | streamEnd (g : Gal) (n : Fin 16)
  /-- SY_ADD (R132): Adds sb to a cell and returns the old value. -/
  | syAdd (c : CoreId) (f : XF)
  /-- SY_SET (R132): Sets a cell to sb and returns the old value. -/
  | sySet (c : CoreId) (f : XF)
  /-- SY_TEST (R132): Returns the cell value. -/
  | syTest (c : CoreId) (f : XF)
  /-- SY_WAITGE (R132): Waits until a cell is at least sb, or timeout. -/
  | syWaitge (c : CoreId) (f : XF)
  /-- SY_WAITEQ (R132): Waits until a cell equals sb, or timeout. -/
  | syWaiteq (c : CoreId) (f : XF)
  /-- SY_GATE (R132): Waits until a cell is at least sb, without timeout. -/
  | syGate (c : CoreId) (f : XF)
  /-- RG_POST (R293): Posts an entry to a ring and returns its status. -/
  | rgPost (c : CoreId) (f : XF)
  /-- RG_POP (R296): Pops one entry from a ring if present. -/
  | rgPop (c : CoreId) (f : XF)
  /-- RG_POPW (R296): Pops one entry, waiting up to a timeout. -/
  | rgPopw (c : CoreId) (f : XF)
  /-- RG_STAT (R297): Returns the ring's occupancy word. -/
  | rgStat (c : CoreId) (f : XF)
  /-- EP_OPEN (R208): Opens an epoch with a restart address. -/
  | epOpen (c : CoreId) (f : XF)
  /-- EP_COMMIT (R214): Ends the open epoch, which then commits or squashes. -/
  | epCommit (c : CoreId) (f : XF)
  /-- EP_SQUASH (R216): Squashes the open epoch. -/
  | epSquash (c : CoreId) (f : XF)
  /-- EP_STAT (R135): Writes the epoch status word into sd. -/
  | epStat (c : CoreId) (f : XF)
  /-- EPOCH_TIME_BOUND (R213): An epoch open for 2,458 TCXO cycles reaches its time bound and ends. -/
  | epochTimeBound (g : Gal)
  /-- EPOCH_COMMIT (R215): Once every check has resolved the epoch commits, releasing held effects. -/
  | epochCommit (g : Gal)
  /-- EPOCH_SQUASH (R216): At the next allowed boundary a squash discards provisional state and resumes at the restart address. -/
  | epochSquash (g : Gal)
  /-- SKIP_JOB_START (R246): A write of SKP_CTL with GO starts a skip job after its checks. -/
  | skipJobStart (ini : Nat) (g : Gal) (v : Nat)
  /-- SKIP_JOB_ABORT (R255): A write of SKP_CTL with ABORT closes the open job. -/
  | skipJobAbort (ini : Nat) (g : Gal) (v : Nat)
  /-- SKIP_LISTS_READY (R251): A deadline-mode job has written every list and READY reads 1. -/
  | skipListsReady (g : Gal)
  /-- SKIP_JOB_DONE (R251): A job without deadline mode writes its last list and count word and closes. -/
  | skipJobDone (g : Gal)
  /-- ROUND_TAKE (R253): A write of SKP_TAKE requests the next round, decided at once. -/
  | roundTake (ini : Nat) (g : Gal) (v : Nat)
  /-- DEADLINE_MARK_ARRIVE (R254): A deadline mark arrives at a gallery, cutting its deadline-mode job and raising DEADLINE. -/
  | deadlineMarkArrive (g : Gal)
  /-- AUDIT_CONTROL_WRITE (R257): A write of AUD_CTL configures or enables the audit sampler. -/
  | auditControlWrite (ini : Nat) (g : Gal) (v : Nat)
  /-- AUDIT_FLUSH (R257): A write of AUD_CTL with FLUSH drops every pending audit row. -/
  | auditFlush (ini : Nat) (g : Gal) (v : Nat)
  /-- AUDIT_ROW_SLOT (R258): In an idle array slot the sampler sends one key row through the audit column. -/
  | auditRowSlot (g : Gal)
  /-- AUDIT_ROW_EVALUATE (R259): Once every score is in, the sampler computes MAXABS and L1 for the row. -/
  | auditRowEvaluate (g : Gal)
  /-- AUDIT_WINDOW_COMPLETE (R260): When a window of rows completes, the last-window registers update and an alert may be raised. -/
  | auditWindowComplete (g : Gal)
  /-- CAROUSEL_START (R281): A write of CAR_CTL.START puts the member into STARTING. -/
  | carouselStart (ini : Nat) (g : Gal) (v : Nat)
  /-- CAROUSEL_GROUP_START (R281): When every member has started, the group enters step 0 or ERROR. -/
  | carouselGroupStart
  /-- CAROUSEL_PASS (R282): A write of CAR_CTL.PASS sets PASSED for the current step. -/
  | carouselPass (ini : Nat) (g : Gal) (v : Nat)
  /-- CAROUSEL_STOP (R284): A write of CAR_CTL.STOP stops the group at once. -/
  | carouselStop (ini : Nat) (g : Gal) (v : Nat)
  /-- CAROUSEL_TRANSFER_START (R282): Once sender and successor have entered a step, the shard transfer between them starts. -/
  | carouselTransferStart (g : Gal)
  /-- CAROUSEL_TRANSFER_DONE (R282): A shard transfer's writes have been performed, setting OUTDONE and INDONE. -/
  | carouselTransferDone (g : Gal)
  /-- CAROUSEL_STEP_ENTRY (R282): With PASSED, INDONE and OUTDONE set, the member enters the next step. -/
  | carouselStepEntry (g : Gal)
  /-- RING_ENABLE (R289): Setting RING_CFG.EN checks the configuration and enables the ring with a full bucket. -/
  | ringEnable (ini : Nat) (r : Fin 1024) (v : Nat)
  /-- RING_DISABLE (R289): Clearing RING_CFG.EN discards queued entries and times out waiting pops. -/
  | ringDisable (ini : Nat) (r : Fin 1024) (v : Nat)
  /-- HUB_TICK (R292): At each hub microsecond tick every bucket gains RATE millitokens. -/
  | hubTick
  /-- WAIT_TIMEOUT (R303): An unsatisfied wait completes with TIMEOUT at the first tick after T µs. -/
  | waitTimeout (pop : Bool) (k : Nat)
  /-- CELL_WINDOW_TEST (R301): A read of a cell's word 0x0 returns its value as a cell operation. -/
  | cellWindowTest (ini : Nat) (cell : Fin 65536)
  /-- CELL_WINDOW_SET (R301): A write of a cell's word 0x0 sets its value as a release. -/
  | cellWindowSet (ini : Nat) (cell : Fin 65536) (v : Nat)
  /-- CELL_WINDOW_ADD (R301): A write of a cell's word 0x4 adds to its value as a release. -/
  | cellWindowAdd (ini : Nat) (cell : Fin 65536) (v : Nat)
  /-- COMMAND_ADD (R305): A command record with OP ADD adds to a cell. -/
  | commandAdd (ini rec : Nat)
  /-- COMMAND_SET (R305): A command record with OP SET sets a cell. -/
  | commandSet (ini rec : Nat)
  /-- COMMAND_TEST (R305): A command record with OP TEST reads a cell. -/
  | commandTest (ini rec : Nat)
  /-- COMMAND_WAITGE (R305): A command record with OP WAITGE arms a wait. -/
  | commandWaitge (ini rec : Nat)
  /-- COMMAND_WAITEQ (R305): A command record with OP WAITEQ arms a wait. -/
  | commandWaiteq (ini rec : Nat)
  /-- COMMAND_POST (R305): A command record with OP POST posts an entry. -/
  | commandPost (ini rec : Nat)
  /-- COMMAND_POP (R305): A command record with OP POP pops an entry. -/
  | commandPop (ini rec : Nat)
  /-- REMOTE_OUTCOME (R306): The outcome of a remote operation returns from the trunk and completes the issuer. -/
  | remoteOutcome (tag code stamp v : Nat)
  /-- REMOTE_TIMEOUT (R306): A remote operation with no outcome within HUB_RTO completes with REFUSED_REMOTE. -/
  | remoteTimeout (tag : Nat)
  /-- REMOTE_WAIT_TIMEOUT (R307): A remote wait times out at the origin and a CANCEL is sent. -/
  | remoteWaitTimeout (tag : Nat)
  /-- ADMISSION_REQUEST (R311): A write of ADM_REQ queues a manifest request. -/
  | admissionRequest (ini v : Nat)
  /-- ADMISSION_EVALUATE (R312): The controller takes the next request and refuses or grants it. -/
  | admissionEvaluate
  /-- WORK_RELEASE (R314): A write of ADM_REL releases a work and its resources. -/
  | workRelease (ini v : Nat)
  /-- HOST_INSTRUCTION (R316): A host core executes one RV64GC instruction. -/
  | hostInstruction (c : HostId) (w : BitVec 32)
  /-- CBO_CLEAN (R320): Cleans a 64-byte block in every host cache. -/
  | cboClean (c : HostId) (rs1 : Reg)
  /-- CBO_FLUSH (R320): Cleans and invalidates a block in every host cache. -/
  | cboFlush (c : HostId) (rs1 : Reg)
  /-- CBO_INVAL (R320): Invalidates a block in every host cache. -/
  | cboInval (c : HostId) (rs1 : Reg)
  /-- HOST_FENCE (R325): A host FENCE waits for earlier requests and CBO write-backs to be performed. -/
  | hostFence (c : HostId)
  /-- L2_FLUSH (R322): A write of L2_FLUSH.GO starts cleaning and invalidating every host cache line. -/
  | l2Flush (ini v : Nat)
  /-- L2_FLUSH_DONE (R322): The L2 flush completes and BUSY falls. -/
  | l2FlushDone
  /-- PLIC_CLAIM (R328): A claim returns the highest-priority pending source and clears its pending bit. -/
  | plicClaim (ini : Nat) (ctx : Fin 8)
  /-- PLIC_COMPLETE (R327): A completion lets the gateway forward a new request from the source. -/
  | plicComplete (ini : Nat) (ctx : Fin 8) (v : Nat)
  /-- MTIME_WRITE (R331): A write of MTIME takes effect within 2 host cycles. -/
  | mtimeWrite (ini v : Nat)
  /-- MTIME_COMPARE (R331): MTIP of a core rises when MTIME reaches its MTIMECMP. -/
  | mtimeCompare (c : HostId)
  /-- MSIP_WRITE (R332): A write of MSIP drives the machine software interrupt of a core. -/
  | msipWrite (ini : Nat) (c : HostId) (v : Nat)
  /-- SETSSIP (R332): A write of 1 to SETSSIP sets SSIP of a core. -/
  | setssip (ini : Nat) (c : HostId) (v : Nat)
  /-- HOST_DBELL (R333): A write of HOST_DBELL sets HOST_DBSTAT bits. -/
  | hostDbell (ini v : Nat)
  /-- DMI_ACCESS (R334): A DMI operation reaches the host debug module. -/
  | dmiAccess (op addr data : Nat)
  /-- SUPERFRAME_BOUNDARY (R337): At each superframe boundary RF_SFN rises and the slot count restarts. -/
  | superframeBoundary (d : Die)
  /-- RF_SFOFS_WRITE (R337): A write of RF_SFOFS realigns the sample grid and abandons any capture. -/
  | rfSfofsWrite (ini : Nat) (d : Die) (v : Nat)
  /-- RADIO_ENABLE (R360): Raising RF_CTL.EN arms the detector and checks the record configuration. -/
  | radioEnable (ini : Nat) (d : Die) (v : Nat)
  /-- RSSI_SAMPLE (R356): Each baseband sample updates RSSI on every enabled antenna. -/
  | rssiSample (d : Die) (x : List Nat)
  /-- QUALIFIER_DECISION (R358): At t0 + QDLY the qualifier passes or fails the detection, committing or squashing the epoch. -/
  | qualifierDecision (d : Die)
  /-- FORMAT_DECISION (R359): At τ̂ + 135 the radio decides the format word from P1. -/
  | formatDecision (d : Die)
  /-- SYMBOL_PROGRESS (R361): Once a burst symbol is written the radio sets the progress cell. -/
  | symbolProgress (d : Die)
  /-- CAPTURE_PUBLISH (R361): At the capture's end the radio writes the header, sets RX_CELL and posts to its ring. -/
  | capturePublish (d : Die)
  /-- DETECTOR_REARM (R357): The detector re-arms after a capture's last slot or after a failure. -/
  | detectorRearm (d : Die)
  /-- RXCLK_CHECK (R352): Each 1 ms window the radio compares the receive clock and sets RXCLKERR. -/
  | rxclkCheck (d : Die) (a : Fin 4) (ppm : Int)
  /-- RAMP_DOWN_START (R367): At the last guard, or at an underrun, PA_RAMP steps down. -/
  | rampDownStart (d : Die) (a : Fin 4) (under : Bool)
  /-- TRANSMIT_END (R366): At the slot end PA_EN falls, VALID clears and the status is posted. -/
  | transmitEnd (d : Die) (a : Fin 4)
  /-- DELIVERER_ENABLE (R381): Raising RCV_CTL.EN checks the deliverer configuration. -/
  | delivererEnable (ini : Nat) (d : Die) (v : Nat)
  /-- DEADLINE_MARK_DELIVER (R383): A mark to the radio makes the deliverer choose a path and deliver each due record. -/
  | deadlineMarkDeliver (d : Die)
  /-- METER_ENABLE (R406): Raising MTR_CTL.EN starts the first RTD round. -/
  | meterEnable (ini : Nat) (d : Die) (v : Nat)
  /-- SHOT_UP_START (R393): After the down measurement and SETTLE the up start edge drives the other end. -/
  | shotUpStart (d : Die) (p : Fin 2) (raw hits : List Int)
  /-- SHOT_MEASURE_END (R393): The up measurement ends and a pick request may be posted. -/
  | shotMeasureEnd (d : Die) (p : Fin 2) (raw hits : List Int)
  /-- PICK_COMMIT (R399): A write of PICK_CMT latches the learned pick for the shot. -/
  | pickCommit (ini : Nat) (d : Die) (p : Fin 2) (v : Nat)
  /-- PICK_WINDOW_CLOSE (R399): The pick window closes and the shot's times are chosen. -/
  | pickWindowClose (d : Die) (p : Fin 2)
  /-- SHOT_RESULT (R403): The shot's result is computed, accumulated and posted, and the path is freed. -/
  | shotResult (d : Die) (p : Fin 2)
  /-- RTD_ROUND_START (R406): At each multiple of MINT ms a round of RTD conversions starts. -/
  | rtdRoundStart (d : Die)
  /-- RTD_CONVERSION_DONE (R404): An RTD conversion ends after 10 ms and its temperature is taken, completing the round after the last. -/
  | rtdConversionDone (d : Die) (code : Nat)
  /-- ACC_CLEAR (R411): A write of ACC_CLR zeroes an accumulator. -/
  | accClear (ini : Nat) (d : Die) (a : Fin 16) (v : Nat)
  /-- ACC_TIME_TICK (R409): Each millisecond the time quantities increment. -/
  | accTimeTick (d : Die)
  /-- PULSE_START (R413): At a 10 µs boundary a pulse starts from the backlog. -/
  | pulseStart (d : Die) (o : Fin 4)
  /-- PULSE_END (R413): After WIDTH × 10 µs the pulse output returns to idle. -/
  | pulseEnd (d : Die) (o : Fin 4)
  /-- SP_SAMPLE (R414): Each 62.5 µs the station-power channels sample and convert, with range logic. -/
  | spSample (d : Die) (codes : List Int)
  /-- PRESS_WRITE (R408): A write of PRESS records the pressure and its time. -/
  | pressWrite (ini : Nat) (d : Die) (v : Nat)
  /-- AC_SAMPLE (R423): At each sample instant the acoustic channels deliver sample words and autorange. -/
  | acSample (d : Die) (rate : Fin 4) (sd : List Int) (tdm0 tdm1 : List Nat)
  /-- FRAME_PUBLISH (R434): A complete frame is written, posted to its ring and GRP_WSEQ rises. -/
  | framePublish (d : Die) (g : Fin 4)
  /-- GROUP_ENABLE (R431): Raising GRP_CFG.EN checks and enables a capture group. -/
  | groupEnable (ini : Nat) (d : Die) (g : Fin 4) (v : Nat)
  /-- GROUP_DISABLE (R435): Clearing GRP_CFG.EN abandons the frame in progress. -/
  | groupDisable (ini : Nat) (d : Die) (g : Fin 4) (v : Nat)
  /-- SD_CFG_WRITE (R429): A write of SD_CFG changes an input's gain control at the next sample. -/
  | sdCfgWrite (ini : Nat) (d : Die) (i : Fin 8) (v : Nat)
  /-- TDM_CFG_WRITE (R425): A write of TDM_CFG configures a port or is ignored with CFGERR. -/
  | tdmCfgWrite (ini : Nat) (d : Die) (p : Fin 2) (v : Nat)
  /-- VBAT_RISE (R436): VBAT rising above 1.0 V resets the meridian domain with OSF set. -/
  | vbatRise (d : Die) (low : Bool)
  /-- MERIDIAN_SECOND (R437): When SUB wraps SEC rises by 1. -/
  | meridianSecond (d : Die)
  /-- CRYSTAL_MISS (R438): Five or more missing crystal cycles set OSF and MISS. -/
  | crystalMiss (d : Die)
  /-- VBAT_BROWNOUT (R438): VBAT below 1.50 V for 2 µs sets OSF and BROWN. -/
  | vbatBrownout (d : Die)
  /-- MERIDIAN_HALT (R439): Setting HALT stops counting and clears HOLD. -/
  | meridianHalt (ini : Nat) (d : Die) (v : Nat)
  /-- MERIDIAN_RESUME (R439): Clearing HALT resumes counting, advanced by HOLD if ADDHOLD. -/
  | meridianResume (ini : Nat) (d : Die) (v : Nat)
  /-- MERIDIAN_SET (R439): A write of MER_SEC or MER_SUB lands only while HALT is 1. -/
  | meridianSet (ini : Nat) (d : Die) (sub : Bool) (v : Nat)
  /-- ALARM_FIRE (R441): An alarm fires when the count passes its time, setting ALMF. -/
  | alarmFire (d : Die) (k : Fin 4)
  /-- TS_FADJ_WRITE (R444): A write of TS_FADJ changes the rate of station time. -/
  | tsFadjWrite (ini v : Nat)
  /-- TS_SLEW_WRITE (R444): A write of TS_SLEW replaces the remaining slew amount. -/
  | tsSlewWrite (ini v : Nat)
  /-- TS_STEP_WRITE (R444): A write of TS_STEP steps station time at the next TCXO cycle. -/
  | tsStepWrite (ini v : Nat)
  /-- TS_CTL_WRITE (R445): A write of TS_CTL selects the discipline source. -/
  | tsCtlWrite (ini v : Nat)
  /-- PPS_CAPTURE (R446): A PPS_IN edge is captured with its error and may change LOCK. -/
  | ppsCapture (up : Bool) (off : Nat)
  /-- PPS_MISS_TIMEOUT (R447): 1.5 s without a captured edge clears LOCK and sets PPSMISS. -/
  | ppsMissTimeout
  /-- TT_ARM (R449): A TT_CTL write with ARM arms an entry and tests its time. -/
  | ttArm (ini : Nat) (d : Die) (n : Fin 256) (v : Nat)
  /-- TT_DISARM (R455): A TT_CTL write with DISARM clears VALID. -/
  | ttDisarm (ini : Nat) (d : Die) (n : Fin 256) (v : Nat)
  /-- TIMETABLE_FIRE (R450): Each entry due in a TCXO cycle fires its action. -/
  | timetableFire (d : Die)
  /-- LINK_UP (R461): After 20 good HELLO frames a link comes up. -/
  | linkUp (d : Die) (l : Fin 2)
  /-- LINK_DOWN (R461): Loss of lock, LOS or 100 µs without a frame takes a link down, wrapping in a ring. -/
  | linkDown (d : Die) (l : Fin 2) (los modabs : Bool)
  /-- HELLO_SEND (R461): Each 10 µs an enabled link sends HELLO with its grants. -/
  | helloSend (d : Die) (l : Fin 2)
  /-- FRAME_RECEIVE (R464): A survey frame is checked and accepted, delivered, forwarded or discarded. -/
  | frameReceive (d : Die) (l : Fin 2) (frame : List Byte)
  /-- HELLO_RECEIVE (R466): A received HELLO updates the neighbour and credit grants. -/
  | helloReceive (d : Die)
  /-- TOPO_SEND (R469): Every TOPOPER ms a station sends TOPO out of both links. -/
  | topoSend (d : Die)
  /-- TOPO_RECEIVE (R469): A received TOPO updates the map, root and duplicate detection. -/
  | topoReceive (d : Die)
  /-- TOPO_ENTRY_EXPIRE (R469): A map entry not refreshed within 3 × TOPOPER is removed. -/
  | topoEntryExpire (d : Die) (uid : Nat)
  /-- SPAN_REPAIR (R471): A link up for 1 s sends REPAIR and ends its wrap. -/
  | spanRepair (d : Die) (l : Fin 2)
  /-- ELECTION (R473): After the map is stable for 3 × TOPOPER an electing station takes a number. -/
  | election (d : Die)
  /-- TRK_STN_WRITE (R472): A write of TRK_STN sets the numbering mode or number. -/
  | trkStnWrite (ini : Nat) (d : Die) (v : Nat)
  /-- REELECT (R473): TRK_CMD.REELECT clears VALID and starts an election. -/
  | reelect (ini : Nat) (d : Die) (v : Nat)
  /-- TT_EXCHANGE_START (R476): On schedule each up link sends TT_REQ and records t1. -/
  | ttExchangeStart (d : Die) (l : Fin 2)
  /-- TT_REQ_RECEIVE (R476): A received TT_REQ is stamped and answered with TT_RESP. -/
  | ttReqReceive (d : Die)
  /-- TT_RESP_RECEIVE (R477): A received TT_RESP completes an exchange and feeds the servo. -/
  | ttRespReceive (d : Die)
  /-- TT_EXCHANGE_LOST (R476): A TT_RESP not received within 5 ms loses the exchange. -/
  | ttExchangeLost (d : Die) (l : Fin 2)
  /-- SLOCK_TIMEOUT (R479): 1 s without a completed upstream exchange drops SLOCK. -/
  | slockTimeout (d : Die)
  /-- ASYMMETRY_CALIBRATE (R480): TRK_CMD.ACAL starts asymmetry calibration on a link. -/
  | asymmetryCalibrate (ini : Nat) (d : Die) (v : Nat)
  /-- REMOTE_POST_RECEIVE (R483): A POST frame is performed at the target and answered. -/
  | remotePostReceive (d : Die)
  /-- REMOTE_CELL_OP_RECEIVE (R483): A CELL_OP frame is performed at the target and answered. -/
  | remoteCellOpReceive (d : Die)
  /-- REMOTE_CANCEL_RECEIVE (R484): A CANCEL disarms a remote wait at the target. -/
  | remoteCancelReceive (d : Die)
  /-- REMOTE_WAIT_EXPIRE (R484): A remote wait 10 ms past its TIMEOUT is disarmed. -/
  | remoteWaitExpire (d : Die) (stn tag : Nat)
  /-- BULK_SEND (R486): The trunk pops a bulk send request and sends DATA frames. -/
  | bulkSend (d : Die)
  /-- BULK_RECEIVE (R486): A received DATA frame is written to a buffer and posted, or dropped. -/
  | bulkReceive (d : Die)
  /-- CSP_TRANSFER_START (R492): CSP_XFER with GO starts a serial transfer. -/
  | cspTransferStart (ini : Nat) (d : Die) (p : Fin 4) (v : Nat)
  /-- CSP_ABORT (R496): CSP_XFER with ABORT ends a transfer at the next unit boundary. -/
  | cspAbort (ini : Nat) (d : Die) (p : Fin 4) (v : Nat)
  /-- CSP_UNIT_START (R495): A unit begins once FIFO and RDY conditions are met. -/
  | cspUnitStart (d : Die) (p : Fin 4) (rdy : Bool) (di : List Bool)
  /-- CSP_WAIT_TIMEOUT (R496): A wait lasting TO µs ends the transfer with TIMEOUT. -/
  | cspWaitTimeout (d : Die) (p : Fin 4)
  /-- CSP_TRANSFER_END (R494): After the last bit the select is deasserted and RESULT becomes DONE. -/
  | cspTransferEnd (d : Die) (p : Fin 4)
  /-- CSP_PUSH (R493): A write of CSP_TXD pushes a word to the TX FIFO. -/
  | cspPush (ini : Nat) (d : Die) (p : Fin 4) (v : Nat)
  /-- CSP_POP (R493): A read of CSP_RXD pops a word from the RX FIFO. -/
  | cspPop (ini : Nat) (d : Die) (p : Fin 4)
  /-- GPIO_EDGE (R498): An enabled edge on a GPIO pin sets its GPIO_IRQ bit. -/
  | gpioEdge (d : Die) (i : Fin 24) (up : Bool)
  /-- GPIO_SET (R498): A write of GPIO_SET sets output bits. -/
  | gpioSet (ini : Nat) (d : Die) (v : Nat)
  /-- GPIO_CLR (R498): A write of GPIO_CLR clears output bits. -/
  | gpioClr (ini : Nat) (d : Die) (v : Nat)
  /-- FLASH_CONFIG_WRITE (R500): A write of FL_CFG configures a flash port or is ignored with CFGERR. -/
  | flashConfigWrite (ini : Nat) (d : Die) (q : Fin 2) (v : Nat)
  /-- FLASH_WINDOW_READ (R501): A window read granule becomes or extends a flash transaction. -/
  | flashWindowRead (ini addr size : Nat)
  /-- FLASH_TRANSACTION_END (R502): A flash transaction ends and CS_N rises. -/
  | flashTransactionEnd (d : Die) (q : Fin 2)
  /-- FLASH_COMMAND (R503): A write of FL_CMD with GO starts a command session. -/
  | flashCommand (ini : Nat) (d : Die) (q : Fin 2) (v : Nat)
  /-- FLASH_POLL (R503): Every 10 µs the session polls status until it matches. -/
  | flashPoll (d : Die) (q : Fin 2) (status : Byte) (chg : List (Nat × Byte))
  /-- FLASH_POLL_TIMEOUT (R503): Polling lasting FL_PTO ms ends the session with POLLTO. -/
  | flashPollTimeout (d : Die) (q : Fin 2)
  /-- WATCHDOG_KICK (R515): A write of WDG_KICK reloads the watchdog or is a bad kick. -/
  | watchdogKick (ini : Nat) (w : Wdog) (v : Nat)
  /-- WATCHDOG_ENABLE (R515): Writing EN from 0 to 1 loads CNT with TIMEOUT. -/
  | watchdogEnable (ini : Nat) (w : Wdog) (v : Nat)
  /-- WATCHDOG_UNIT (R515): At each unit boundary CNT falls by 1. -/
  | watchdogUnit (w : Wdog)
  /-- WATCHDOG_WARN (R515): CNT reaching WARN sets WARNED. -/
  | watchdogWarn (w : Wdog)
  /-- WATCHDOG_EXPIRE (R516): CNT reaching 0 resets the watched gallery, host core or I/O die. -/
  | watchdogExpire (w : Wdog)
  /-- SYSBUS_ACCESS (R524): Update-DR of SYSBUS issues a 32-bit system-bus access. -/
  | sysbusAccess (op : Fin 4) (addr data : Nat)
  /-- BOUNDARY_SCAN_UPDATE (R523): With EXTEST, CLAMP or HIGHZ selected the pins follow the boundary register. -/
  | boundaryScanUpdate (d : Die) (ir : Nat) (cells : List Bool)
  /-- THERMAL_MEASURE (R543): Every 20 µs each sensor measures, and two readings at LIMIT trip the compute die. -/
  | thermalMeasure (cd io : List Int)
  /-- WRITE_ACKNOWLEDGE (R30): The acknowledgement of a performed write returns to its initiator, completing a waiting FENCE or releasing a held SY or RG operation. -/
  | writeAcknowledge (ini : Nat)
  /-- ISLAND_RELOCK (R47): A fixed-mode island that left lock in a supply droop relocks at its ceiling once its supply recovers, and SETTLED reads 1 again. -/
  | islandRelock (i : Island)
  /-- PAD_RAIL_RECOVERY (R54): A VDD_IO18 or VDD_IO33 rail that browned out returns within range, releasing the switched islands it held in reset once the bit is cleared. -/
  | padRailRecovery (d : Die) (io33 : Bool)
  /-- RAMP_UP_START (R367): PA_LEAD grid points after PA_EN rises, PA_RAMP starts outputting RAMP[0] to RAMP[15], and the first baseband sample leaves 16 grid points later. -/
  | rampUpStart (d : Die) (a : Fin 4)
  /-- SLEW_COMPLETE (R444): The remaining TS_SLEW amount reaches 0, the last cycle adds the remainder, and SLEWING falls. -/
  | slewComplete
  /-- FRAME_TRANSMITTED (R465): A trunk link finishes sending a frame and starts the next queued frame in strict class priority; for a bulk frame this yields the SENT completion. -/
  | frameTransmitted (d : Die) (l : Fin 2)
  /-- COMMAND_SESSION_END (R503): A flash command session without polling finishes moving its LEN bytes, BUSY falls, RESULT becomes DONE, and waiting window reads proceed. -/
  | commandSessionEnd (d : Die) (q : Fin 2) (data : List Byte) (chg : List (Nat × Byte))
  deriving DecidableEq, Repr

end Sys2Proof
end

