-- ==== Sys2Proof/Config.lean ====
section
/-!
DEFINITION. What an implementation fixes: the assemblies of R1, and the free values, constants
without a body for what the spec leaves open.
-/

namespace Sys2Proof

/-- The four assemblies (R1). -/
inductive Asm
  | m0a | m1a | m2a | m4b
  deriving DecidableEq, Repr

/-- I/O dies fitted (R1). -/
def Asm.iodies : Asm → Nat
  | .m4b => 2
  | _ => 1

/-- Stacks fitted (R1). -/
def Asm.stacks : Asm → Nat
  | .m0a => 0
  | .m1a => 1
  | .m2a => 2
  | .m4b => 4

namespace Config

/-- The free value of draw number `n`: an unstated or undefined value of the spec. Nothing
constrains it (log entry 1). -/
opaque free : Nat → Nat

/-- Contents of the boot ROM, which the spec does not print (log entry 2). -/
opaque romByte : Nat → Byte

/-- Factory die identifier TRK_UID of I/O die `d` (log entry 3). -/
opaque factoryUid : Nat → Nat

/-- A free choice between two outcomes the spec allows, draw number `n` (log entry 1). -/
opaque freeBool : Nat → Bool

end Config

end Sys2Proof
end

