-- ==== Sys2Proof/Machine/Maps.lean ====
section
/-!
DEFINITION. Sparse maps in one canonical form (keys strictly rising, no entry equal to what an
unlisted key reads as), bit fields of Nat words, and byte order.
-/

namespace Sys2Proof.Machine

/-- A sparse map: key and value pairs, keys strictly rising. -/
abbrev SMap (α : Type) := List (Nat × α)

/-- Value at a key; `d` where the key is not listed. -/
def SMap.get {α : Type} (d : α) : SMap α → Nat → α
  | [], _ => d
  | (k, v) :: m, a => if a < k then d else if a = k then v else SMap.get d m a

/-- Remove a key. -/
def SMap.erase {α : Type} : SMap α → Nat → SMap α
  | [], _ => []
  | (k, v) :: m, a => if a < k then (k, v) :: m else if a = k then m else (k, v) :: SMap.erase m a

/-- List a value at a key, keeping the keys rising. -/
def SMap.insert {α : Type} : SMap α → Nat → α → SMap α
  | [], a, x => [(a, x)]
  | (k, v) :: m, a, x =>
    if a < k then (a, x) :: (k, v) :: m
    else if a = k then (a, x) :: m
    else (k, v) :: SMap.insert m a x

/-- Write a key: the value `d` of an unlisted key is not listed. -/
def SMap.set {α : Type} [DecidableEq α] (d : α) (m : SMap α) (a : Nat) (x : α) : SMap α :=
  if x = d then SMap.erase m a else SMap.insert m a x

/-- Drop every key from `lo` up to, but not including, `hi`. -/
def SMap.clear {α : Type} (m : SMap α) (lo hi : Nat) : SMap α :=
  m.filter fun p => p.1 < lo || hi ≤ p.1

/-- Keys strictly rising from above `b`. -/
def SMap.rising {α : Type} : Option Nat → SMap α → Bool
  | _, [] => true
  | b, (k, _) :: m => (match b with | none => true | some x => decide (x < k)) && rising (some k) m

/-- The canonical form: rising keys, and no entry equal to `d`. -/
def SMap.canon {α : Type} [DecidableEq α] (d : α) (m : SMap α) : Bool :=
  SMap.rising none m && m.all fun p => decide (p.2 ≠ d)

/-- Bits `hi:lo` of a word. -/
def bits (w hi lo : Nat) : Nat := w / 2 ^ lo % 2 ^ (hi - lo + 1)

/-- Bit `i` of a word. -/
def bit (w i : Nat) : Nat := w / 2 ^ i % 2

/-- `w` with bits `hi:lo` replaced by those of `v`. -/
def setBits (w hi lo v : Nat) : Nat :=
  w - bits w hi lo * 2 ^ lo + v % 2 ^ (hi - lo + 1) * 2 ^ lo

/-- A Bool as the bit 0 or 1. -/
def b2n (b : Bool) : Nat := if b then 1 else 0

/-- `w AND m` on words of at most 64 bits: clears the bits of `m` in `w` when given as `andNot`. -/
def andNot (w m : Nat) : Nat := w - (w &&& m)

/-- Two's-complement value of the low `n` bits. -/
def toS (n w : Nat) : Int :=
  let x := w % 2 ^ n
  if 2 ^ (n - 1) ≤ x then (x : Int) - 2 ^ n else x

/-- Low `n` bits of an integer. -/
def ofS (n : Nat) (x : Int) : Nat := (x % (2 ^ n : Nat)).toNat

/-- Clamp an integer to the signed range of `n` bits. -/
def clampS (n : Nat) (x : Int) : Int :=
  let m : Int := 2 ^ (n - 1)
  if x < -m then -m else if m - 1 < x then m - 1 else x

/-- Rounded quotient, ties to even; `d > 0`. -/
def rhe (n : Int) (d : Nat) : Int :=
  let q := n / d
  let r := n % d
  if 2 * r < d then q else if 2 * r = d then (if q % 2 = 0 then q else q + 1) else q + 1

/-- Little-endian value of a list of bytes. -/
def leNat : List Byte → Nat
  | [] => 0
  | b :: bs => b.toNat + 256 * leNat bs

/-- Big-endian value of a list of bytes. -/
def beNat (l : List Byte) : Nat := leNat l.reverse

/-- The `n` little-endian bytes of a value. -/
def leBytes : Nat → Nat → List Byte
  | 0, _ => []
  | n + 1, v => BitVec.ofNat 8 v :: leBytes n (v / 256)

/-- Read an element of a fixed-length vector. -/
def vget {α : Type} {n : Nat} (v : Vector α n) (i : Fin n) : α := v[i]

/-- Replace an element of a fixed-length vector. -/
def vset {α : Type} {n : Nat} (v : Vector α n) (i : Fin n) (x : α) : Vector α n := v.set i x

/-- Update an element of a fixed-length vector. -/
def vmod {α : Type} {n : Nat} (v : Vector α n) (i : Fin n) (f : α → α) : Vector α n :=
  v.set i (f v[i])

/-- `[0, 1, …, n-1]` folded over a state. -/
def iter {σ : Type} : Nat → (Nat → σ → σ) → σ → σ
  | 0, _, s => s
  | n + 1, f, s => f n (iter n f s)

end Sys2Proof.Machine
end

