-- ==== Sys2Proof/Machine/RegTable.lean ====
section
/-!
DEFINITION. The registers of the device, one `RegDef` a row of the spec's register tables
(R36 to R40): window, offset, repetition, width, fields with their access codes (R8) and reset value.
-/

namespace Sys2Proof.Machine

/-- Access codes of a register field (R8). -/
inductive Acc
  | rw | ro | wo | w1c | rc | rs
  deriving DecidableEq, Repr

/-- A field `hi:lo` of a register and its access code. -/
structure Fld where
  hi : Nat
  lo : Nat
  acc : Acc
  deriving DecidableEq, Repr

/-- Register windows and blocks (R33, R36). `io0`/`io1` are blocks present on that I/O die only. -/
inductive Win
  | io | io0 | io1 | cd | gal | dbg | host | plic | ring | rad | mtr | aco | trk
  deriving DecidableEq, Repr

/-- One register, or a two-dimensional array of equal registers. -/
structure RegDef where
  name : String
  win : Win
  off : Nat
  n1 : Nat
  s1 : Nat
  n2 : Nat
  s2 : Nat
  w : Nat
  flds : List Fld
  rst : Asm → Nat → Nat → Nat → Nat

/-- Base address of instance `k` of a window (R33, R36). -/
def Win.base : Win → Nat → Nat
  | .io, d | .io0, d | .io1, d => 0x10000000 + d * 0x1000000
  | .cd, _ => 0x20000000
  | .gal, g => 0x21000000 + g * 0x100000
  | .dbg, c => if c < 6 then 0x21000000 + c * 0x100000 else 0x10010000 + (c - 6) * 0x1000000
  | .host, _ => 0x22000000
  | .plic, _ => 0x24000000
  | .ring, _ => 0x29000000
  | .rad, d => 0x10100000 + d * 0x1000000
  | .mtr, d => 0x10060000 + d * 0x1000000
  | .aco, d => 0x10200000 + d * 0x1000000
  | .trk, d => 0x10300000 + d * 0x1000000

/-- Device address of element `(i, j)` of a register in window instance `k`. -/
def RegDef.addr (r : RegDef) (k i j : Nat) : Nat := r.win.base k + r.off + i * r.s1 + j * r.s2

/-- Mask with ones in bits `hi:lo`. -/
def fieldMask (hi lo : Nat) : Nat := (2 ^ (hi - lo + 1) - 1) * 2 ^ lo

/-- Bits of a register whose field has the given access code. -/
def RegDef.mask (r : RegDef) (a : Acc) : Nat :=
  r.flds.foldl (fun m f => if f.acc = a then m ||| fieldMask f.hi f.lo else m) 0

namespace R

/-- Field constructors, named after the access codes of R8. -/
def rw (hi lo : Nat) : Fld := ⟨hi, lo, .rw⟩
@[inherit_doc rw] def ro (hi lo : Nat) : Fld := ⟨hi, lo, .ro⟩
@[inherit_doc rw] def wo (hi lo : Nat) : Fld := ⟨hi, lo, .wo⟩
@[inherit_doc rw] def w1c (hi lo : Nat) : Fld := ⟨hi, lo, .w1c⟩
@[inherit_doc rw] def rc (hi lo : Nat) : Fld := ⟨hi, lo, .rc⟩
@[inherit_doc rw] def rs (hi lo : Nat) : Fld := ⟨hi, lo, .rs⟩

/-- A single register. -/
def reg1 (name : String) (win : Win) (off w : Nat) (flds : List Fld) (rst : Nat) : RegDef :=
  ⟨name, win, off, 1, 0, 1, 0, w, flds, fun _ _ _ _ => rst⟩

/-- An array of registers with one reset value. -/
def regN (name : String) (win : Win) (off n1 s1 n2 s2 w : Nat) (flds : List Fld) (rst : Nat) :
    RegDef := ⟨name, win, off, n1, s1, n2, s2, w, flds, fun _ _ _ _ => rst⟩

/-- A register or array whose reset value depends on its position. -/
def regF (name : String) (win : Win) (off n1 s1 n2 s2 w : Nat) (flds : List Fld)
    (rst : Asm → Nat → Nat → Nat → Nat) : RegDef := ⟨name, win, off, n1, s1, n2, s2, w, flds, rst⟩

/-- `l[i]`, 0 past its end. -/
def at0 (l : List Nat) (i : Nat) : Nat := l.getD i 0

/-- ICC_CTL word: MODE, FMAX, FMIN. -/
def iccWord (mode fmax fmin : Nat) : Nat := mode * 2 ^ 31 + fmax * 2 ^ 16 + fmin

/-- Reset limits of the compute-die islands (R24). -/
def iccReset (_ : Asm) (_ i _j : Nat) : Nat :=
  if i < 6 then iccWord 1 300 150
  else if i = 6 then iccWord 1 800 200
  else if i = 7 then iccWord 0 800 800
  else if i = 8 then iccWord 0 600 600
  else iccWord 0 1066 1066

/-- Nominal frequencies of the I/O-die islands in whole MHz, rounded down (R24, ICC_CTL). -/
def ioIccReset (_ : Asm) (_ i _j : Nat) : Nat :=
  let f := at0 [76, 153, 131, 49, 156, 100, 400] i
  iccWord 0 f f

/-- Reset pairs of VF_GAL. -/
def vfGalReset (_ : Asm) (_ j _k : Nat) : Nat :=
  at0 [150, 215, 280, 345, 410, 475, 540, 600] j * 2 ^ 16
    + at0 [550, 590, 630, 670, 710, 750, 800, 850] j

/-- Reset pairs of VF_HOST. -/
def vfHostReset (_ : Asm) (_ j _k : Nat) : Nat :=
  at0 [200, 400, 600, 800, 1000, 1150, 1300, 1400] j * 2 ^ 16
    + at0 [750, 770, 790, 810, 830, 850, 875, 900] j

/-- Is ring `r` a ring of I/O die 1 (R288)? -/
def ringOfDie1 (r : Nat) : Bool :=
  (4 ≤ r && r ≤ 7) || (12 ≤ r && r ≤ 15) || (20 ≤ r && r ≤ 23) || (32 ≤ r && r ≤ 39) || r == 41
    || (45 ≤ r && r ≤ 47)

/-- Class assigned to a device ring (R288): 1 reception, 2 real-time classification, 0 none. -/
def ringClass (a : Asm) (r : Nat) : Nat :=
  if ringOfDie1 r && a.iodies < 2 then 0
  else if 16 ≤ r && r ≤ 23 then 2 else if r ≤ 48 then 1 else 0

/-- RING_CFG at reset: CLASS per R288 and LOG2N 4. -/
def ringCfgReset (a : Asm) (_ r _j : Nat) : Nat := ringClass a r * 2 ^ 28 + 4

/-- ADM_STKHI: the end of the fitted stack range (R2). With no stack fitted the pool is empty. -/
def stkHiReset (a : Asm) (_ _ _ : Nat) : Nat := 0x800000000 + a.stacks * 0x200000000 - 1

/-- Reset ramp of the PA (RAMP). -/
def rampReset (_ : Asm) (_ i _j : Nat) : Nat :=
  at0 [10, 39, 86, 150, 227, 316, 412, 512, 611, 707, 796, 873, 937, 984, 1013, 1023] i

/-- KV[p][j] resets to 1,000 j. -/
def kvReset (_ : Asm) (_ _ j : Nat) : Nat := 1000 * j

/-- Water density table (WTAB_D). -/
def wtabDReset (_ : Asm) (_ j _k : Nat) : Nat :=
  at0 [99984, 99970, 99821, 99565, 99222, 98803, 98320, 97776, 97179, 96531, 95835, 95095,
    94311, 93484, 92613, 91701, 90745] j

/-- Water enthalpy table (WTAB_H). -/
def wtabHReset (_ : Asm) (_ j _k : Nat) : Nat :=
  at0 [0, 42020, 83910, 125730, 167530, 209340, 251180, 293070, 335010, 377040, 419170, 461420,
    503810, 546380, 589160, 632180, 675470] j

/-- DEVID: spec chapter 00 R5-R7. -/
def DEVID : RegDef := reg1 "DEVID" .io 0x0 32 [ro 31 20, ro 19 16, ro 15 14, ro 13 11, ro 10 10, ro 7 0] 0x1b620000
/-- CDID: spec chapter 01 CDID. -/
def CDID : RegDef := reg1 "CDID" .cd 0x0 32 [ro 31 20, ro 19 16, ro 15 12, ro 11 9] 0x1b626800
/-- ICC_CTL: spec chapter 02 R24, R47. -/
def ICC_CTL : RegDef := regF "ICC_CTL" .cd 0x100 13 0x10 1 0x0 32 [rw 31 31, rw 27 16, rw 11 0] iccReset
/-- ICC_STAT: spec chapter 02 R47. -/
def ICC_STAT : RegDef := regN "ICC_STAT" .cd 0x104 13 0x10 1 0x0 32 [w1c 31 31, w1c 30 30, ro 29 29, ro 15 0] 0x20000000
/-- ICC_DROOPS: spec chapter 02 R47. -/
def ICC_DROOPS : RegDef := regN "ICC_DROOPS" .cd 0x108 13 0x10 1 0x0 32 [rc 31 0] 0x0
/-- BERR_ADDR: spec chapter 02 R41. -/
def BERR_ADDR : RegDef := reg1 "BERR_ADDR" .cd 0x200 64 [ro 39 0] 0x0
/-- BERR_INFO: spec chapter 02 R41. -/
def BERR_INFO : RegDef := reg1 "BERR_INFO" .cd 0x208 32 [w1c 31 31, w1c 30 30, ro 27 24, ro 23 18, ro 17 17, ro 16 14] 0x0
/-- BERR_COUNT: spec chapter 02 R41. -/
def BERR_COUNT : RegDef := reg1 "BERR_COUNT" .cd 0x20c 32 [rc 31 0] 0x0
/-- IO_ICC_CTL: spec chapter 02 R24, R47. -/
def IO_ICC_CTL : RegDef := regF "IO_ICC_CTL" .io 0x100 7 0x10 1 0x0 32 [ro 31 31, ro 27 16, ro 11 0] ioIccReset
/-- IO_ICC_STAT: spec chapter 02 R47. -/
def IO_ICC_STAT : RegDef := regN "IO_ICC_STAT" .io 0x104 7 0x10 1 0x0 32 [w1c 31 31, w1c 30 30, ro 29 29, ro 15 0] 0x20000000
/-- IO_ICC_DROOPS: spec chapter 02 R47. -/
def IO_ICC_DROOPS : RegDef := regN "IO_ICC_DROOPS" .io 0x108 7 0x10 1 0x0 32 [rc 31 0] 0x0
/-- IO_BERR_ADDR: spec chapter 02 R41. -/
def IO_BERR_ADDR : RegDef := reg1 "IO_BERR_ADDR" .io 0x200 64 [ro 39 0] 0x0
/-- IO_BERR_INFO: spec chapter 02 R41. -/
def IO_BERR_INFO : RegDef := reg1 "IO_BERR_INFO" .io 0x208 32 [w1c 31 31, w1c 30 30, ro 27 24, ro 23 18, ro 17 17, ro 16 14] 0x0
/-- IO_BERR_COUNT: spec chapter 02 R41. -/
def IO_BERR_COUNT : RegDef := reg1 "IO_BERR_COUNT" .io 0x20c 32 [rc 31 0] 0x0
/-- PWR_CTL: spec chapter 03 R49, R51. -/
def PWR_CTL : RegDef := reg1 "PWR_CTL" .io 0x1000 32 [rw 31 31, rw 6 2] 0x0
/-- PWR_CISL: spec chapter 03 R52. -/
def PWR_CISL : RegDef := reg1 "PWR_CISL" .io0 0x1004 32 [rw 11 8, rw 5 0] 0x0
/-- PWR_STAT: spec chapter 03 R51-R53. -/
def PWR_STAT : RegDef := reg1 "PWR_STAT" .io 0x1008 32 [ro 31 30, w1c 29 29, ro 28 26, ro 25 22, ro 21 16, ro 6 2] 0x0
/-- BOD_STAT: spec chapter 03 R54. -/
def BOD_STAT : RegDef := reg1 "BOD_STAT" .io 0x1010 32 [w1c 8 0] 0x0
/-- BOD_COUNT: spec chapter 03 R54. -/
def BOD_COUNT : RegDef := reg1 "BOD_COUNT" .io 0x1014 32 [rc 31 0] 0x0
/-- PMB_CFG: spec chapter 03 R56. -/
def PMB_CFG : RegDef := reg1 "PMB_CFG" .io 0x1020 32 [rw 31 31, rw 30 30, rw 29 29, rw 15 0] 0x64
/-- PMB_RAIL: spec chapter 03 R56. -/
def PMB_RAIL : RegDef := regN "PMB_RAIL" .io 0x1024 6 0x4 1 0x0 32 [rw 31 31, rw 15 8, rw 6 0] 0x0
/-- PMB_STAT: spec chapter 03 R56. -/
def PMB_STAT : RegDef := reg1 "PMB_STAT" .io 0x1040 32 [w1c 31 31, w1c 30 30, w1c 29 29, w1c 28 28, ro 27 25, rc 15 0] 0x0
/-- PMB_ALERT: spec chapter 03 R56. -/
def PMB_ALERT : RegDef := reg1 "PMB_ALERT" .io 0x1044 32 [rc 15 0] 0x0
/-- VF_GAL: spec chapter 03 R57. -/
def VF_GAL : RegDef := regF "VF_GAL" .io 0x1080 8 0x4 1 0x0 32 [rw 27 16, rw 11 0] vfGalReset
/-- VF_HOST: spec chapter 03 R57. -/
def VF_HOST : RegDef := regF "VF_HOST" .io 0x10a0 8 0x4 1 0x0 32 [rw 27 16, rw 11 0] vfHostReset
/-- LDG_CTL: spec chapter 03 R65. -/
def LDG_CTL : RegDef := reg1 "LDG_CTL" .io 0x40000 32 [rw 31 31, wo 30 30, rw 23 16, rw 3 0] 0x180008
/-- LDG_STAT: spec chapter 03 R60-R74. -/
def LDG_STAT : RegDef := reg1 "LDG_STAT" .io 0x40004 32 [ro 31 31, ro 30 30, ro 29 29, ro 28 28, ro 27 27, ro 15 0] 0x0
/-- LDG_IRQ: spec chapter 03 R77. -/
def LDG_IRQ : RegDef := reg1 "LDG_IRQ" .io 0x40008 32 [w1c 7 0] 0x0
/-- LDG_IEN: spec chapter 03 R77. -/
def LDG_IEN : RegDef := reg1 "LDG_IEN" .io 0x4000c 32 [rw 7 0] 0x0
/-- BAT_Q: spec chapter 03 R64. -/
def BAT_Q : RegDef := reg1 "BAT_Q" .io 0x40010 32 [rw 31 0] 0x0
/-- BAT_CAP: spec chapter 03 R61. -/
def BAT_CAP : RegDef := reg1 "BAT_CAP" .io 0x40014 32 [rw 31 0] 0x0
/-- BAT_PAR: spec chapter 03 R61. -/
def BAT_PAR : RegDef := reg1 "BAT_PAR" .io 0x40018 32 [rw 23 16, rw 15 0] 0xf00000
/-- BAT_FULL: spec chapter 03 R62. -/
def BAT_FULL : RegDef := reg1 "BAT_FULL" .io 0x4001c 32 [rw 31 24, rw 23 16, rw 15 0] 0x1e0affff
/-- BAT_REST: spec chapter 03 R63. -/
def BAT_REST : RegDef := reg1 "BAT_REST" .io 0x40020 32 [rw 31 24, rw 15 0] 0x3c000032
/-- OCV: spec chapter 03 R63. -/
def OCV : RegDef := regN "OCV" .io 0x40040 16 0x4 1 0x0 32 [rw 15 0] 0xffff
/-- Q_FLOOR: spec chapter 03 R66. -/
def Q_FLOOR : RegDef := reg1 "Q_FLOOR" .io 0x40080 32 [rw 31 0] 0x0
/-- Q_EMERG: spec chapter 03 R73. -/
def Q_EMERG : RegDef := reg1 "Q_EMERG" .io 0x40084 32 [rw 31 0] 0x0
/-- Q_HYST: spec chapter 03 R73. -/
def Q_HYST : RegDef := reg1 "Q_HYST" .io 0x40088 32 [rw 31 0] 0x0
/-- V_EMERG: spec chapter 03 R73. -/
def V_EMERG : RegDef := reg1 "V_EMERG" .io 0x4008c 32 [rw 31 16, rw 15 0] 0x0
/-- GRACE_MS: spec chapter 03 R74. -/
def GRACE_MS : RegDef := reg1 "GRACE_MS" .io 0x40090 32 [rw 15 0] 0x2710
/-- BUD_CAP: spec chapter 03 R66. -/
def BUD_CAP : RegDef := reg1 "BUD_CAP" .io 0x400a0 64 [rw 63 0] 0x7fffffffffffffff
/-- BASE_RES: spec chapter 03 R66. -/
def BASE_RES : RegDef := reg1 "BASE_RES" .io 0x400a8 64 [rw 63 0] 0x0
/-- EXH_THRESH: spec chapter 03 R67. -/
def EXH_THRESH : RegDef := reg1 "EXH_THRESH" .io 0x400b0 64 [rw 63 0] 0x0
/-- BUDGET: spec chapter 03 R66. -/
def BUDGET : RegDef := reg1 "BUDGET" .io 0x400b8 64 [ro 63 0] 0x0
/-- BUD_REM: spec chapter 03 R67. -/
def BUD_REM : RegDef := reg1 "BUD_REM" .io 0x400c0 64 [ro 63 0] 0x0
/-- E_SOLAR_PREV: spec chapter 03 R66. -/
def E_SOLAR_PREV : RegDef := reg1 "E_SOLAR_PREV" .io 0x400c8 64 [ro 63 0] 0x0
/-- HOUR_MS: spec chapter 03 R65. -/
def HOUR_MS : RegDef := reg1 "HOUR_MS" .io 0x400d0 32 [rw 21 0] 0x0
/-- GCAP: spec chapter 03 R70. -/
def GCAP : RegDef := regN "GCAP" .io 0x40100 6 0x10 1 0x0 32 [rw 31 0] 0x0
/-- GSTAT: spec chapter 03 R70. -/
def GSTAT : RegDef := regN "GSTAT" .io 0x40104 6 0x10 1 0x0 32 [w1c 31 31, ro 27 16, ro 5 4, ro 3 0] 0x2580000
/-- TEN_E: spec chapter 03 R72. -/
def TEN_E : RegDef := regN "TEN_E" .io 0x40200 16 0x8 1 0x0 64 [rc 63 0] 0x0
/-- SHED_CNT: spec chapter 03 R74. -/
def SHED_CNT : RegDef := reg1 "SHED_CNT" .io 0x40280 32 [rc 31 0] 0x0
/-- LDG_POSTLOST: spec chapter 03 R77. -/
def LDG_POSTLOST : RegDef := reg1 "LDG_POSTLOST" .io 0x40284 32 [rc 31 0] 0x0
/-- RST_CAUSE: spec chapter 04 R80. -/
def RST_CAUSE : RegDef := reg1 "RST_CAUSE" .io 0x58000 32 [w1c 31 31, ro 23 20, ro 10 8, w1c 6 0] 0x80000000
/-- RST_CTL: spec chapter 04 R78. -/
def RST_CTL : RegDef := reg1 "RST_CTL" .io 0x58004 32 [wo 31 24, wo 0 0] 0x0
/-- STRAPS: spec chapter 04 R82. -/
def STRAPS : RegDef := reg1 "STRAPS" .io 0x58008 32 [ro 13 4, ro 3 2, ro 1 0] 0x0
/-- BOOT_STAT: spec chapter 04 R83-R89. -/
def BOOT_STAT : RegDef := reg1 "BOOT_STAT" .io 0x5800c 32 [ro 31 31, ro 30 30, ro 29 29, ro 28 28, ro 27 27, ro 15 8, ro 7 0] 0x0
/-- HOST_PC: spec chapter 04 R92. -/
def HOST_PC : RegDef := reg1 "HOST_PC" .io0 0x58010 64 [rw 39 0] 0x0
/-- CRST_REL: spec chapter 04 R92, R94. -/
def CRST_REL : RegDef := reg1 "CRST_REL" .io0 0x58018 32 [rw 9 4, rw 3 0] 0x0
/-- GREL_PC: spec chapter 04 R94. -/
def GREL_PC : RegDef := regN "GREL_PC" .io0 0x58020 6 0x4 1 0x0 32 [rw 31 2] 0x0
/-- W1_PC: spec chapter 04 R95. -/
def W1_PC : RegDef := reg1 "W1_PC" .io1 0x58040 32 [rw 31 2] 0x0
/-- W1_GO: spec chapter 04 R95. -/
def W1_GO : RegDef := reg1 "W1_GO" .io1 0x58044 32 [wo 0 0] 0x0
/-- KEYHASH: spec chapter 04 R97. -/
def KEYHASH : RegDef := regN "KEYHASH" .io 0x58100 2 0x20 8 0x4 32 [ro 31 0] 0x0
/-- OTP_CFG: spec chapter 04 R97. -/
def OTP_CFG : RegDef := reg1 "OTP_CFG" .io 0x58140 32 [ro 3 3, ro 2 2, ro 1 0] 0x0
/-- OTP_SVN: spec chapter 04 R97. -/
def OTP_SVN : RegDef := reg1 "OTP_SVN" .io 0x58148 64 [ro 63 0] 0x0
/-- OTP_CMD: spec chapter 04 R97. -/
def OTP_CMD : RegDef := reg1 "OTP_CMD" .io 0x58150 32 [wo 31 24, wo 12 8, wo 0 0] 0x0
/-- OTP_DATA: spec chapter 04 R97. -/
def OTP_DATA : RegDef := reg1 "OTP_DATA" .io 0x58154 32 [rw 31 0] 0x0
/-- OTP_STAT: spec chapter 04 R97. -/
def OTP_STAT : RegDef := reg1 "OTP_STAT" .io 0x58158 32 [ro 31 31, w1c 30 30] 0x0
/-- CAL_STAT: spec chapter 04 R98-R102. -/
def CAL_STAT : RegDef := reg1 "CAL_STAT" .io 0x50000 32 [ro 31 31, ro 30 30, ro 29 29, ro 23 20, ro 19 16, ro 15 0] 0x0
/-- CAL_CMD: spec chapter 04 R101. -/
def CAL_CMD : RegDef := reg1 "CAL_CMD" .io 0x50004 32 [wo 31 24, wo 0 0] 0x0
/-- CAL_LIVE: spec chapter 04 R98. -/
def CAL_LIVE : RegDef := regN "CAL_LIVE" .io 0x51000 1024 0x4 1 0x0 32 [ro 31 0] 0x0
/-- CAL_STAGE: spec chapter 04 R98. -/
def CAL_STAGE : RegDef := regN "CAL_STAGE" .io 0x52000 1024 0x4 1 0x0 32 [rw 31 0] 0x0
/-- DBG_CTL: spec chapter 06 R166. -/
def DBG_CTL : RegDef := reg1 "DBG_CTL" .dbg 0x0 32 [wo 31 31, wo 30 30, rw 29 29, rw 28 28] 0x0
/-- DBG_STAT: spec chapter 06 R166. -/
def DBG_STAT : RegDef := reg1 "DBG_STAT" .dbg 0x4 32 [ro 31 31, ro 30 30, w1c 29 29, ro 23 20] 0x0
/-- DPC: spec chapter 06 R167. -/
def DPC : RegDef := reg1 "DPC" .dbg 0x8 32 [rw 31 2] 0x0
/-- DOORBELL: spec chapter 06 R155. -/
def DOORBELL : RegDef := reg1 "DOORBELL" .dbg 0xc 32 [wo 0 0] 0x0
/-- CSRSEL: spec chapter 06 R168. -/
def CSRSEL : RegDef := reg1 "CSRSEL" .dbg 0x10 32 [rw 11 0] 0x0
/-- CSRDATA: spec chapter 06 R168. -/
def CSRDATA : RegDef := reg1 "CSRDATA" .dbg 0x14 32 [rw 31 0] 0x0
/-- SBSTALL: spec chapter 06 R160. -/
def SBSTALL : RegDef := reg1 "SBSTALL" .dbg 0x20 32 [rc 31 0] 0x0
/-- EXC_CNT: spec chapter 06. -/
def EXC_CNT : RegDef := reg1 "EXC_CNT" .dbg 0x24 32 [rc 31 0] 0x0
/-- INT_CNT: spec chapter 06. -/
def INT_CNT : RegDef := reg1 "INT_CNT" .dbg 0x28 32 [rc 31 0] 0x0
/-- SBERR_LOST: spec chapter 06 R153. -/
def SBERR_LOST : RegDef := reg1 "SBERR_LOST" .dbg 0x2c 32 [rc 31 0] 0x0
/-- BKPT_ADDR: spec chapter 06 R166. -/
def BKPT_ADDR : RegDef := regN "BKPT_ADDR" .dbg 0x40 4 0x8 1 0x0 32 [rw 31 0] 0x0
/-- BKPT_CTL: spec chapter 06 R166. -/
def BKPT_CTL : RegDef := regN "BKPT_CTL" .dbg 0x44 4 0x8 1 0x0 32 [rw 31 31, rw 3 2, rw 1 0] 0x8
/-- SREG: spec chapter 06 R168. -/
def SREG : RegDef := regN "SREG" .dbg 0x100 32 0x4 1 0x0 32 [rw 31 0] 0x0
/-- ARR_STAT: spec chapter 07 ARR_STAT. -/
def ARR_STAT : RegDef := reg1 "ARR_STAT" .gal 0x10000 32 [ro 31 0] 0x0
/-- ARR_FLAGS: spec chapter 07. -/
def ARR_FLAGS : RegDef := reg1 "ARR_FLAGS" .gal 0x10004 32 [w1c 4 0] 0x0
/-- ARR_IEN: spec chapter 07. -/
def ARR_IEN : RegDef := reg1 "ARR_IEN" .gal 0x10008 32 [rw 4 0] 0x0
/-- ARR_PLANE: spec chapter 07. -/
def ARR_PLANE : RegDef := reg1 "ARR_PLANE" .gal 0x1000c 32 [ro 7 0] 0x0
/-- VIT_HEAD: spec chapter 07 R183. -/
def VIT_HEAD : RegDef := reg1 "VIT_HEAD" .gal 0x10010 32 [ro 31 0] 0x0
/-- VIT_LAST: spec chapter 07 R183. -/
def VIT_LAST : RegDef := reg1 "VIT_LAST" .gal 0x10014 32 [ro 31 0] 0x0
/-- ARR_ROWS: spec chapter 07. -/
def ARR_ROWS : RegDef := reg1 "ARR_ROWS" .gal 0x10020 64 [rc 63 0] 0x0
/-- ARR_BUSYCYC: spec chapter 07. -/
def ARR_BUSYCYC : RegDef := reg1 "ARR_BUSYCYC" .gal 0x10028 64 [rc 63 0] 0x0
/-- ARR_TILES: spec chapter 07. -/
def ARR_TILES : RegDef := reg1 "ARR_TILES" .gal 0x10030 32 [rc 31 0] 0x0
/-- ARR_SQTILES: spec chapter 07. -/
def ARR_SQTILES : RegDef := reg1 "ARR_SQTILES" .gal 0x10034 32 [rc 31 0] 0x0
/-- ARR_VSTALL: spec chapter 07. -/
def ARR_VSTALL : RegDef := reg1 "ARR_VSTALL" .gal 0x10038 32 [rc 31 0] 0x0
/-- ARR_EPSTALL: spec chapter 07. -/
def ARR_EPSTALL : RegDef := reg1 "ARR_EPSTALL" .gal 0x1003c 32 [rc 31 0] 0x0
/-- ARR_SLIP: spec chapter 07. -/
def ARR_SLIP : RegDef := reg1 "ARR_SLIP" .gal 0x10040 32 [rc 31 0] 0x0
/-- VIT_UNDER: spec chapter 07. -/
def VIT_UNDER : RegDef := reg1 "VIT_UNDER" .gal 0x10044 32 [rc 31 0] 0x0
/-- ARR_SATCNT: spec chapter 07. -/
def ARR_SATCNT : RegDef := reg1 "ARR_SATCNT" .gal 0x10048 32 [rc 31 0] 0x0
/-- LEG_SCALE: spec chapter 08 R197. -/
def LEG_SCALE : RegDef := regN "LEG_SCALE" .gal 0x40000 1024 0x20 1 0x0 32 [rw 31 0] 0x0
/-- LEG_INSC: spec chapter 08 R197. -/
def LEG_INSC : RegDef := regN "LEG_INSC" .gal 0x40004 1024 0x20 1 0x0 32 [rw 31 0] 0x0
/-- LEG_CTL: spec chapter 08 R197. -/
def LEG_CTL : RegDef := regN "LEG_CTL" .gal 0x40008 1024 0x20 1 0x0 32 [ro 27 27, rw 26 23, rw 22 20, rw 19 18, rw 17 16, rw 15 0] 0x0
/-- LEG_MULT: spec chapter 08 R197. -/
def LEG_MULT : RegDef := regN "LEG_MULT" .gal 0x4000c 1024 0x20 1 0x0 32 [ro 31 0] 0x0
/-- LEG_DRV: spec chapter 08 R197. -/
def LEG_DRV : RegDef := regN "LEG_DRV" .gal 0x40010 1024 0x20 1 0x0 32 [ro 31 31, ro 30 30, ro 11 8, ro 5 0] 0x40000000
/-- LEG_RECIP: spec chapter 08 R197. -/
def LEG_RECIP : RegDef := regN "LEG_RECIP" .gal 0x40014 1024 0x20 1 0x0 32 [ro 31 0] 0x7f800000
/-- LEG_HMAX: spec chapter 08 R201. -/
def LEG_HMAX : RegDef := regN "LEG_HMAX" .gal 0x40018 1024 0x20 1 0x0 32 [ro 31 0] 0x0
/-- EP_STAT: spec chapter 08 EP_STAT. -/
def EP_STAT : RegDef := reg1 "EP_STAT" .gal 0x50000 32 [ro 31 0] 0x0
/-- EP_RRST: spec chapter 08 R209. -/
def EP_RRST : RegDef := reg1 "EP_RRST" .gal 0x50004 32 [rw 31 2] 0x0
/-- EP_FLAGS: spec chapter 08. -/
def EP_FLAGS : RegDef := reg1 "EP_FLAGS" .gal 0x50008 32 [w1c 6 0] 0x0
/-- EP_IEN: spec chapter 08. -/
def EP_IEN : RegDef := reg1 "EP_IEN" .gal 0x5000c 32 [rw 6 0] 0x0
/-- EP_LEGERR: spec chapter 08 R198. -/
def EP_LEGERR : RegDef := reg1 "EP_LEGERR" .gal 0x50010 32 [w1c 31 31, ro 9 0] 0x0
/-- EP_RESTART: spec chapter 08 R208. -/
def EP_RESTART : RegDef := reg1 "EP_RESTART" .gal 0x50014 32 [ro 31 2] 0x0
/-- EP_OPENS: spec chapter 08. -/
def EP_OPENS : RegDef := reg1 "EP_OPENS" .gal 0x50020 32 [rc 31 0] 0x0
/-- EP_COMMITS: spec chapter 08. -/
def EP_COMMITS : RegDef := reg1 "EP_COMMITS" .gal 0x50024 32 [rc 31 0] 0x0
/-- EP_SQSW: spec chapter 08. -/
def EP_SQSW : RegDef := reg1 "EP_SQSW" .gal 0x50028 32 [rc 31 0] 0x0
/-- EP_SQSAT: spec chapter 08. -/
def EP_SQSAT : RegDef := reg1 "EP_SQSAT" .gal 0x5002c 32 [rc 31 0] 0x0
/-- EP_SQEXC: spec chapter 08. -/
def EP_SQEXC : RegDef := reg1 "EP_SQEXC" .gal 0x50030 32 [rc 31 0] 0x0
/-- EP_SQQUAL: spec chapter 08. -/
def EP_SQQUAL : RegDef := reg1 "EP_SQQUAL" .gal 0x50034 32 [rc 31 0] 0x0
/-- EP_BOUNDS: spec chapter 08. -/
def EP_BOUNDS : RegDef := reg1 "EP_BOUNDS" .gal 0x50038 32 [rc 31 0] 0x0
/-- EP_RERUNS: spec chapter 08. -/
def EP_RERUNS : RegDef := reg1 "EP_RERUNS" .gal 0x5003c 32 [rc 31 0] 0x0
/-- EP_HRESETS: spec chapter 08. -/
def EP_HRESETS : RegDef := reg1 "EP_HRESETS" .gal 0x50040 32 [rc 31 0] 0x0
/-- EP_SATFINAL: spec chapter 08. -/
def EP_SATFINAL : RegDef := reg1 "EP_SATFINAL" .gal 0x50044 32 [rc 31 0] 0x0
/-- EP_RDEFER: spec chapter 08. -/
def EP_RDEFER : RegDef := reg1 "EP_RDEFER" .gal 0x50048 32 [rc 31 0] 0x0
/-- EP_PCYC: spec chapter 08. -/
def EP_PCYC : RegDef := reg1 "EP_PCYC" .gal 0x50050 64 [rc 63 0] 0x0
/-- EP_SQCYC: spec chapter 08. -/
def EP_SQCYC : RegDef := reg1 "EP_SQCYC" .gal 0x50058 64 [rc 63 0] 0x0
/-- EP_WAITCYC: spec chapter 08. -/
def EP_WAITCYC : RegDef := reg1 "EP_WAITCYC" .gal 0x50060 64 [rc 63 0] 0x0
/-- VEC_STAT: spec chapter 09 VEC_STAT. -/
def VEC_STAT : RegDef := reg1 "VEC_STAT" .gal 0x20000 32 [ro 31 0] 0x0
/-- VEC_FLAGS: spec chapter 09. -/
def VEC_FLAGS : RegDef := reg1 "VEC_FLAGS" .gal 0x20004 32 [w1c 4 0] 0x0
/-- VEC_IEN: spec chapter 09. -/
def VEC_IEN : RegDef := reg1 "VEC_IEN" .gal 0x20008 32 [rw 4 0] 0x0
/-- VEC_TAG: spec chapter 09 R220. -/
def VEC_TAG : RegDef := regN "VEC_TAG" .gal 0x20020 8 0x4 1 0x0 32 [ro 31 0] 0x0
/-- VEC_LASTSUM: spec chapter 09 R231. -/
def VEC_LASTSUM : RegDef := reg1 "VEC_LASTSUM" .gal 0x20040 32 [ro 31 0] 0x0
/-- VEC_SUMINFO: spec chapter 09 R231. -/
def VEC_SUMINFO : RegDef := reg1 "VEC_SUMINFO" .gal 0x20044 32 [ro 31 31, ro 30 30, ro 5 3, ro 2 0] 0x0
/-- VEC_CPRCNT: spec chapter 09 R233. -/
def VEC_CPRCNT : RegDef := reg1 "VEC_CPRCNT" .gal 0x20048 32 [ro 14 0] 0x0
/-- VEC_TSEL: spec chapter 09 R244. -/
def VEC_TSEL : RegDef := reg1 "VEC_TSEL" .gal 0x20060 32 [rw 10 8, rw 4 0] 0x0
/-- VEC_TROW: spec chapter 09 R244. -/
def VEC_TROW : RegDef := regN "VEC_TROW" .gal 0x21000 512 0x4 1 0x0 32 [ro 31 0] 0x0
/-- VEC_BUSYCYC: spec chapter 09 R243. -/
def VEC_BUSYCYC : RegDef := reg1 "VEC_BUSYCYC" .gal 0x20080 64 [rc 63 0] 0x0
/-- VEC_INSTR: spec chapter 09. -/
def VEC_INSTR : RegDef := reg1 "VEC_INSTR" .gal 0x20088 32 [rc 31 0] 0x0
/-- VEC_SATCNT: spec chapter 09. -/
def VEC_SATCNT : RegDef := reg1 "VEC_SATCNT" .gal 0x2008c 32 [rc 31 0] 0x0
/-- VEC_RQSAT: spec chapter 09. -/
def VEC_RQSAT : RegDef := reg1 "VEC_RQSAT" .gal 0x20090 32 [rc 31 0] 0x0
/-- VEC_POISON: spec chapter 09. -/
def VEC_POISON : RegDef := reg1 "VEC_POISON" .gal 0x20094 32 [rc 31 0] 0x0
/-- SKP_CTL: spec chapter 10 R246. -/
def SKP_CTL : RegDef := reg1 "SKP_CTL" .gal 0x60000 32 [wo 31 31, wo 30 30, rw 7 4, rw 3 3, rw 2 2, rw 1 1, rw 0 0] 0x0
/-- SKP_STAT: spec chapter 10 R246. -/
def SKP_STAT : RegDef := reg1 "SKP_STAT" .gal 0x60004 32 [ro 31 31, ro 30 30, ro 29 29, ro 28 28, ro 27 24] 0x0
/-- SKP_POS: spec chapter 10. -/
def SKP_POS : RegDef := reg1 "SKP_POS" .gal 0x60008 32 [rw 31 16, rw 15 0] 0x0
/-- SKP_WIN: spec chapter 10. -/
def SKP_WIN : RegDef := reg1 "SKP_WIN" .gal 0x6000c 32 [rw 31 16, rw 15 0] 0x0
/-- SKP_THR: spec chapter 10. -/
def SKP_THR : RegDef := reg1 "SKP_THR" .gal 0x60010 32 [rw 15 0] 0x0
/-- SKP_DIM: spec chapter 10. -/
def SKP_DIM : RegDef := reg1 "SKP_DIM" .gal 0x60014 32 [rw 24 16, rw 12 0] 0x0
/-- SKP_EST: spec chapter 10. -/
def SKP_EST : RegDef := reg1 "SKP_EST" .gal 0x60018 32 [rw 31 0] 0x0
/-- SKP_LIST: spec chapter 10. -/
def SKP_LIST : RegDef := reg1 "SKP_LIST" .gal 0x6001c 32 [rw 31 0] 0x0
/-- SKP_CNT: spec chapter 10. -/
def SKP_CNT : RegDef := reg1 "SKP_CNT" .gal 0x60020 32 [rw 31 0] 0x0
/-- SKP_TAKE: spec chapter 10 R253. -/
def SKP_TAKE : RegDef := reg1 "SKP_TAKE" .gal 0x60024 32 [wo 0 0] 0x0
/-- SKP_ROUND: spec chapter 10 R253. -/
def SKP_ROUND : RegDef := reg1 "SKP_ROUND" .gal 0x60028 32 [ro 31 31, ro 30 30, ro 29 29, ro 28 28, ro 8 0] 0x0
/-- SKP_GRANT: spec chapter 10 R253. -/
def SKP_GRANT : RegDef := reg1 "SKP_GRANT" .gal 0x6002c 32 [ro 24 16, ro 8 0] 0x0
/-- SKP_QROW: spec chapter 10. -/
def SKP_QROW : RegDef := reg1 "SKP_QROW" .gal 0x60030 32 [rw 31 0] 0x0
/-- SKP_KROW: spec chapter 10. -/
def SKP_KROW : RegDef := reg1 "SKP_KROW" .gal 0x60034 32 [rw 31 0] 0x0
/-- SKP_ZP: spec chapter 10. -/
def SKP_ZP : RegDef := reg1 "SKP_ZP" .gal 0x60038 32 [rw 25 16, rw 9 0] 0x0
/-- SKP_SSCALE: spec chapter 10. -/
def SKP_SSCALE : RegDef := reg1 "SKP_SSCALE" .gal 0x6003c 32 [rw 31 0] 0x0
/-- SKP_JOBS: spec chapter 10. -/
def SKP_JOBS : RegDef := reg1 "SKP_JOBS" .gal 0x60040 32 [rc 31 0] 0x0
/-- SKP_CUTS: spec chapter 10. -/
def SKP_CUTS : RegDef := reg1 "SKP_CUTS" .gal 0x60044 32 [rc 31 0] 0x0
/-- SKP_CONSID: spec chapter 10. -/
def SKP_CONSID : RegDef := reg1 "SKP_CONSID" .gal 0x60048 64 [rc 63 0] 0x0
/-- SKP_USED: spec chapter 10. -/
def SKP_USED : RegDef := reg1 "SKP_USED" .gal 0x60050 64 [rc 63 0] 0x0
/-- AUD_CTL: spec chapter 10 R257. -/
def AUD_CTL : RegDef := reg1 "AUD_CTL" .gal 0x60100 32 [rw 31 31, wo 30 30, rw 12 8, rw 3 0] 0xa06
/-- AUD_BMAX: spec chapter 10 R260. -/
def AUD_BMAX : RegDef := reg1 "AUD_BMAX" .gal 0x60104 32 [rw 31 0] 0x7f800000
/-- AUD_BL1: spec chapter 10 R260. -/
def AUD_BL1 : RegDef := reg1 "AUD_BL1" .gal 0x60108 32 [rw 31 0] 0x7f800000
/-- AUD_STAT: spec chapter 10 R257. -/
def AUD_STAT : RegDef := reg1 "AUD_STAT" .gal 0x6010c 32 [ro 31 31, ro 30 30, ro 29 27, ro 12 0] 0x0
/-- AUD_FLAGS: spec chapter 10. -/
def AUD_FLAGS : RegDef := reg1 "AUD_FLAGS" .gal 0x60110 32 [w1c 2 0] 0x0
/-- AUD_IEN: spec chapter 10. -/
def AUD_IEN : RegDef := reg1 "AUD_IEN" .gal 0x60114 32 [rw 2 0] 0x0
/-- AUD_LWSEQ: spec chapter 10 R260. -/
def AUD_LWSEQ : RegDef := reg1 "AUD_LWSEQ" .gal 0x60120 32 [rs 31 0] 0x0
/-- AUD_LWMAX: spec chapter 10 R260. -/
def AUD_LWMAX : RegDef := reg1 "AUD_LWMAX" .gal 0x60124 32 [ro 31 0] 0x0
/-- AUD_LWL1: spec chapter 10 R260. -/
def AUD_LWL1 : RegDef := reg1 "AUD_LWL1" .gal 0x60128 32 [ro 31 0] 0x0
/-- AUD_ROWCTR: spec chapter 10 R257. -/
def AUD_ROWCTR : RegDef := reg1 "AUD_ROWCTR" .gal 0x6012c 32 [ro 31 0] 0x0
/-- AUD_ROWS: spec chapter 10. -/
def AUD_ROWS : RegDef := reg1 "AUD_ROWS" .gal 0x60140 32 [rc 31 0] 0x0
/-- AUD_DROPS: spec chapter 10. -/
def AUD_DROPS : RegDef := reg1 "AUD_DROPS" .gal 0x60144 32 [rc 31 0] 0x0
/-- AUD_ALERTS: spec chapter 10. -/
def AUD_ALERTS : RegDef := reg1 "AUD_ALERTS" .gal 0x60148 32 [rc 31 0] 0x0
/-- AUD_SLOTS: spec chapter 10. -/
def AUD_SLOTS : RegDef := reg1 "AUD_SLOTS" .gal 0x60150 64 [rc 63 0] 0x0
/-- ST_STAT: spec chapter 11 ST_STAT. -/
def ST_STAT : RegDef := regN "ST_STAT" .gal 0x30000 16 0x4 1 0x0 32 [ro 31 0] 0x0
/-- ST_INFO: spec chapter 11 ST_INFO. -/
def ST_INFO : RegDef := regN "ST_INFO" .gal 0x30040 16 0x4 1 0x0 32 [ro 31 0] 0x0
/-- ST_FLAGS: spec chapter 11. -/
def ST_FLAGS : RegDef := reg1 "ST_FLAGS" .gal 0x30080 32 [w1c 1 0] 0x0
/-- ST_IEN: spec chapter 11. -/
def ST_IEN : RegDef := reg1 "ST_IEN" .gal 0x30084 32 [rw 1 0] 0x0
/-- ST_ERRINFO: spec chapter 11 R275. -/
def ST_ERRINFO : RegDef := reg1 "ST_ERRINFO" .gal 0x30088 32 [w1c 31 31, ro 27 24, ro 23 20, ro 19 19] 0x0
/-- ST_ERRADDR: spec chapter 11 R275. -/
def ST_ERRADDR : RegDef := reg1 "ST_ERRADDR" .gal 0x30090 64 [ro 39 0] 0x0
/-- GR_BASE: spec chapter 11 R268. -/
def GR_BASE : RegDef := regN "GR_BASE" .gal 0x30100 16 0x10 1 0x0 64 [rw 63 63, rw 39 6] 0x0
/-- GR_LIM: spec chapter 11 R268. -/
def GR_LIM : RegDef := regN "GR_LIM" .gal 0x30108 16 0x10 1 0x0 64 [rw 63 63, rw 39 6] 0x0
/-- ST_RDBYTES: spec chapter 11. -/
def ST_RDBYTES : RegDef := reg1 "ST_RDBYTES" .gal 0x30200 64 [rc 63 0] 0x0
/-- ST_WRBYTES: spec chapter 11. -/
def ST_WRBYTES : RegDef := reg1 "ST_WRBYTES" .gal 0x30208 64 [rc 63 0] 0x0
/-- ST_NEXTSTALL: spec chapter 11. -/
def ST_NEXTSTALL : RegDef := reg1 "ST_NEXTSTALL" .gal 0x30210 64 [rc 63 0] 0x0
/-- ST_ERRS: spec chapter 11. -/
def ST_ERRS : RegDef := reg1 "ST_ERRS" .gal 0x30218 32 [rc 31 0] 0x0
/-- CAR_CFG: spec chapter 11 R280. -/
def CAR_CFG : RegDef := reg1 "CAR_CFG" .gal 0x70000 32 [rw 31 31, rw 30 30, rw 5 0] 0x0
/-- CAR_SHARD: spec chapter 11. -/
def CAR_SHARD : RegDef := reg1 "CAR_SHARD" .gal 0x70004 32 [rw 17 0] 0x0
/-- CAR_BUF0: spec chapter 11. -/
def CAR_BUF0 : RegDef := reg1 "CAR_BUF0" .gal 0x70008 32 [rw 31 0] 0x0
/-- CAR_BUF1: spec chapter 11. -/
def CAR_BUF1 : RegDef := reg1 "CAR_BUF1" .gal 0x7000c 32 [rw 31 0] 0x0
/-- CAR_CELL: spec chapter 11. -/
def CAR_CELL : RegDef := reg1 "CAR_CELL" .gal 0x70010 32 [rw 31 0] 0x0
/-- CAR_CTL: spec chapter 11 R281. -/
def CAR_CTL : RegDef := reg1 "CAR_CTL" .gal 0x70014 32 [wo 2 2, wo 1 1, wo 0 0] 0x0
/-- CAR_STAT: spec chapter 11 R281-R284. -/
def CAR_STAT : RegDef := reg1 "CAR_STAT" .gal 0x70018 32 [ro 31 30, ro 29 29, ro 28 28, ro 27 27, ro 26 26, ro 23 20, ro 15 0] 0x0
/-- CAR_FLAGS: spec chapter 11. -/
def CAR_FLAGS : RegDef := reg1 "CAR_FLAGS" .gal 0x7001c 32 [w1c 1 0] 0x0
/-- CAR_IEN: spec chapter 11. -/
def CAR_IEN : RegDef := reg1 "CAR_IEN" .gal 0x70020 32 [rw 1 0] 0x0
/-- CAR_TXBYTES: spec chapter 11. -/
def CAR_TXBYTES : RegDef := reg1 "CAR_TXBYTES" .gal 0x70040 64 [rc 63 0] 0x0
/-- CAR_RXBYTES: spec chapter 11. -/
def CAR_RXBYTES : RegDef := reg1 "CAR_RXBYTES" .gal 0x70048 64 [rc 63 0] 0x0
/-- CAR_FWDBYTES: spec chapter 11. -/
def CAR_FWDBYTES : RegDef := reg1 "CAR_FWDBYTES" .gal 0x70050 64 [rc 63 0] 0x0
/-- CAR_WAITCYC: spec chapter 11. -/
def CAR_WAITCYC : RegDef := reg1 "CAR_WAITCYC" .gal 0x70058 64 [rc 63 0] 0x0
/-- RING_BASE: spec chapter 12 R289. -/
def RING_BASE : RegDef := regN "RING_BASE" .ring 0x0 1024 0x40 1 0x0 64 [rw 39 6] 0x0
/-- RING_CFG: spec chapter 12 R288, R289. -/
def RING_CFG : RegDef := regF "RING_CFG" .ring 0x8 1024 0x40 1 0x0 32 [rw 31 31, w1c 30 30, rw 29 28, rw 27 27, rw 26 26, rw 25 25, rw 19 16, ro 15 8, rw 4 0] ringCfgReset
/-- RING_RATE: spec chapter 12 R292. -/
def RING_RATE : RegDef := regN "RING_RATE" .ring 0x10 1024 0x40 1 0x0 32 [rw 31 16, rw 15 0] 0x0
/-- RING_SDEPTH: spec chapter 12 R290. -/
def RING_SDEPTH : RegDef := regN "RING_SDEPTH" .ring 0x14 1024 0x40 1 0x0 32 [rw 15 0] 0x0
/-- RING_OCC: spec chapter 12 R297. -/
def RING_OCC : RegDef := regN "RING_OCC" .ring 0x18 1024 0x40 1 0x0 32 [ro 31 0] 0x0
/-- RING_RPTR: spec chapter 12 R290. -/
def RING_RPTR : RegDef := regN "RING_RPTR" .ring 0x1c 1024 0x40 1 0x0 32 [ro 31 16, ro 15 0] 0x0
/-- RING_SPTR: spec chapter 12 R290. -/
def RING_SPTR : RegDef := regN "RING_SPTR" .ring 0x20 1024 0x40 1 0x0 32 [ro 31 16, ro 15 0] 0x0
/-- RING_TOK: spec chapter 12 R292. -/
def RING_TOK : RegDef := regN "RING_TOK" .ring 0x24 1024 0x40 1 0x0 32 [ro 26 0] 0x0
/-- RING_ACC: spec chapter 12. -/
def RING_ACC : RegDef := regN "RING_ACC" .ring 0x28 1024 0x40 1 0x0 32 [rc 31 0] 0x0
/-- RING_DEF: spec chapter 12. -/
def RING_DEF : RegDef := regN "RING_DEF" .ring 0x2c 1024 0x40 1 0x0 32 [rc 31 0] 0x0
/-- RING_RFULL: spec chapter 12. -/
def RING_RFULL : RegDef := regN "RING_RFULL" .ring 0x30 1024 0x40 1 0x0 32 [rc 31 0] 0x0
/-- RING_RRATE: spec chapter 12. -/
def RING_RRATE : RegDef := regN "RING_RRATE" .ring 0x34 1024 0x40 1 0x0 32 [rc 31 0] 0x0
/-- RING_RENERGY: spec chapter 12. -/
def RING_RENERGY : RegDef := regN "RING_RENERGY" .ring 0x38 1024 0x40 1 0x0 32 [rc 31 0] 0x0
/-- RING_DROP: spec chapter 12. -/
def RING_DROP : RegDef := regN "RING_DROP" .ring 0x3c 1024 0x40 1 0x0 32 [rc 31 0] 0x0
/-- HUB_CMD: spec chapter 12 R304. -/
def HUB_CMD : RegDef := reg1 "HUB_CMD" .cd 0x20000 64 [wo 39 0] 0x0
/-- HUB_RTO: spec chapter 12 R306. -/
def HUB_RTO : RegDef := reg1 "HUB_RTO" .cd 0x20008 32 [rw 31 0] 0x2710
/-- HUB_CMDBAD: spec chapter 12. -/
def HUB_CMDBAD : RegDef := reg1 "HUB_CMDBAD" .cd 0x20010 32 [rc 31 0] 0x0
/-- HUB_HPLOST: spec chapter 12. -/
def HUB_HPLOST : RegDef := reg1 "HUB_HPLOST" .cd 0x20014 32 [rc 31 0] 0x0
/-- HUB_RREF: spec chapter 12. -/
def HUB_RREF : RegDef := reg1 "HUB_RREF" .cd 0x20018 32 [rc 31 0] 0x0
/-- HUB_RLATE: spec chapter 12. -/
def HUB_RLATE : RegDef := reg1 "HUB_RLATE" .cd 0x2001c 32 [rc 31 0] 0x0
/-- HUB_RWFULL: spec chapter 12. -/
def HUB_RWFULL : RegDef := reg1 "HUB_RWFULL" .cd 0x20020 32 [rc 31 0] 0x0
/-- ADM_REQ: spec chapter 12 R311. -/
def ADM_REQ : RegDef := reg1 "ADM_REQ" .cd 0x10000 64 [wo 39 0] 0x0
/-- ADM_STAT: spec chapter 12 R311. -/
def ADM_STAT : RegDef := reg1 "ADM_STAT" .cd 0x10008 32 [ro 31 31, w1c 30 30, w1c 29 29, ro 19 16, ro 6 0] 0x0
/-- ADM_REL: spec chapter 12 R314. -/
def ADM_REL : RegDef := reg1 "ADM_REL" .cd 0x1000c 32 [wo 6 0] 0x0
/-- ADM_RATECAP: spec chapter 12 R312. -/
def ADM_RATECAP : RegDef := reg1 "ADM_RATECAP" .cd 0x10010 32 [rw 31 0] 0x10000
/-- ADM_GSRSV: spec chapter 12 R312. -/
def ADM_GSRSV : RegDef := reg1 "ADM_GSRSV" .cd 0x10014 32 [rw 31 0] 0x100000
/-- ADM_ATRLO: spec chapter 12. -/
def ADM_ATRLO : RegDef := reg1 "ADM_ATRLO" .cd 0x10020 64 [rw 39 12] 0x41000000
/-- ADM_ATRHI: spec chapter 12. -/
def ADM_ATRHI : RegDef := reg1 "ADM_ATRHI" .cd 0x10028 64 [rw 39 12, ro 11 0] 0x42ffffff
/-- ADM_STKLO: spec chapter 12. -/
def ADM_STKLO : RegDef := reg1 "ADM_STKLO" .cd 0x10030 64 [rw 39 12] 0x800000000
/-- ADM_STKHI: spec chapter 12. -/
def ADM_STKHI : RegDef := regF "ADM_STKHI" .cd 0x10038 1 0x0 1 0x0 64 [rw 39 12, ro 11 0] stkHiReset
/-- GAL_WORK: spec chapter 12 R313. -/
def GAL_WORK : RegDef := regN "GAL_WORK" .cd 0x10040 6 0x4 1 0x0 32 [ro 6 0] 0x0
/-- ADM_GRANTS: spec chapter 12. -/
def ADM_GRANTS : RegDef := reg1 "ADM_GRANTS" .cd 0x10060 32 [rc 31 0] 0x0
/-- ADM_REFUSALS: spec chapter 12. -/
def ADM_REFUSALS : RegDef := reg1 "ADM_REFUSALS" .cd 0x10064 32 [rc 31 0] 0x0
/-- ADM_RELEASES: spec chapter 12. -/
def ADM_RELEASES : RegDef := reg1 "ADM_RELEASES" .cd 0x10068 32 [rc 31 0] 0x0
/-- ADM_SHEDS: spec chapter 12. -/
def ADM_SHEDS : RegDef := reg1 "ADM_SHEDS" .cd 0x1006c 32 [rc 31 0] 0x0
/-- ADM_DROPS: spec chapter 12. -/
def ADM_DROPS : RegDef := reg1 "ADM_DROPS" .cd 0x10070 32 [rc 31 0] 0x0
/-- MSIP: spec chapter 13 R332. -/
def MSIP : RegDef := regN "MSIP" .host 0x0 4 0x4 1 0x0 32 [rw 0 0] 0x0
/-- MTIMECMP: spec chapter 13 R331. -/
def MTIMECMP : RegDef := regN "MTIMECMP" .host 0x4000 4 0x8 1 0x0 64 [rw 63 0] 0xffffffffffffffff
/-- MTIME: spec chapter 13 R331. -/
def MTIME : RegDef := reg1 "MTIME" .host 0xbff8 64 [rw 63 0] 0x0
/-- SETSSIP: spec chapter 13 R332. -/
def SETSSIP : RegDef := regN "SETSSIP" .host 0xc000 4 0x4 1 0x0 32 [wo 0 0] 0x0
/-- L2_STAT: spec chapter 13 R322. -/
def L2_STAT : RegDef := reg1 "L2_STAT" .host 0x10000 32 [ro 31 31, ro 7 4, ro 3 0] 0xfb
/-- L2_FLUSH: spec chapter 13 R322. -/
def L2_FLUSH : RegDef := reg1 "L2_FLUSH" .host 0x10004 32 [wo 0 0] 0x0
/-- HOST_PMA: spec chapter 13 R321. -/
def HOST_PMA : RegDef := reg1 "HOST_PMA" .host 0x10008 32 [rw 2 2, rw 1 1, rw 0 0] 0x3
/-- HOST_DRPEND: spec chapter 13 R329. -/
def HOST_DRPEND : RegDef := reg1 "HOST_DRPEND" .host 0x10010 64 [ro 63 0] 0x0
/-- HOST_DBELL: spec chapter 13 R333. -/
def HOST_DBELL : RegDef := reg1 "HOST_DBELL" .host 0x10020 32 [wo 15 0] 0x0
/-- HOST_DBSTAT: spec chapter 13 R333. -/
def HOST_DBSTAT : RegDef := reg1 "HOST_DBSTAT" .host 0x10024 32 [w1c 15 0] 0x0
/-- PLIC_PRI: spec chapter 13 R327. -/
def PLIC_PRI : RegDef := regN "PLIC_PRI" .plic 0x0 1024 0x4 1 0x0 32 [rw 2 0] 0x0
/-- PLIC_PEND: spec chapter 13 R327. -/
def PLIC_PEND : RegDef := regN "PLIC_PEND" .plic 0x1000 32 0x4 1 0x0 32 [ro 31 0] 0x0
/-- PLIC_EN: spec chapter 13 R327. -/
def PLIC_EN : RegDef := regN "PLIC_EN" .plic 0x2000 8 0x80 32 0x4 32 [rw 31 0] 0x0
/-- PLIC_THR: spec chapter 13 R327. -/
def PLIC_THR : RegDef := regN "PLIC_THR" .plic 0x200000 8 0x1000 1 0x0 32 [rw 2 0] 0x0
/-- PLIC_CLAIM: spec chapter 13 R328. -/
def PLIC_CLAIM : RegDef := regN "PLIC_CLAIM" .plic 0x200004 8 0x1000 1 0x0 32 [rw 31 0] 0x0
/-- RF_CTL: spec chapter 14 R360. -/
def RF_CTL : RegDef := reg1 "RF_CTL" .rad 0x0 32 [rw 31 31, rw 3 0] 0x0
/-- RF_STAT: spec chapter 14. -/
def RF_STAT : RegDef := reg1 "RF_STAT" .rad 0x4 32 [ro 31 31, w1c 30 30, w1c 29 29, w1c 23 20, ro 15 15, ro 14 12, ro 1 0] 0x0
/-- RF_SFOFS: spec chapter 14 R337. -/
def RF_SFOFS : RegDef := reg1 "RF_SFOFS" .rad 0x8 32 [rw 31 0] 0x0
/-- RF_SLOT: spec chapter 14 R337. -/
def RF_SLOT : RegDef := reg1 "RF_SLOT" .rad 0xc 32 [ro 11 0] 0x0
/-- RF_SFN: spec chapter 14 R337. -/
def RF_SFN : RegDef := reg1 "RF_SFN" .rad 0x10 32 [rw 31 0] 0x0
/-- RF_DET: spec chapter 14 R356. -/
def RF_DET : RegDef := reg1 "RF_DET" .rad 0x20 32 [rw 23 16, rw 15 0] 0x20fd80
/-- RF_QUAL: spec chapter 14 R358. -/
def RF_QUAL : RegDef := reg1 "RF_QUAL" .rad 0x24 32 [rw 15 8, rw 7 0] 0x509a
/-- RF_RSSI: spec chapter 14 R356. -/
def RF_RSSI : RegDef := regN "RF_RSSI" .rad 0x30 4 0x4 1 0x0 32 [ro 15 0] 0x8000
/-- RX_BASE: spec chapter 14 R360. -/
def RX_BASE : RegDef := reg1 "RX_BASE" .rad 0x40 64 [rw 39 0] 0x0
/-- RX_CFG: spec chapter 14 R360. -/
def RX_CFG : RegDef := reg1 "RX_CFG" .rad 0x48 32 [rw 2 0] 0x1
/-- RX_CELL: spec chapter 14 R361. -/
def RX_CELL : RegDef := reg1 "RX_CELL" .rad 0x4c 32 [rw 31 0] 0x0
/-- RX_PCELL: spec chapter 14 R361. -/
def RX_PCELL : RegDef := reg1 "RX_PCELL" .rad 0x50 32 [rw 31 0] 0x0
/-- RX_RELCELL: spec chapter 14 R360. -/
def RX_RELCELL : RegDef := reg1 "RX_RELCELL" .rad 0x54 32 [rw 31 0] 0x0
/-- RX_WSEQ: spec chapter 14 R361. -/
def RX_WSEQ : RegDef := reg1 "RX_WSEQ" .rad 0x58 32 [ro 31 0] 0x0
/-- TX_ADDR: spec chapter 14 R364. -/
def TX_ADDR : RegDef := regN "TX_ADDR" .rad 0x100 16 0x10 1 0x0 64 [rw 39 0] 0x0
/-- TX_CTL: spec chapter 14 R364. -/
def TX_CTL : RegDef := regN "TX_CTL" .rad 0x108 16 0x10 1 0x0 32 [rw 31 31, ro 30 30, rw 3 2, rw 1 0] 0x0
/-- RAMP: spec chapter 14 R367. -/
def RAMP : RegDef := regF "RAMP" .rad 0x200 16 0x4 1 0x0 32 [rw 9 0] rampReset
/-- PA_LEAD: spec chapter 14 R367. -/
def PA_LEAD : RegDef := reg1 "PA_LEAD" .rad 0x240 32 [rw 9 0] 0x28
/-- RF_IRQ: spec chapter 14. -/
def RF_IRQ : RegDef := reg1 "RF_IRQ" .rad 0x250 32 [w1c 31 0] 0x0
/-- RF_IEN: spec chapter 14. -/
def RF_IEN : RegDef := reg1 "RF_IEN" .rad 0x254 32 [rw 31 0] 0x0
/-- RF_TRIG: spec chapter 14. -/
def RF_TRIG : RegDef := reg1 "RF_TRIG" .rad 0x300 32 [rc 31 0] 0x0
/-- RF_QPASS: spec chapter 14. -/
def RF_QPASS : RegDef := reg1 "RF_QPASS" .rad 0x304 32 [rc 31 0] 0x0
/-- RF_QFAIL: spec chapter 14. -/
def RF_QFAIL : RegDef := reg1 "RF_QFAIL" .rad 0x308 32 [rc 31 0] 0x0
/-- RF_FMTERR: spec chapter 14. -/
def RF_FMTERR : RegDef := reg1 "RF_FMTERR" .rad 0x30c 32 [rc 31 0] 0x0
/-- RF_NOREC: spec chapter 14. -/
def RF_NOREC : RegDef := reg1 "RF_NOREC" .rad 0x310 32 [rc 31 0] 0x0
/-- RF_ABANDON: spec chapter 14. -/
def RF_ABANDON : RegDef := reg1 "RF_ABANDON" .rad 0x314 32 [rc 31 0] 0x0
/-- RF_RECS: spec chapter 14. -/
def RF_RECS : RegDef := reg1 "RF_RECS" .rad 0x318 32 [rc 31 0] 0x0
/-- RF_RXSAT: spec chapter 14. -/
def RF_RXSAT : RegDef := reg1 "RF_RXSAT" .rad 0x31c 32 [rc 31 0] 0x0
/-- RF_TXDONE: spec chapter 14. -/
def RF_TXDONE : RegDef := reg1 "RF_TXDONE" .rad 0x320 32 [rc 31 0] 0x0
/-- RF_TXERR: spec chapter 14. -/
def RF_TXERR : RegDef := reg1 "RF_TXERR" .rad 0x324 32 [rc 31 0] 0x0
/-- RF_TXSAT: spec chapter 14. -/
def RF_TXSAT : RegDef := reg1 "RF_TXSAT" .rad 0x328 32 [rc 31 0] 0x0
/-- RF_POSTLOST: spec chapter 14. -/
def RF_POSTLOST : RegDef := reg1 "RF_POSTLOST" .rad 0x32c 32 [rc 31 0] 0x0
/-- RF_WERR: spec chapter 14. -/
def RF_WERR : RegDef := reg1 "RF_WERR" .rad 0x330 32 [rc 31 0] 0x0
/-- RCV_CTL: spec chapter 15 R381. -/
def RCV_CTL : RegDef := reg1 "RCV_CTL" .rad 0x400 32 [rw 31 31, rw 30 30, rw 3 0] 0x1
/-- RCV_STAT: spec chapter 15 R381. -/
def RCV_STAT : RegDef := reg1 "RCV_STAT" .rad 0x404 32 [w1c 31 31, ro 6 0] 0x0
/-- RCV_RESBASE: spec chapter 15. -/
def RCV_RESBASE : RegDef := reg1 "RCV_RESBASE" .rad 0x408 64 [rw 39 0] 0x0
/-- RCV_DLVBASE: spec chapter 15. -/
def RCV_DLVBASE : RegDef := reg1 "RCV_DLVBASE" .rad 0x410 64 [rw 39 0] 0x0
/-- RCV_LCELL: spec chapter 15. -/
def RCV_LCELL : RegDef := reg1 "RCV_LCELL" .rad 0x418 32 [rw 31 0] 0x0
/-- RCV_NCELL: spec chapter 15. -/
def RCV_NCELL : RegDef := reg1 "RCV_NCELL" .rad 0x41c 32 [rw 31 0] 0x0
/-- RCV_DCELL: spec chapter 15. -/
def RCV_DCELL : RegDef := reg1 "RCV_DCELL" .rad 0x420 32 [rw 31 0] 0x0
/-- RCV_DRELCELL: spec chapter 15. -/
def RCV_DRELCELL : RegDef := reg1 "RCV_DRELCELL" .rad 0x424 32 [rw 31 0] 0x0
/-- RCV_RING: spec chapter 15. -/
def RCV_RING : RegDef := reg1 "RCV_RING" .rad 0x428 32 [rw 31 31, rw 9 0] 0x0
/-- RCV_DSEQ: spec chapter 15. -/
def RCV_DSEQ : RegDef := reg1 "RCV_DSEQ" .rad 0x42c 32 [ro 31 0] 0x0
/-- RCV_LEARNED: spec chapter 15. -/
def RCV_LEARNED : RegDef := reg1 "RCV_LEARNED" .rad 0x440 32 [rc 31 0] 0x0
/-- RCV_FALLBACK: spec chapter 15. -/
def RCV_FALLBACK : RegDef := reg1 "RCV_FALLBACK" .rad 0x444 32 [rc 31 0] 0x0
/-- RCV_LWORSE: spec chapter 15. -/
def RCV_LWORSE : RegDef := reg1 "RCV_LWORSE" .rad 0x448 32 [rc 31 0] 0x0
/-- RCV_MISSING: spec chapter 15. -/
def RCV_MISSING : RegDef := reg1 "RCV_MISSING" .rad 0x44c 32 [rc 31 0] 0x0
/-- RCV_NOBUF: spec chapter 15. -/
def RCV_NOBUF : RegDef := reg1 "RCV_NOBUF" .rad 0x450 32 [rc 31 0] 0x0
/-- RCV_MARKLATE: spec chapter 15. -/
def RCV_MARKLATE : RegDef := reg1 "RCV_MARKLATE" .rad 0x454 32 [rc 31 0] 0x0
/-- RCV_POSTLOST: spec chapter 15. -/
def RCV_POSTLOST : RegDef := reg1 "RCV_POSTLOST" .rad 0x458 32 [rc 31 0] 0x0
/-- RCV_DROPPED: spec chapter 15. -/
def RCV_DROPPED : RegDef := reg1 "RCV_DROPPED" .rad 0x45c 32 [rc 31 0] 0x0
/-- MTR_CTL: spec chapter 16 R406. -/
def MTR_CTL : RegDef := reg1 "MTR_CTL" .mtr 0x0 32 [rw 31 31, rw 1 0] 0x0
/-- MTR_STAT: spec chapter 16. -/
def MTR_STAT : RegDef := reg1 "MTR_STAT" .mtr 0x4 32 [ro 31 31, ro 30 30, ro 29 28, ro 27 27, w1c 26 26] 0x0
/-- MTR_IRQ: spec chapter 16. -/
def MTR_IRQ : RegDef := reg1 "MTR_IRQ" .mtr 0x8 32 [w1c 7 0] 0x0
/-- MTR_IEN: spec chapter 16. -/
def MTR_IEN : RegDef := reg1 "MTR_IEN" .mtr 0xc 32 [rw 7 0] 0x0
/-- MTR_MINT: spec chapter 16 R406. -/
def MTR_MINT : RegDef := reg1 "MTR_MINT" .mtr 0x10 32 [rw 15 0] 0x3e8
/-- HEAT_CFG: spec chapter 16 R407. -/
def HEAT_CFG : RegDef := reg1 "HEAT_CFG" .mtr 0x20 32 [rw 9 8, rw 5 4, rw 3 2, rw 0 0] 0x4
/-- HEAT_DTMIN: spec chapter 16 R407. -/
def HEAT_DTMIN : RegDef := reg1 "HEAT_DTMIN" .mtr 0x24 32 [rw 15 0] 0x0
/-- GAS_CFG: spec chapter 16 R408. -/
def GAS_CFG : RegDef := reg1 "GAS_CFG" .mtr 0x30 32 [rw 9 8, rw 1 0] 0x0
/-- GAS_PB: spec chapter 16 R408. -/
def GAS_PB : RegDef := reg1 "GAS_PB" .mtr 0x34 32 [rw 31 0] 0x18bcd
/-- GAS_TB: spec chapter 16 R408. -/
def GAS_TB : RegDef := reg1 "GAS_TB" .mtr 0x38 32 [rw 31 0] 0x46596
/-- GAS_Z: spec chapter 16 R408. -/
def GAS_Z : RegDef := reg1 "GAS_Z" .mtr 0x3c 32 [rw 31 0] 0x3f800000
/-- PRESS: spec chapter 16 R408. -/
def PRESS : RegDef := reg1 "PRESS" .mtr 0x40 32 [rw 31 0] 0x0
/-- PMAXAGE: spec chapter 16 R408. -/
def PMAXAGE : RegDef := reg1 "PMAXAGE" .mtr 0x44 32 [rw 31 0] 0x2710
/-- PATH_DRV: spec chapter 16 R394. -/
def PATH_DRV : RegDef := regN "PATH_DRV" .mtr 0x100 2 0x80 1 0x0 32 [rw 20 16, rw 9 0] 0x30133
/-- PATH_CAP: spec chapter 16 R395. -/
def PATH_CAP : RegDef := regN "PATH_CAP" .mtr 0x104 2 0x80 1 0x0 32 [rw 31 16, rw 15 12, rw 11 11, rw 10 0] 0x1100
/-- PATH_HIT: spec chapter 16 R396. -/
def PATH_HIT : RegDef := regN "PATH_HIT" .mtr 0x108 2 0x80 1 0x0 32 [rw 6 4, rw 1 0] 0x2
/-- PATH_HITREF: spec chapter 16 R396. -/
def PATH_HITREF : RegDef := regN "PATH_HITREF" .mtr 0x10c 2 0x80 1 0x0 32 [rw 31 0] 0x0
/-- PATH_L: spec chapter 16 R400. -/
def PATH_L : RegDef := regN "PATH_L" .mtr 0x110 2 0x80 1 0x0 32 [rw 31 0] 0x0
/-- PATH_X: spec chapter 16 R400. -/
def PATH_X : RegDef := regN "PATH_X" .mtr 0x114 2 0x80 1 0x0 32 [rw 31 0] 0x0
/-- PATH_AREA: spec chapter 16 R402. -/
def PATH_AREA : RegDef := regN "PATH_AREA" .mtr 0x118 2 0x80 1 0x0 32 [rw 31 0] 0x0
/-- PATH_W: spec chapter 16 R402. -/
def PATH_W : RegDef := regN "PATH_W" .mtr 0x11c 2 0x80 1 0x0 32 [rw 31 0] 0x3f800000
/-- PATH_OPT: spec chapter 16 R401. -/
def PATH_OPT : RegDef := regN "PATH_OPT" .mtr 0x120 2 0x80 1 0x0 32 [rw 17 16, rw 15 0] 0x0
/-- PATH_SETTLE: spec chapter 16 R393. -/
def PATH_SETTLE : RegDef := regN "PATH_SETTLE" .mtr 0x124 2 0x80 1 0x0 32 [rw 15 0] 0x1f4
/-- PATH_PICK: spec chapter 16 R399. -/
def PATH_PICK : RegDef := regN "PATH_PICK" .mtr 0x128 2 0x80 1 0x0 32 [rw 31 16, rw 15 0] 0x100
/-- PATH_GAPMAX: spec chapter 16 R403. -/
def PATH_GAPMAX : RegDef := regN "PATH_GAPMAX" .mtr 0x12c 2 0x80 1 0x0 32 [rw 31 0] 0x2710
/-- LAST_SEQ: spec chapter 16. -/
def LAST_SEQ : RegDef := regN "LAST_SEQ" .mtr 0x200 2 0x40 1 0x0 32 [rs 31 0] 0x0
/-- LAST_FLAGS: spec chapter 16. -/
def LAST_FLAGS : RegDef := regN "LAST_FLAGS" .mtr 0x204 2 0x40 1 0x0 32 [ro 18 16, ro 15 0] 0x0
/-- LAST_TDN: spec chapter 16. -/
def LAST_TDN : RegDef := regN "LAST_TDN" .mtr 0x208 2 0x40 1 0x0 32 [ro 31 0] 0x0
/-- LAST_TUP: spec chapter 16. -/
def LAST_TUP : RegDef := regN "LAST_TUP" .mtr 0x20c 2 0x40 1 0x0 32 [ro 31 0] 0x0
/-- LAST_V: spec chapter 16. -/
def LAST_V : RegDef := regN "LAST_V" .mtr 0x210 2 0x40 1 0x0 32 [ro 31 0] 0x0
/-- LAST_Q: spec chapter 16. -/
def LAST_Q : RegDef := regN "LAST_Q" .mtr 0x214 2 0x40 1 0x0 32 [ro 31 0] 0x0
/-- LAST_TIME: spec chapter 16. -/
def LAST_TIME : RegDef := regN "LAST_TIME" .mtr 0x218 2 0x40 1 0x0 64 [ro 63 0] 0x0
/-- LAST_TEMP: spec chapter 16. -/
def LAST_TEMP : RegDef := regN "LAST_TEMP" .mtr 0x220 2 0x40 1 0x0 32 [ro 31 0] 0x0
/-- KV: spec chapter 16 R401. -/
def KV : RegDef := regF "KV" .mtr 0x300 2 0x80 16 0x8 32 [rw 31 0] kvReset
/-- KF: spec chapter 16 R401. -/
def KF : RegDef := regN "KF" .mtr 0x304 2 0x80 16 0x8 32 [rw 31 0] 0x3f800000
/-- RTD_CFG: spec chapter 16 R404. -/
def RTD_CFG : RegDef := regN "RTD_CFG" .mtr 0x400 4 0x10 1 0x0 32 [rw 31 31, rw 1 0] 0x2
/-- RTD_RES: spec chapter 16 R404. -/
def RTD_RES : RegDef := regN "RTD_RES" .mtr 0x404 4 0x10 1 0x0 32 [ro 31 0] 0x0
/-- RTD_TEMP: spec chapter 16 R404. -/
def RTD_TEMP : RegDef := regN "RTD_TEMP" .mtr 0x408 4 0x10 1 0x0 32 [ro 31 0] 0x4e20
/-- RTD_STAT: spec chapter 16 R404. -/
def RTD_STAT : RegDef := regN "RTD_STAT" .mtr 0x40c 4 0x10 1 0x0 32 [ro 5 0] 0x0
/-- RTD_ROUND: spec chapter 16 R406. -/
def RTD_ROUND : RegDef := reg1 "RTD_ROUND" .mtr 0x440 32 [ro 31 0] 0x0
/-- WTAB_D: spec chapter 16 R407. -/
def WTAB_D : RegDef := regF "WTAB_D" .mtr 0x500 17 0x8 1 0x0 32 [rw 31 0] wtabDReset
/-- WTAB_H: spec chapter 16 R407. -/
def WTAB_H : RegDef := regF "WTAB_H" .mtr 0x504 17 0x8 1 0x0 32 [rw 31 0] wtabHReset
/-- ACC_CFG: spec chapter 16 R409-R411. -/
def ACC_CFG : RegDef := regN "ACC_CFG" .mtr 0x600 16 0x20 1 0x0 32 [rw 31 31, rw 8 8, rw 3 0] 0x0
/-- ACC_STAT: spec chapter 16 R410, R411 (ACC_CLR is the write side). -/
def ACC_STAT : RegDef := regN "ACC_STAT" .mtr 0x604 16 0x20 1 0x0 32 [w1c 31 31, wo 0 0] 0x0
/-- ACC_TOT: spec chapter 16 R410. -/
def ACC_TOT : RegDef := regN "ACC_TOT" .mtr 0x608 16 0x20 1 0x0 64 [ro 63 0] 0x0
/-- ACC_RR: spec chapter 16 R410. -/
def ACC_RR : RegDef := regN "ACC_RR" .mtr 0x610 16 0x20 1 0x0 64 [rc 63 0] 0x0
/-- ACC_SNAPT: spec chapter 16 R410. -/
def ACC_SNAPT : RegDef := reg1 "ACC_SNAPT" .mtr 0x800 64 [rs 63 0] 0x0
/-- PO_CFG: spec chapter 16 R412. -/
def PO_CFG : RegDef := regN "PO_CFG" .mtr 0x900 4 0x10 1 0x0 32 [rw 31 31, rw 30 30, rw 17 16, rw 11 8, rw 3 0] 0x800
/-- PO_WEIGHT: spec chapter 16 R412. -/
def PO_WEIGHT : RegDef := regN "PO_WEIGHT" .mtr 0x904 4 0x10 1 0x0 32 [rw 31 0] 0x0
/-- PO_TIME: spec chapter 16 R413. -/
def PO_TIME : RegDef := regN "PO_TIME" .mtr 0x908 4 0x10 1 0x0 32 [rw 31 16, rw 15 0] 0x27101388
/-- PO_STAT: spec chapter 16 R413. -/
def PO_STAT : RegDef := regN "PO_STAT" .mtr 0x90c 4 0x10 1 0x0 32 [w1c 31 31, ro 23 0] 0x0
/-- PO_LOST: spec chapter 16 R413. -/
def PO_LOST : RegDef := regN "PO_LOST" .mtr 0x980 4 0x4 1 0x0 32 [rc 31 0] 0x0
/-- SP_CFG: spec chapter 16 R414. -/
def SP_CFG : RegDef := regN "SP_CFG" .mtr 0xa00 6 0x10 1 0x0 32 [rw 31 31, rw 8 8, rw 1 0] 0x0
/-- SP_UNIT: spec chapter 16 R414. -/
def SP_UNIT : RegDef := regN "SP_UNIT" .mtr 0xa04 6 0x10 1 0x0 32 [rw 31 0] 0x0
/-- SP_VAL: spec chapter 16 R416. -/
def SP_VAL : RegDef := regN "SP_VAL" .mtr 0xa08 6 0x10 1 0x0 32 [ro 31 0] 0x0
/-- SP_STAT: spec chapter 16 R415. -/
def SP_STAT : RegDef := regN "SP_STAT" .mtr 0xa0c 6 0x10 1 0x0 32 [ro 31 31, ro 30 30, ro 29 29, ro 1 0] 0x0
/-- MTR_SHOTS: spec chapter 16. -/
def MTR_SHOTS : RegDef := regN "MTR_SHOTS" .mtr 0xb00 2 0x40 1 0x0 32 [rc 31 0] 0x0
/-- MTR_VALID: spec chapter 16. -/
def MTR_VALID : RegDef := regN "MTR_VALID" .mtr 0xb04 2 0x40 1 0x0 32 [rc 31 0] 0x0
/-- MTR_UNDER: spec chapter 16. -/
def MTR_UNDER : RegDef := regN "MTR_UNDER" .mtr 0xb08 2 0x40 1 0x0 32 [rc 31 0] 0x0
/-- MTR_ORDER: spec chapter 16. -/
def MTR_ORDER : RegDef := regN "MTR_ORDER" .mtr 0xb0c 2 0x40 1 0x0 32 [rc 31 0] 0x0
/-- MTR_NOECHO: spec chapter 16. -/
def MTR_NOECHO : RegDef := regN "MTR_NOECHO" .mtr 0xb10 2 0x40 1 0x0 32 [rc 31 0] 0x0
/-- MTR_NONPOS: spec chapter 16. -/
def MTR_NONPOS : RegDef := regN "MTR_NONPOS" .mtr 0xb14 2 0x40 1 0x0 32 [rc 31 0] 0x0
/-- MTR_BUSY: spec chapter 16. -/
def MTR_BUSY : RegDef := regN "MTR_BUSY" .mtr 0xb18 2 0x40 1 0x0 32 [rc 31 0] 0x0
/-- MTR_NOTREADY: spec chapter 16. -/
def MTR_NOTREADY : RegDef := regN "MTR_NOTREADY" .mtr 0xb1c 2 0x40 1 0x0 32 [rc 31 0] 0x0
/-- MTR_PICKOK: spec chapter 16. -/
def MTR_PICKOK : RegDef := regN "MTR_PICKOK" .mtr 0xb20 2 0x40 1 0x0 32 [rc 31 0] 0x0
/-- MTR_PICKLATE: spec chapter 16. -/
def MTR_PICKLATE : RegDef := regN "MTR_PICKLATE" .mtr 0xb24 2 0x40 1 0x0 32 [rc 31 0] 0x0
/-- MTR_PICKREJ: spec chapter 16. -/
def MTR_PICKREJ : RegDef := regN "MTR_PICKREJ" .mtr 0xb28 2 0x40 1 0x0 32 [rc 31 0] 0x0
/-- MTR_RTDINV: spec chapter 16. -/
def MTR_RTDINV : RegDef := reg1 "MTR_RTDINV" .mtr 0xb80 32 [rc 31 0] 0x0
/-- MTR_POSTLOST: spec chapter 16. -/
def MTR_POSTLOST : RegDef := reg1 "MTR_POSTLOST" .mtr 0xb84 32 [rc 31 0] 0x0
/-- MTR_SPHELD: spec chapter 16. -/
def MTR_SPHELD : RegDef := reg1 "MTR_SPHELD" .mtr 0xb88 32 [rc 31 0] 0x0
/-- MTR_SPCLIP: spec chapter 16. -/
def MTR_SPCLIP : RegDef := reg1 "MTR_SPCLIP" .mtr 0xb8c 32 [rc 31 0] 0x0
/-- CAP_DN: spec chapter 16 R395 (CAP[p][0][w]). -/
def CAP_DN : RegDef := regN "CAP_DN" .mtr 0x1000 2 0x1000 512 0x4 32 [ro 31 0] 0x0
/-- CAP_UP: spec chapter 16 R395 (CAP[p][1][w]). -/
def CAP_UP : RegDef := regN "CAP_UP" .mtr 0x1800 2 0x1000 512 0x4 32 [ro 31 0] 0x0
/-- PICK_DN: spec chapter 16 R399. -/
def PICK_DN : RegDef := regN "PICK_DN" .mtr 0x3000 2 0x10 1 0x0 32 [rw 31 0] 0x0
/-- PICK_UP: spec chapter 16 R399. -/
def PICK_UP : RegDef := regN "PICK_UP" .mtr 0x3004 2 0x10 1 0x0 32 [rw 31 0] 0x0
/-- PICK_CMT: spec chapter 16 R399. -/
def PICK_CMT : RegDef := regN "PICK_CMT" .mtr 0x3008 2 0x10 1 0x0 32 [wo 31 0] 0x0
/-- AC_CTL: spec chapter 17. -/
def AC_CTL : RegDef := reg1 "AC_CTL" .aco 0x0 32 [rw 31 31] 0x0
/-- AC_STAT: spec chapter 17. -/
def AC_STAT : RegDef := reg1 "AC_STAT" .aco 0x4 32 [w1c 31 31, w1c 30 30] 0x0
/-- AC_IRQ: spec chapter 17. -/
def AC_IRQ : RegDef := reg1 "AC_IRQ" .aco 0x8 32 [w1c 5 0] 0x0
/-- AC_IEN: spec chapter 17. -/
def AC_IEN : RegDef := reg1 "AC_IEN" .aco 0xc 32 [rw 5 0] 0x0
/-- SD_CFG: spec chapter 17 R427. -/
def SD_CFG : RegDef := regN "SD_CFG" .aco 0x100 8 0x10 1 0x0 32 [rw 31 31, rw 14 12, rw 10 8, rw 7 4, rw 2 0] 0x780
/-- SD_STAT: spec chapter 17 R427. -/
def SD_STAT : RegDef := regN "SD_STAT" .aco 0x104 8 0x10 1 0x0 32 [ro 10 8, ro 2 0] 0x0
/-- TDM_CFG: spec chapter 17 R425. -/
def TDM_CFG : RegDef := regN "TDM_CFG" .aco 0x200 2 0x20 1 0x0 32 [rw 31 31, rw 8 8, rw 7 7, rw 6 6, rw 5 4, rw 1 0] 0xe3
/-- GRP_CFG: spec chapter 17 R431. -/
def GRP_CFG : RegDef := regN "GRP_CFG" .aco 0x300 4 0x40 1 0x0 32 [rw 31 31, rw 29 28, rw 27 24, rw 8 0] 0x3200001e
/-- GRP_SDMASK: spec chapter 17. -/
def GRP_SDMASK : RegDef := regN "GRP_SDMASK" .aco 0x304 4 0x40 1 0x0 32 [rw 7 0] 0x0
/-- GRP_TDM: spec chapter 17. -/
def GRP_TDM : RegDef := regN "GRP_TDM" .aco 0x308 4 0x40 1 0x0 32 [rw 31 16, rw 15 0] 0x0
/-- GRP_BASE: spec chapter 17. -/
def GRP_BASE : RegDef := regN "GRP_BASE" .aco 0x310 4 0x40 1 0x0 64 [rw 39 6] 0x0
/-- GRP_RELCELL: spec chapter 17. -/
def GRP_RELCELL : RegDef := regN "GRP_RELCELL" .aco 0x318 4 0x40 1 0x0 32 [rw 31 0] 0x0
/-- GRP_WSEQ: spec chapter 17. -/
def GRP_WSEQ : RegDef := regN "GRP_WSEQ" .aco 0x31c 4 0x40 1 0x0 32 [ro 31 0] 0x0
/-- AC_FRAMES: spec chapter 17. -/
def AC_FRAMES : RegDef := regN "AC_FRAMES" .aco 0x400 4 0x8 1 0x0 32 [rc 31 0] 0x0
/-- AC_DROPS: spec chapter 17. -/
def AC_DROPS : RegDef := regN "AC_DROPS" .aco 0x404 4 0x8 1 0x0 32 [rc 31 0] 0x0
/-- AC_HELD: spec chapter 17. -/
def AC_HELD : RegDef := reg1 "AC_HELD" .aco 0x440 32 [rc 31 0] 0x0
/-- AC_CLIPMIN: spec chapter 17. -/
def AC_CLIPMIN : RegDef := reg1 "AC_CLIPMIN" .aco 0x444 32 [rc 31 0] 0x0
/-- AC_WERR: spec chapter 17. -/
def AC_WERR : RegDef := reg1 "AC_WERR" .aco 0x448 32 [rc 31 0] 0x0
/-- AC_POSTLOST: spec chapter 17. -/
def AC_POSTLOST : RegDef := reg1 "AC_POSTLOST" .aco 0x44c 32 [rc 31 0] 0x0
/-- MER_CTL: spec chapter 18 R439. -/
def MER_CTL : RegDef := reg1 "MER_CTL" .io 0x20000 32 [rw 31 31, wo 30 30] 0x0
/-- MER_STAT: spec chapter 18 R436-R441. -/
def MER_STAT : RegDef := reg1 "MER_STAT" .io 0x20004 32 [w1c 31 31, ro 30 30, w1c 29 29, w1c 28 28, w1c 27 27, w1c 3 0] 0x80000000
/-- MER_IEN: spec chapter 18. -/
def MER_IEN : RegDef := reg1 "MER_IEN" .io 0x20008 32 [rw 31 31, rw 3 0] 0x0
/-- MER_SEC: spec chapter 18 R437, R439. -/
def MER_SEC : RegDef := reg1 "MER_SEC" .io 0x20010 64 [rs 39 0] 0x0
/-- MER_SUB: spec chapter 18 R437. -/
def MER_SUB : RegDef := reg1 "MER_SUB" .io 0x20018 32 [ro 14 0] 0x0
/-- MER_HOLD: spec chapter 18 R439. -/
def MER_HOLD : RegDef := reg1 "MER_HOLD" .io 0x2001c 32 [ro 31 0] 0x0
/-- MER_CAL0: spec chapter 18 R440. -/
def MER_CAL0 : RegDef := reg1 "MER_CAL0" .io 0x20020 32 [ro 31 20, ro 19 16, ro 15 11, ro 10 8, ro 7 7] 0x0
/-- MER_CAL1: spec chapter 18 R440. -/
def MER_CAL1 : RegDef := reg1 "MER_CAL1" .io 0x20024 32 [ro 20 16, ro 13 8, ro 5 0] 0x0
/-- ALM_SEC: spec chapter 18 R441. -/
def ALM_SEC : RegDef := regN "ALM_SEC" .io 0x20040 4 0x10 1 0x0 64 [rw 39 0] 0x0
/-- ALM_CTL: spec chapter 18 R441. -/
def ALM_CTL : RegDef := regN "ALM_CTL" .io 0x20048 4 0x10 1 0x0 32 [rw 31 31, rw 30 30, rw 14 0] 0x0
/-- ALM_PER: spec chapter 18 R441. -/
def ALM_PER : RegDef := regN "ALM_PER" .io 0x2004c 4 0x10 1 0x0 32 [rw 31 0] 0x0
/-- TS_NS: spec chapter 18 R442. -/
def TS_NS : RegDef := reg1 "TS_NS" .io 0x20100 64 [rs 63 0] 0x0
/-- TS_INFO: spec chapter 18 R448. -/
def TS_INFO : RegDef := reg1 "TS_INFO" .io 0x20108 32 [ro 31 31, ro 30 30, ro 29 29, ro 15 0] 0x0
/-- TS_TICK: spec chapter 18 R443. -/
def TS_TICK : RegDef := reg1 "TS_TICK" .io 0x20110 64 [ro 63 0] 0x0
/-- TS_CTL: spec chapter 18 R445. -/
def TS_CTL : RegDef := reg1 "TS_CTL" .io0 0x20120 32 [rw 20 16, rw 8 8, rw 1 0] 0xe0000
/-- TS_FADJ: spec chapter 18 R444. -/
def TS_FADJ : RegDef := reg1 "TS_FADJ" .io0 0x20124 32 [rw 31 0] 0x0
/-- TS_STEP: spec chapter 18 R444. -/
def TS_STEP : RegDef := reg1 "TS_STEP" .io0 0x20128 64 [wo 63 0] 0x0
/-- TS_SLEW: spec chapter 18 R444. -/
def TS_SLEW : RegDef := reg1 "TS_SLEW" .io0 0x20130 32 [rw 31 0] 0x0
/-- TS_STAT: spec chapter 18 R444-R447. -/
def TS_STAT : RegDef := reg1 "TS_STAT" .io 0x20134 32 [ro 31 31, w1c 30 30, w1c 29 29, ro 28 28, ro 27 27, w1c 26 26] 0x0
/-- PPS_CAP: spec chapter 18 R446. -/
def PPS_CAP : RegDef := reg1 "PPS_CAP" .io0 0x20140 64 [rs 63 0] 0x0
/-- PPS_INFO: spec chapter 18 R446. -/
def PPS_INFO : RegDef := reg1 "PPS_INFO" .io0 0x20148 32 [ro 31 0] 0x0
/-- PPS_SEQ: spec chapter 18 R446. -/
def PPS_SEQ : RegDef := reg1 "PPS_SEQ" .io0 0x2014c 32 [ro 31 0] 0x0
/-- PPS_CFG: spec chapter 18 R446. -/
def PPS_CFG : RegDef := reg1 "PPS_CFG" .io0 0x20150 32 [rw 15 0] 0x3e8
/-- PPS_IGN: spec chapter 18 R446. -/
def PPS_IGN : RegDef := reg1 "PPS_IGN" .io0 0x20154 32 [rc 31 0] 0x0
/-- TT_IRQ: spec chapter 18. -/
def TT_IRQ : RegDef := reg1 "TT_IRQ" .io 0x30000 32 [w1c 4 0] 0x0
/-- TT_IEN: spec chapter 18. -/
def TT_IEN : RegDef := reg1 "TT_IEN" .io 0x30004 32 [rw 4 0] 0x0
/-- TT_MARKST: spec chapter 18. -/
def TT_MARKST : RegDef := reg1 "TT_MARKST" .io 0x30008 32 [w1c 5 0] 0x0
/-- TT_PINS: spec chapter 18. -/
def TT_PINS : RegDef := reg1 "TT_PINS" .io 0x3000c 32 [ro 3 0] 0x0
/-- TT_FIRES: spec chapter 18. -/
def TT_FIRES : RegDef := reg1 "TT_FIRES" .io 0x30040 32 [rc 31 0] 0x0
/-- TT_LATES: spec chapter 18. -/
def TT_LATES : RegDef := reg1 "TT_LATES" .io 0x30044 32 [rc 31 0] 0x0
/-- TT_DISCARDS: spec chapter 18. -/
def TT_DISCARDS : RegDef := reg1 "TT_DISCARDS" .io 0x30048 32 [rc 31 0] 0x0
/-- TT_SKIPS: spec chapter 18. -/
def TT_SKIPS : RegDef := reg1 "TT_SKIPS" .io 0x3004c 32 [rc 31 0] 0x0
/-- TT_TGTOFF: spec chapter 18. -/
def TT_TGTOFF : RegDef := reg1 "TT_TGTOFF" .io 0x30050 32 [rc 31 0] 0x0
/-- TT_POSTLOST: spec chapter 18. -/
def TT_POSTLOST : RegDef := reg1 "TT_POSTLOST" .io 0x30054 32 [rc 31 0] 0x0
/-- TT_TIME: spec chapter 18 R449. -/
def TT_TIME : RegDef := regN "TT_TIME" .io 0x31000 256 0x20 1 0x0 64 [rw 63 0] 0x0
/-- TT_ACT: spec chapter 18 R451. -/
def TT_ACT : RegDef := regN "TT_ACT" .io 0x31008 256 0x20 1 0x0 32 [rw 31 0] 0x0
/-- TT_ARG: spec chapter 18 R451. -/
def TT_ARG : RegDef := regN "TT_ARG" .io 0x3100c 256 0x20 1 0x0 32 [rw 31 0] 0x0
/-- TT_PER: spec chapter 18. -/
def TT_PER : RegDef := regN "TT_PER" .io 0x31010 256 0x20 1 0x0 32 [rw 31 0] 0x0
/-- TT_CTL: spec chapter 18 R449, R455. -/
def TT_CTL : RegDef := regN "TT_CTL" .io 0x31014 256 0x20 1 0x0 32 [wo 31 31, wo 30 30, ro 29 29, rw 28 28, rw 27 27, rw 26 26] 0x0
/-- TT_STAT: spec chapter 18. -/
def TT_STAT : RegDef := regN "TT_STAT" .io 0x31018 256 0x20 1 0x0 32 [w1c 31 31, w1c 30 30, w1c 29 29, ro 27 24, ro 23 20, ro 15 0] 0x0
/-- TT_LATEBY: spec chapter 18. -/
def TT_LATEBY : RegDef := regN "TT_LATEBY" .io 0x3101c 256 0x20 1 0x0 32 [ro 31 0] 0x0
/-- TRK_CTL: spec chapter 19. -/
def TRK_CTL : RegDef := reg1 "TRK_CTL" .trk 0x0 32 [rw 31 31, rw 30 30, rw 5 4, rw 1 0] 0x30
/-- TRK_STAT: spec chapter 19. -/
def TRK_STAT : RegDef := reg1 "TRK_STAT" .trk 0x4 32 [ro 31 30, ro 29 28, ro 27 26, ro 25 24, ro 23 22, w1c 21 21, ro 20 20, ro 10 0] 0x0
/-- TRK_STN: spec chapter 19 R472. -/
def TRK_STN : RegDef := reg1 "TRK_STN" .trk 0x8 32 [ro 31 31, rw 29 28, rw 9 0] 0x0
/-- TRK_UID: spec chapter 19. -/
def TRK_UID : RegDef := reg1 "TRK_UID" .trk 0x10 64 [ro 63 0] 0x0
/-- TRK_CMD: spec chapter 19 R473. -/
def TRK_CMD : RegDef := reg1 "TRK_CMD" .trk 0x18 32 [wo 31 31, wo 1 0] 0x0
/-- TRK_TOPOPER: spec chapter 19. -/
def TRK_TOPOPER : RegDef := reg1 "TRK_TOPOPER" .trk 0x1c 32 [rw 7 0] 0xa
/-- TRK_TCFG: spec chapter 19. -/
def TRK_TCFG : RegDef := reg1 "TRK_TCFG" .trk 0x20 32 [rw 31 24, rw 23 20, rw 19 16, rw 15 0] 0xff820064
/-- TRK_STEPTHR: spec chapter 19. -/
def TRK_STEPTHR : RegDef := reg1 "TRK_STEPTHR" .trk 0x24 32 [rw 31 0] 0x3e8
/-- TRK_TSTAT: spec chapter 19. -/
def TRK_TSTAT : RegDef := reg1 "TRK_TSTAT" .trk 0x28 32 [ro 31 31, ro 30 30, ro 29 29, ro 28 28, ro 25 16, ro 9 0] 0x0
/-- TRK_IRQ: spec chapter 19. -/
def TRK_IRQ : RegDef := reg1 "TRK_IRQ" .trk 0x30 32 [w1c 8 0] 0x0
/-- TRK_IEN: spec chapter 19. -/
def TRK_IEN : RegDef := reg1 "TRK_IEN" .trk 0x34 32 [rw 8 0] 0x0
/-- TRK_RXBASE: spec chapter 19. -/
def TRK_RXBASE : RegDef := reg1 "TRK_RXBASE" .trk 0x40 64 [rw 39 11] 0x0
/-- TRK_RXCFG: spec chapter 19. -/
def TRK_RXCFG : RegDef := reg1 "TRK_RXCFG" .trk 0x48 32 [rw 3 0] 0x1
/-- TRK_RXREL: spec chapter 19. -/
def TRK_RXREL : RegDef := reg1 "TRK_RXREL" .trk 0x4c 32 [rw 31 0] 0x0
/-- LNK_ASYM: spec chapter 19. -/
def LNK_ASYM : RegDef := regN "LNK_ASYM" .trk 0x100 2 0x40 1 0x0 32 [rw 31 0] 0x0
/-- LNK_SEQ: spec chapter 19. -/
def LNK_SEQ : RegDef := regN "LNK_SEQ" .trk 0x104 2 0x40 1 0x0 32 [rs 31 0] 0x0
/-- LNK_OFS: spec chapter 19. -/
def LNK_OFS : RegDef := regN "LNK_OFS" .trk 0x108 2 0x40 1 0x0 32 [ro 31 0] 0x0
/-- LNK_DLY: spec chapter 19. -/
def LNK_DLY : RegDef := regN "LNK_DLY" .trk 0x10c 2 0x40 1 0x0 32 [ro 31 0] 0x0
/-- LNK_NBR: spec chapter 19. -/
def LNK_NBR : RegDef := regN "LNK_NBR" .trk 0x110 2 0x40 1 0x0 32 [ro 31 31, ro 9 0] 0x0
/-- LNK_NBRUID: spec chapter 19. -/
def LNK_NBRUID : RegDef := regN "LNK_NBRUID" .trk 0x118 2 0x40 1 0x0 64 [ro 63 0] 0x0
/-- LNK_ACAL: spec chapter 19. -/
def LNK_ACAL : RegDef := regN "LNK_ACAL" .trk 0x120 2 0x40 1 0x0 32 [ro 31 31, w1c 30 30, rw 7 0] 0x40
/-- RXFRM: spec chapter 19. -/
def RXFRM : RegDef := regN "RXFRM" .trk 0x200 2 0x40 1 0x0 32 [rc 31 0] 0x0
/-- TXFRM: spec chapter 19. -/
def TXFRM : RegDef := regN "TXFRM" .trk 0x204 2 0x40 1 0x0 32 [rc 31 0] 0x0
/-- HCSERR: spec chapter 19. -/
def HCSERR : RegDef := regN "HCSERR" .trk 0x208 2 0x40 1 0x0 32 [rc 31 0] 0x0
/-- CRCERR: spec chapter 19. -/
def CRCERR : RegDef := regN "CRCERR" .trk 0x20c 2 0x40 1 0x0 32 [rc 31 0] 0x0
/-- STOMP: spec chapter 19. -/
def STOMP : RegDef := regN "STOMP" .trk 0x210 2 0x40 1 0x0 32 [rc 31 0] 0x0
/-- TTLDROP: spec chapter 19. -/
def TTLDROP : RegDef := regN "TTLDROP" .trk 0x214 2 0x40 1 0x0 32 [rc 31 0] 0x0
/-- WRAPS: spec chapter 19. -/
def WRAPS : RegDef := regN "WRAPS" .trk 0x218 2 0x40 1 0x0 32 [rc 31 0] 0x0
/-- TTLOST: spec chapter 19. -/
def TTLOST : RegDef := regN "TTLOST" .trk 0x21c 2 0x40 1 0x0 32 [rc 31 0] 0x0
/-- NOROUTE: spec chapter 19. -/
def NOROUTE : RegDef := reg1 "NOROUTE" .trk 0x300 32 [rc 31 0] 0x0
/-- RREMOTE: spec chapter 19. -/
def RREMOTE : RegDef := reg1 "RREMOTE" .trk 0x304 32 [rc 31 0] 0x0
/-- RXDROP: spec chapter 19. -/
def RXDROP : RegDef := reg1 "RXDROP" .trk 0x308 32 [rc 31 0] 0x0
/-- DUPS: spec chapter 19. -/
def DUPS : RegDef := reg1 "DUPS" .trk 0x30c 32 [rc 31 0] 0x0
/-- CSP_CFG: spec chapter 20 R490. -/
def CSP_CFG : RegDef := regN "CSP_CFG" .io 0x400000 4 0x1000 1 0x0 32 [rw 31 31, rw 27 16, rw 11 8, rw 3 3, rw 2 2, rw 1 1, rw 0 0] 0x630000
/-- CSP_TIM: spec chapter 20 R494. -/
def CSP_TIM : RegDef := regN "CSP_TIM" .io 0x400004 4 0x1000 1 0x0 32 [rw 31 24, rw 23 16, rw 15 8, rw 7 0] 0x40404
/-- CSP_TO: spec chapter 20 R496. -/
def CSP_TO : RegDef := regN "CSP_TO" .io 0x400008 4 0x1000 1 0x0 32 [rw 19 0] 0x3e8
/-- CSP_XFER: spec chapter 20 R492. -/
def CSP_XFER : RegDef := regN "CSP_XFER" .io 0x40000c 4 0x1000 1 0x0 32 [wo 31 31, wo 30 30, rw 29 29, rw 28 28, rw 27 27, rw 25 24, rw 21 20, rw 13 8] 0x18000700
/-- CSP_NFRM: spec chapter 20. -/
def CSP_NFRM : RegDef := regN "CSP_NFRM" .io 0x400010 4 0x1000 1 0x0 32 [rw 15 0] 0x0
/-- CSP_STAT: spec chapter 20. -/
def CSP_STAT : RegDef := regN "CSP_STAT" .io 0x400014 4 0x1000 1 0x0 32 [ro 31 31, ro 30 30, ro 29 29, ro 27 24, ro 23 22, ro 20 16, ro 12 8, ro 0 0] 0x0
/-- CSP_TXD: spec chapter 20 R493. -/
def CSP_TXD : RegDef := regN "CSP_TXD" .io 0x400018 4 0x1000 1 0x0 64 [wo 63 0] 0x0
/-- CSP_RXD: spec chapter 20 R493. -/
def CSP_RXD : RegDef := regN "CSP_RXD" .io 0x400020 4 0x1000 1 0x0 64 [ro 63 0] 0x0
/-- CSP_DONE: spec chapter 20. -/
def CSP_DONE : RegDef := regN "CSP_DONE" .io 0x400028 4 0x1000 1 0x0 32 [ro 16 0] 0x0
/-- CSP_IRQ: spec chapter 20. -/
def CSP_IRQ : RegDef := regN "CSP_IRQ" .io 0x400030 4 0x1000 1 0x0 32 [w1c 5 0] 0x0
/-- CSP_IEN: spec chapter 20. -/
def CSP_IEN : RegDef := regN "CSP_IEN" .io 0x400034 4 0x1000 1 0x0 32 [rw 5 0] 0x0
/-- GPIO_IN: spec chapter 20 R498. -/
def GPIO_IN : RegDef := reg1 "GPIO_IN" .io 0x480000 32 [ro 23 0] 0x0
/-- GPIO_OUT: spec chapter 20 R498. -/
def GPIO_OUT : RegDef := reg1 "GPIO_OUT" .io 0x480004 32 [rw 23 0] 0x0
/-- GPIO_OE: spec chapter 20 R498. -/
def GPIO_OE : RegDef := reg1 "GPIO_OE" .io 0x480008 32 [rw 23 0] 0x0
/-- GPIO_SET: spec chapter 20 R498. -/
def GPIO_SET : RegDef := reg1 "GPIO_SET" .io 0x48000c 32 [wo 23 0] 0x0
/-- GPIO_CLR: spec chapter 20 R498. -/
def GPIO_CLR : RegDef := reg1 "GPIO_CLR" .io 0x480010 32 [wo 23 0] 0x0
/-- GPIO_RISE: spec chapter 20 R498. -/
def GPIO_RISE : RegDef := reg1 "GPIO_RISE" .io 0x480014 32 [rw 23 0] 0x0
/-- GPIO_FALL: spec chapter 20 R498. -/
def GPIO_FALL : RegDef := reg1 "GPIO_FALL" .io 0x480018 32 [rw 23 0] 0x0
/-- GPIO_IRQ: spec chapter 20 R498. -/
def GPIO_IRQ : RegDef := reg1 "GPIO_IRQ" .io 0x48001c 32 [w1c 23 0] 0x0
/-- GPIO_IEN: spec chapter 20 R499. -/
def GPIO_IEN : RegDef := reg1 "GPIO_IEN" .io 0x480020 32 [rw 23 0] 0x0
/-- FL_CFG: spec chapter 20 R500. -/
def FL_CFG : RegDef := regN "FL_CFG" .io 0x500000 2 0x1000 1 0x0 32 [rw 31 31, rw 29 28, rw 24 24, rw 19 16, rw 15 12, rw 10 8, rw 4 0] 0x2714
/-- FL_STAT: spec chapter 20. -/
def FL_STAT : RegDef := regN "FL_STAT" .io 0x500004 2 0x1000 1 0x0 32 [ro 31 31, ro 30 30, w1c 29 29, ro 27 24, ro 7 0] 0x0
/-- FL_CMD: spec chapter 20 R503. -/
def FL_CMD : RegDef := regN "FL_CMD" .io 0x500008 2 0x1000 1 0x0 32 [wo 31 31, wo 30 30, wo 29 29, wo 28 28, wo 24 16, wo 12 8, wo 7 0] 0x0
/-- FL_ADDR: spec chapter 20. -/
def FL_ADDR : RegDef := regN "FL_ADDR" .io 0x50000c 2 0x1000 1 0x0 32 [rw 31 0] 0x0
/-- FL_POLL: spec chapter 20. -/
def FL_POLL : RegDef := regN "FL_POLL" .io 0x500010 2 0x1000 1 0x0 32 [rw 31 24, rw 23 16, rw 12 8, rw 7 0] 0x10805
/-- FL_POLLADDR: spec chapter 20. -/
def FL_POLLADDR : RegDef := regN "FL_POLLADDR" .io 0x500014 2 0x1000 1 0x0 32 [rw 31 0] 0x0
/-- FL_PTO: spec chapter 20. -/
def FL_PTO : RegDef := regN "FL_PTO" .io 0x500018 2 0x1000 1 0x0 32 [rw 15 0] 0x3e8
/-- FL_IRQ: spec chapter 20. -/
def FL_IRQ : RegDef := regN "FL_IRQ" .io 0x500020 2 0x1000 1 0x0 32 [w1c 3 0] 0x0
/-- FL_IEN: spec chapter 20. -/
def FL_IEN : RegDef := regN "FL_IEN" .io 0x500024 2 0x1000 1 0x0 32 [rw 3 0] 0x0
/-- FL_RDGRAN: spec chapter 20. -/
def FL_RDGRAN : RegDef := regN "FL_RDGRAN" .io 0x500030 2 0x1000 1 0x0 64 [rc 63 0] 0x0
/-- FL_TRANS: spec chapter 20. -/
def FL_TRANS : RegDef := regN "FL_TRANS" .io 0x500038 2 0x1000 1 0x0 64 [rc 63 0] 0x0
/-- FL_BUF: spec chapter 20. -/
def FL_BUF : RegDef := regN "FL_BUF" .io 0x500100 2 0x1000 64 0x4 32 [rw 31 0] 0x0
/-- GFLT_STAT: spec chapter 21. -/
def GFLT_STAT : RegDef := reg1 "GFLT_STAT" .gal 0x80000 32 [w1c 4 0] 0x0
/-- GFLT_IEN: spec chapter 21. -/
def GFLT_IEN : RegDef := reg1 "GFLT_IEN" .gal 0x80004 32 [rw 4 0] 0x0
/-- GFLT_CIEN: spec chapter 21. -/
def GFLT_CIEN : RegDef := reg1 "GFLT_CIEN" .gal 0x80008 32 [rw 4 0] 0x0
/-- GFLT_POISONC: spec chapter 21. -/
def GFLT_POISONC : RegDef := reg1 "GFLT_POISONC" .gal 0x8000c 32 [rc 31 0] 0x0
/-- GELOG_ADDR: spec chapter 21 R510. -/
def GELOG_ADDR : RegDef := regN "GELOG_ADDR" .gal 0x80040 2 0x20 1 0x0 64 [ro 39 3] 0x0
/-- GELOG_INFO: spec chapter 21 R510. -/
def GELOG_INFO : RegDef := regN "GELOG_INFO" .gal 0x80048 2 0x20 1 0x0 32 [w1c 31 31, w1c 30 30, ro 29 29, ro 21 16, ro 7 0] 0x0
/-- GELOG_CNT: spec chapter 21 R510. -/
def GELOG_CNT : RegDef := regN "GELOG_CNT" .gal 0x8004c 2 0x20 1 0x0 32 [rc 31 0] 0x0
/-- GELOG_TIME: spec chapter 21 R510. -/
def GELOG_TIME : RegDef := regN "GELOG_TIME" .gal 0x80050 2 0x20 1 0x0 64 [ro 63 0] 0x0
/-- GWDG_CTL: spec chapter 21 R514, R515. -/
def GWDG_CTL : RegDef := reg1 "GWDG_CTL" .gal 0x80100 32 [rw 31 31, rw 30 30, rw 29 29, rw 28 28] 0x20000000
/-- GWDG_TIMEOUT: spec chapter 21 R517. -/
def GWDG_TIMEOUT : RegDef := reg1 "GWDG_TIMEOUT" .gal 0x80104 32 [rw 31 0] 0x40000
/-- GWDG_WARN: spec chapter 21 R517. -/
def GWDG_WARN : RegDef := reg1 "GWDG_WARN" .gal 0x80108 32 [rw 31 0] 0x10000
/-- GWDG_CNT: spec chapter 21 R515 (WDG_KICK is the write side). -/
def GWDG_CNT : RegDef := reg1 "GWDG_CNT" .gal 0x8010c 32 [ro 31 0] 0x0
/-- FLT_STAT: spec chapter 21. -/
def FLT_STAT : RegDef := reg1 "FLT_STAT" .cd 0x30000 32 [w1c 26 0] 0x0
/-- FLT_IEN: spec chapter 21. -/
def FLT_IEN : RegDef := reg1 "FLT_IEN" .cd 0x30004 32 [rw 26 0] 0x0
/-- FLT_HPOISON: spec chapter 21. -/
def FLT_HPOISON : RegDef := reg1 "FLT_HPOISON" .cd 0x30010 64 [ro 39 0] 0x0
/-- FLT_HPINFO: spec chapter 21. -/
def FLT_HPINFO : RegDef := reg1 "FLT_HPINFO" .cd 0x30018 32 [w1c 31 31, ro 1 0] 0x0
/-- CELOG_ADDR: spec chapter 21 R510 (atrium; stack s 0x140+0x40s; L2 0x240; hub 0x280). -/
def CELOG_ADDR : RegDef := regN "CELOG_ADDR" .cd 0x30100 7 0x40 2 0x20 64 [ro 39 3] 0x0
/-- CELOG_INFO: spec chapter 21 R510. -/
def CELOG_INFO : RegDef := regN "CELOG_INFO" .cd 0x30108 7 0x40 2 0x20 32 [w1c 31 31, w1c 30 30, ro 29 29, ro 21 16, ro 7 0] 0x0
/-- CELOG_CNT: spec chapter 21 R510. -/
def CELOG_CNT : RegDef := regN "CELOG_CNT" .cd 0x3010c 7 0x40 2 0x20 32 [rc 31 0] 0x0
/-- CELOG_TIME: spec chapter 21 R510. -/
def CELOG_TIME : RegDef := regN "CELOG_TIME" .cd 0x30110 7 0x40 2 0x20 64 [ro 63 0] 0x0
/-- HWDG_CTL: spec chapter 21. -/
def HWDG_CTL : RegDef := regN "HWDG_CTL" .cd 0x30400 4 0x10 1 0x0 32 [rw 31 31, rw 30 30, rw 29 29, rw 28 28] 0x20000000
/-- HWDG_TIMEOUT: spec chapter 21. -/
def HWDG_TIMEOUT : RegDef := regN "HWDG_TIMEOUT" .cd 0x30404 4 0x10 1 0x0 32 [rw 31 0] 0x40000
/-- HWDG_WARN: spec chapter 21. -/
def HWDG_WARN : RegDef := regN "HWDG_WARN" .cd 0x30408 4 0x10 1 0x0 32 [rw 31 0] 0x10000
/-- HWDG_CNT: spec chapter 21. -/
def HWDG_CNT : RegDef := regN "HWDG_CNT" .cd 0x3040c 4 0x10 1 0x0 32 [ro 31 0] 0x0
/-- HANG: spec chapter 21 R519. -/
def HANG : RegDef := regN "HANG" .cd 0x30500 13 0x4 1 0x0 32 [rc 31 0] 0x0
/-- AOFLT_STAT: spec chapter 21. -/
def AOFLT_STAT : RegDef := reg1 "AOFLT_STAT" .io 0x300 32 [w1c 3 0] 0x0
/-- AOFLT_IEN: spec chapter 21. -/
def AOFLT_IEN : RegDef := reg1 "AOFLT_IEN" .io 0x304 32 [rw 3 0] 0x0
/-- AOELOG_ADDR: spec chapter 21 R510. -/
def AOELOG_ADDR : RegDef := regN "AOELOG_ADDR" .io 0x340 2 0x20 1 0x0 64 [ro 39 3] 0x0
/-- AOELOG_INFO: spec chapter 21 R510. -/
def AOELOG_INFO : RegDef := regN "AOELOG_INFO" .io 0x348 2 0x20 1 0x0 32 [w1c 31 31, w1c 30 30, ro 29 29, ro 21 16, ro 7 0] 0x0
/-- AOELOG_CNT: spec chapter 21 R510. -/
def AOELOG_CNT : RegDef := regN "AOELOG_CNT" .io 0x34c 2 0x20 1 0x0 32 [rc 31 0] 0x0
/-- AOELOG_TIME: spec chapter 21 R510. -/
def AOELOG_TIME : RegDef := regN "AOELOG_TIME" .io 0x350 2 0x20 1 0x0 64 [ro 63 0] 0x0
/-- AWDG_CTL: spec chapter 21 R517. -/
def AWDG_CTL : RegDef := reg1 "AWDG_CTL" .io 0x400 32 [rw 31 31, rw 30 30, rw 29 29, rw 28 28] 0xa0000000
/-- AWDG_TIMEOUT: spec chapter 21 R517. -/
def AWDG_TIMEOUT : RegDef := reg1 "AWDG_TIMEOUT" .io 0x404 32 [rw 31 0] 0x40000
/-- AWDG_WARN: spec chapter 21 R517. -/
def AWDG_WARN : RegDef := reg1 "AWDG_WARN" .io 0x408 32 [rw 31 0] 0x10000
/-- AWDG_CNT: spec chapter 21 R515. -/
def AWDG_CNT : RegDef := reg1 "AWDG_CNT" .io 0x40c 32 [ro 31 0] 0x40000
/-- IO_HANG: spec chapter 21 R519. -/
def IO_HANG : RegDef := regN "IO_HANG" .io 0x500 7 0x4 1 0x0 32 [rc 31 0] 0x0
/-- THRM_T: spec chapter 22. -/
def THRM_T : RegDef := regN "THRM_T" .cd 0x600 8 0x4 1 0x0 32 [ro 31 31, ro 15 0] 0x0
/-- IO_TEMP: spec chapter 22. -/
def IO_TEMP : RegDef := reg1 "IO_TEMP" .io 0x600 32 [ro 31 31, ro 15 0] 0x0
/-- CD_TRIP: spec chapter 22 R543. -/
def CD_TRIP : RegDef := reg1 "CD_TRIP" .io0 0x604 32 [rw 15 0] 0x7d0
/-- CD_TRIPSTAT: spec chapter 22 R543. -/
def CD_TRIPSTAT : RegDef := reg1 "CD_TRIPSTAT" .io0 0x608 32 [w1c 31 31, ro 2 0] 0x0

/-- Registers of window `io`, part 0. -/
def tbl_io_0 : List RegDef := [DEVID, IO_ICC_CTL, IO_ICC_STAT, IO_ICC_DROOPS, IO_BERR_ADDR, IO_BERR_INFO, IO_BERR_COUNT, PWR_CTL, PWR_STAT, BOD_STAT, BOD_COUNT, PMB_CFG, PMB_RAIL, PMB_STAT, PMB_ALERT, VF_GAL, VF_HOST, LDG_CTL, LDG_STAT, LDG_IRQ, LDG_IEN, BAT_Q, BAT_CAP, BAT_PAR, BAT_FULL, BAT_REST, OCV, Q_FLOOR, Q_EMERG, Q_HYST, V_EMERG, GRACE_MS, BUD_CAP, BASE_RES, EXH_THRESH, BUDGET, BUD_REM, E_SOLAR_PREV, HOUR_MS, GCAP]
/-- Registers of window `io`, part 1. -/
def tbl_io_1 : List RegDef := [GSTAT, TEN_E, SHED_CNT, LDG_POSTLOST, RST_CAUSE, RST_CTL, STRAPS, BOOT_STAT, KEYHASH, OTP_CFG, OTP_SVN, OTP_CMD, OTP_DATA, OTP_STAT, CAL_STAT, CAL_CMD, CAL_LIVE, CAL_STAGE, MER_CTL, MER_STAT, MER_IEN, MER_SEC, MER_SUB, MER_HOLD, MER_CAL0, MER_CAL1, ALM_SEC, ALM_CTL, ALM_PER, TS_NS, TS_INFO, TS_TICK, TS_STAT, TT_IRQ, TT_IEN, TT_MARKST, TT_PINS, TT_FIRES, TT_LATES, TT_DISCARDS]
/-- Registers of window `io`, part 2. -/
def tbl_io_2 : List RegDef := [TT_SKIPS, TT_TGTOFF, TT_POSTLOST, TT_TIME, TT_ACT, TT_ARG, TT_PER, TT_CTL, TT_STAT, TT_LATEBY, CSP_CFG, CSP_TIM, CSP_TO, CSP_XFER, CSP_NFRM, CSP_STAT, CSP_TXD, CSP_RXD, CSP_DONE, CSP_IRQ, CSP_IEN, GPIO_IN, GPIO_OUT, GPIO_OE, GPIO_SET, GPIO_CLR, GPIO_RISE, GPIO_FALL, GPIO_IRQ, GPIO_IEN, FL_CFG, FL_STAT, FL_CMD, FL_ADDR, FL_POLL, FL_POLLADDR, FL_PTO, FL_IRQ, FL_IEN, FL_RDGRAN]
/-- Registers of window `io`, part 3. -/
def tbl_io_3 : List RegDef := [FL_TRANS, FL_BUF, AOFLT_STAT, AOFLT_IEN, AOELOG_ADDR, AOELOG_INFO, AOELOG_CNT, AOELOG_TIME, AWDG_CTL, AWDG_TIMEOUT, AWDG_WARN, AWDG_CNT, IO_HANG, IO_TEMP]
/-- Every register of window `io`. -/
def tbl_io : List RegDef := tbl_io_0 ++ tbl_io_1 ++ tbl_io_2 ++ tbl_io_3
/-- Registers of window `cd`, part 0. -/
def tbl_cd_0 : List RegDef := [CDID, ICC_CTL, ICC_STAT, ICC_DROOPS, BERR_ADDR, BERR_INFO, BERR_COUNT, HUB_CMD, HUB_RTO, HUB_CMDBAD, HUB_HPLOST, HUB_RREF, HUB_RLATE, HUB_RWFULL, ADM_REQ, ADM_STAT, ADM_REL, ADM_RATECAP, ADM_GSRSV, ADM_ATRLO, ADM_ATRHI, ADM_STKLO, ADM_STKHI, GAL_WORK, ADM_GRANTS, ADM_REFUSALS, ADM_RELEASES, ADM_SHEDS, ADM_DROPS, FLT_STAT, FLT_IEN, FLT_HPOISON, FLT_HPINFO, CELOG_ADDR, CELOG_INFO, CELOG_CNT, CELOG_TIME, HWDG_CTL, HWDG_TIMEOUT, HWDG_WARN]
/-- Registers of window `cd`, part 1. -/
def tbl_cd_1 : List RegDef := [HWDG_CNT, HANG, THRM_T]
/-- Every register of window `cd`. -/
def tbl_cd : List RegDef := tbl_cd_0 ++ tbl_cd_1
/-- Registers of window `io0`, part 0. -/
def tbl_io0_0 : List RegDef := [PWR_CISL, HOST_PC, CRST_REL, GREL_PC, TS_CTL, TS_FADJ, TS_STEP, TS_SLEW, PPS_CAP, PPS_INFO, PPS_SEQ, PPS_CFG, PPS_IGN, CD_TRIP, CD_TRIPSTAT]
/-- Every register of window `io0`. -/
def tbl_io0 : List RegDef := tbl_io0_0
/-- Registers of window `io1`, part 0. -/
def tbl_io1_0 : List RegDef := [W1_PC, W1_GO]
/-- Every register of window `io1`. -/
def tbl_io1 : List RegDef := tbl_io1_0
/-- Registers of window `dbg`, part 0. -/
def tbl_dbg_0 : List RegDef := [DBG_CTL, DBG_STAT, DPC, DOORBELL, CSRSEL, CSRDATA, SBSTALL, EXC_CNT, INT_CNT, SBERR_LOST, BKPT_ADDR, BKPT_CTL, SREG]
/-- Every register of window `dbg`. -/
def tbl_dbg : List RegDef := tbl_dbg_0
/-- Registers of window `gal`, part 0. -/
def tbl_gal_0 : List RegDef := [ARR_STAT, ARR_FLAGS, ARR_IEN, ARR_PLANE, VIT_HEAD, VIT_LAST, ARR_ROWS, ARR_BUSYCYC, ARR_TILES, ARR_SQTILES, ARR_VSTALL, ARR_EPSTALL, ARR_SLIP, VIT_UNDER, ARR_SATCNT, LEG_SCALE, LEG_INSC, LEG_CTL, LEG_MULT, LEG_DRV, LEG_RECIP, LEG_HMAX, EP_STAT, EP_RRST, EP_FLAGS, EP_IEN, EP_LEGERR, EP_RESTART, EP_OPENS, EP_COMMITS, EP_SQSW, EP_SQSAT, EP_SQEXC, EP_SQQUAL, EP_BOUNDS, EP_RERUNS, EP_HRESETS, EP_SATFINAL, EP_RDEFER, EP_PCYC]
/-- Registers of window `gal`, part 1. -/
def tbl_gal_1 : List RegDef := [EP_SQCYC, EP_WAITCYC, VEC_STAT, VEC_FLAGS, VEC_IEN, VEC_TAG, VEC_LASTSUM, VEC_SUMINFO, VEC_CPRCNT, VEC_TSEL, VEC_TROW, VEC_BUSYCYC, VEC_INSTR, VEC_SATCNT, VEC_RQSAT, VEC_POISON, SKP_CTL, SKP_STAT, SKP_POS, SKP_WIN, SKP_THR, SKP_DIM, SKP_EST, SKP_LIST, SKP_CNT, SKP_TAKE, SKP_ROUND, SKP_GRANT, SKP_QROW, SKP_KROW, SKP_ZP, SKP_SSCALE, SKP_JOBS, SKP_CUTS, SKP_CONSID, SKP_USED, AUD_CTL, AUD_BMAX, AUD_BL1, AUD_STAT]
/-- Registers of window `gal`, part 2. -/
def tbl_gal_2 : List RegDef := [AUD_FLAGS, AUD_IEN, AUD_LWSEQ, AUD_LWMAX, AUD_LWL1, AUD_ROWCTR, AUD_ROWS, AUD_DROPS, AUD_ALERTS, AUD_SLOTS, ST_STAT, ST_INFO, ST_FLAGS, ST_IEN, ST_ERRINFO, ST_ERRADDR, GR_BASE, GR_LIM, ST_RDBYTES, ST_WRBYTES, ST_NEXTSTALL, ST_ERRS, CAR_CFG, CAR_SHARD, CAR_BUF0, CAR_BUF1, CAR_CELL, CAR_CTL, CAR_STAT, CAR_FLAGS, CAR_IEN, CAR_TXBYTES, CAR_RXBYTES, CAR_FWDBYTES, CAR_WAITCYC, GFLT_STAT, GFLT_IEN, GFLT_CIEN, GFLT_POISONC, GELOG_ADDR]
/-- Registers of window `gal`, part 3. -/
def tbl_gal_3 : List RegDef := [GELOG_INFO, GELOG_CNT, GELOG_TIME, GWDG_CTL, GWDG_TIMEOUT, GWDG_WARN, GWDG_CNT]
/-- Every register of window `gal`. -/
def tbl_gal : List RegDef := tbl_gal_0 ++ tbl_gal_1 ++ tbl_gal_2 ++ tbl_gal_3
/-- Registers of window `ring`, part 0. -/
def tbl_ring_0 : List RegDef := [RING_BASE, RING_CFG, RING_RATE, RING_SDEPTH, RING_OCC, RING_RPTR, RING_SPTR, RING_TOK, RING_ACC, RING_DEF, RING_RFULL, RING_RRATE, RING_RENERGY, RING_DROP]
/-- Every register of window `ring`. -/
def tbl_ring : List RegDef := tbl_ring_0
/-- Registers of window `host`, part 0. -/
def tbl_host_0 : List RegDef := [MSIP, MTIMECMP, MTIME, SETSSIP, L2_STAT, L2_FLUSH, HOST_PMA, HOST_DRPEND, HOST_DBELL, HOST_DBSTAT]
/-- Every register of window `host`. -/
def tbl_host : List RegDef := tbl_host_0
/-- Registers of window `plic`, part 0. -/
def tbl_plic_0 : List RegDef := [PLIC_PRI, PLIC_PEND, PLIC_EN, PLIC_THR, PLIC_CLAIM]
/-- Every register of window `plic`. -/
def tbl_plic : List RegDef := tbl_plic_0
/-- Registers of window `rad`, part 0. -/
def tbl_rad_0 : List RegDef := [RF_CTL, RF_STAT, RF_SFOFS, RF_SLOT, RF_SFN, RF_DET, RF_QUAL, RF_RSSI, RX_BASE, RX_CFG, RX_CELL, RX_PCELL, RX_RELCELL, RX_WSEQ, TX_ADDR, TX_CTL, RAMP, PA_LEAD, RF_IRQ, RF_IEN, RF_TRIG, RF_QPASS, RF_QFAIL, RF_FMTERR, RF_NOREC, RF_ABANDON, RF_RECS, RF_RXSAT, RF_TXDONE, RF_TXERR, RF_TXSAT, RF_POSTLOST, RF_WERR, RCV_CTL, RCV_STAT, RCV_RESBASE, RCV_DLVBASE, RCV_LCELL, RCV_NCELL, RCV_DCELL]
/-- Registers of window `rad`, part 1. -/
def tbl_rad_1 : List RegDef := [RCV_DRELCELL, RCV_RING, RCV_DSEQ, RCV_LEARNED, RCV_FALLBACK, RCV_LWORSE, RCV_MISSING, RCV_NOBUF, RCV_MARKLATE, RCV_POSTLOST, RCV_DROPPED]
/-- Every register of window `rad`. -/
def tbl_rad : List RegDef := tbl_rad_0 ++ tbl_rad_1
/-- Registers of window `mtr`, part 0. -/
def tbl_mtr_0 : List RegDef := [MTR_CTL, MTR_STAT, MTR_IRQ, MTR_IEN, MTR_MINT, HEAT_CFG, HEAT_DTMIN, GAS_CFG, GAS_PB, GAS_TB, GAS_Z, PRESS, PMAXAGE, PATH_DRV, PATH_CAP, PATH_HIT, PATH_HITREF, PATH_L, PATH_X, PATH_AREA, PATH_W, PATH_OPT, PATH_SETTLE, PATH_PICK, PATH_GAPMAX, LAST_SEQ, LAST_FLAGS, LAST_TDN, LAST_TUP, LAST_V, LAST_Q, LAST_TIME, LAST_TEMP, KV, KF, RTD_CFG, RTD_RES, RTD_TEMP, RTD_STAT, RTD_ROUND]
/-- Registers of window `mtr`, part 1. -/
def tbl_mtr_1 : List RegDef := [WTAB_D, WTAB_H, ACC_CFG, ACC_STAT, ACC_TOT, ACC_RR, ACC_SNAPT, PO_CFG, PO_WEIGHT, PO_TIME, PO_STAT, PO_LOST, SP_CFG, SP_UNIT, SP_VAL, SP_STAT, MTR_SHOTS, MTR_VALID, MTR_UNDER, MTR_ORDER, MTR_NOECHO, MTR_NONPOS, MTR_BUSY, MTR_NOTREADY, MTR_PICKOK, MTR_PICKLATE, MTR_PICKREJ, MTR_RTDINV, MTR_POSTLOST, MTR_SPHELD, MTR_SPCLIP, CAP_DN, CAP_UP, PICK_DN, PICK_UP, PICK_CMT]
/-- Every register of window `mtr`. -/
def tbl_mtr : List RegDef := tbl_mtr_0 ++ tbl_mtr_1
/-- Registers of window `aco`, part 0. -/
def tbl_aco_0 : List RegDef := [AC_CTL, AC_STAT, AC_IRQ, AC_IEN, SD_CFG, SD_STAT, TDM_CFG, GRP_CFG, GRP_SDMASK, GRP_TDM, GRP_BASE, GRP_RELCELL, GRP_WSEQ, AC_FRAMES, AC_DROPS, AC_HELD, AC_CLIPMIN, AC_WERR, AC_POSTLOST]
/-- Every register of window `aco`. -/
def tbl_aco : List RegDef := tbl_aco_0
/-- Registers of window `trk`, part 0. -/
def tbl_trk_0 : List RegDef := [TRK_CTL, TRK_STAT, TRK_STN, TRK_UID, TRK_CMD, TRK_TOPOPER, TRK_TCFG, TRK_STEPTHR, TRK_TSTAT, TRK_IRQ, TRK_IEN, TRK_RXBASE, TRK_RXCFG, TRK_RXREL, LNK_ASYM, LNK_SEQ, LNK_OFS, LNK_DLY, LNK_NBR, LNK_NBRUID, LNK_ACAL, RXFRM, TXFRM, HCSERR, CRCERR, STOMP, TTLDROP, WRAPS, TTLOST, NOROUTE, RREMOTE, RXDROP, DUPS]
/-- Every register of window `trk`. -/
def tbl_trk : List RegDef := tbl_trk_0

end R


/-- A located register word: the register, its window instance and indices, and the byte offset
of the access within the register. -/
structure RegAt where
  r : RegDef
  k : Nat
  i : Nat
  j : Nat
  part : Nat

/-- Element of `r` that covers offset `o` of its window, if any. -/
def RegDef.find (r : RegDef) (o : Nat) : Option (Nat × Nat × Nat) :=
  if o < r.off then none
  else
    let q := o - r.off
    let i := if r.s1 = 0 then 0 else q / r.s1
    let q1 := if r.s1 = 0 then q else q % r.s1
    let j := if r.s2 = 0 then 0 else q1 / r.s2
    let q2 := if r.s2 = 0 then q1 else q1 % r.s2
    if i < r.n1 ∧ j < r.n2 ∧ q2 < r.w / 8 then some (i, j, q2) else none

/-- The register of table `t` that covers offset `o` of window instance `k`. -/
def findIn (t : List RegDef) (k o : Nat) : Option RegAt :=
  t.findSome? fun r => (r.find o).map fun (i, j, p) => ⟨r, k, i, j, p⟩

/-- The register that covers a device address (R36). `none` for a reserved offset or an address
outside every register window. -/
def regAt (addr : Nat) : Option RegAt :=
  if 0x10000000 ≤ addr ∧ addr < 0x12000000 then
    let d := (addr - 0x10000000) / 0x1000000
    let o := addr % 0x1000000
    if 0x10000 ≤ o ∧ o < 0x20000 then findIn R.tbl_dbg (6 + d) (o - 0x10000)
    else if 0x60000 ≤ o ∧ o < 0x70000 then findIn R.tbl_mtr d (o - 0x60000)
    else if 0x100000 ≤ o ∧ o < 0x200000 then findIn R.tbl_rad d (o - 0x100000)
    else if 0x200000 ≤ o ∧ o < 0x300000 then findIn R.tbl_aco d (o - 0x200000)
    else if 0x300000 ≤ o ∧ o < 0x400000 then findIn R.tbl_trk d (o - 0x300000)
    else (findIn R.tbl_io d o).or
      (if d = 0 then findIn R.tbl_io0 0 o else findIn R.tbl_io1 1 o)
  else if 0x20000000 ≤ addr ∧ addr < 0x21000000 then findIn R.tbl_cd 0 (addr - 0x20000000)
  else if 0x21000000 ≤ addr ∧ addr < 0x21600000 then
    let g := (addr - 0x21000000) / 0x100000
    let o := addr % 0x100000
    if o < 0x10000 then findIn R.tbl_dbg g o else findIn R.tbl_gal g o
  else if 0x22000000 ≤ addr ∧ addr < 0x22100000 then findIn R.tbl_host 0 (addr - 0x22000000)
  else if 0x24000000 ≤ addr ∧ addr < 0x28000000 then findIn R.tbl_plic 0 (addr - 0x24000000)
  else if 0x29000000 ≤ addr ∧ addr < 0x29010000 then findIn R.tbl_ring 0 (addr - 0x29000000)
  else none

end Sys2Proof.Machine
end

