-- ==== Sys2Proof/Machine/State.lean ====
section
/-!
DEFINITION. The state of the device as plain data, and the state after reset. Every register of the
register tables lives in `Dev.regs` (one entry per register whose value is not its reset value);
state that is no register, or that a register only shows, has a field of its own.
-/

namespace Sys2Proof.Machine

/-- Faults. -/
inductive Fault
  /-- Raised by a command that names a unit of an I/O die the assembly does not have: such a unit
  does not exist (R24). Safe: no such command can arrive. -/
  | unfitted
  deriving DecidableEq, Repr

/-- Refusals. -/
inductive Refusal
  /-- A command that has no meaning yet; raised by no arm of a finished model. Safe. -/
  | notModelled (mnemonic : String)
  deriving DecidableEq, Repr

/-- State of one island's clock and power (R24, R42, R47). -/
structure Isl where
  /-- Supplied (not gated). -/
  on : Bool
  /-- Held in reset. -/
  held : Bool
  /-- ICC_CTL value in force: limits and mode that have taken effect. -/
  limits : Nat
  /-- A fixed-mode island has left lock in a supply droop. -/
  unlocked : Bool
  deriving DecidableEq, Repr

/-- Response of the last access of an initiator: the value read and whether it was a bus error. -/
structure Resp where
  val : Nat
  err : Bool
  poison : Bool
  deriving DecidableEq, Repr

/-- Access ports: what the bus keeps for each initiator ID (R38, R44, R30). -/
structure BusSt where
  /-- Read holding registers, by initiator (R38). -/
  rdHold : SMap Nat
  /-- Write holding registers, by initiator: register address and low word; address 0 is empty. -/
  wrHold : SMap (Nat × Nat)
  /-- Snapshot holding registers, by initiator × 2^40 + register address (R8, R44). -/
  snap : SMap Nat
  /-- Last responses, by initiator (the model's own record of what a read returned). -/
  resp : SMap Resp
  /-- Performed writes whose acknowledgement has not returned, by initiator (R30). -/
  outw : SMap Nat
  deriving DecidableEq, Repr

/-- One switched rail as the power sequencer of I/O die 0 sees it (R51, R54, R56). -/
structure Rail where
  /-- Turned on by OPERATION 0x80. -/
  on : Bool
  /-- Its step has completed: the monitor of R54 watches it. -/
  monitor : Bool
  /-- VOUT_MODE byte as last reported. -/
  mode : Nat
  /-- Requested voltage, mV. -/
  reqMv : Nat
  deriving DecidableEq, Repr

/-- Phase of the power sequencer, as CDIE_STATE shows it; `init` is the rise's last part, the
atrium zeroing of R93. -/
inductive SeqPhase
  | off | rising | init | on | falling
  deriving DecidableEq, Repr

/-- Power gating of a gallery (R52, R94). -/
inductive GPhase
  /-- Gated. -/
  | gated
  /-- Ungated and held in reset. -/
  | reset
  /-- Released, zeroing its store. -/
  | zeroing
  /-- Running. -/
  | run
  deriving DecidableEq, Repr

/-- A raise of a clock ceiling that waits for its voltage (R59): ceiling in MHz and request in mV. -/
structure Raise where
  ceil : Nat
  mv : Nat
  deriving DecidableEq, Repr

/-- The power sequencer and PMBus master of I/O die 0 (R51 to R59). -/
structure PowerSt where
  phase : SeqPhase
  /-- CDIE_PWREN pin. -/
  pwren : Bool
  /-- Rails whose steps run or wait, the running one first. Rails 0 to 2 are the gallery pairs, 3
  VDD_HOST, 4 VDD_ATR, 5 to 8 the stack rails. -/
  steps : List Nat
  /-- Rails turned on, the latest first. -/
  order : List Nat
  rails : Vector Rail 9
  /-- The running step waits VSETTLE instead of comparing (R51). -/
  settle : Bool
  gal : Vector GPhase 6
  /-- The store of gallery g has been zeroed since it was ungated (R94). -/
  zeroed : Vector Bool 6
  /-- Applied clock ceilings of galleries 0 to 5 and the host, MHz (R58). -/
  ceil : Vector Nat 7
  /-- Raises waiting for CEILING_RISE_CONFIRM. -/
  raises : Vector (Option Raise) 7
  /-- VDD_IO18 and VDD_IO33 are below their thresholds, by die (R54). -/
  padLow18 : Vector Bool 2
  padLow33 : Vector Bool 2
  /-- VDDA_MTR has browned out since the last station-power sample, by die (R54). -/
  mtrLow : Vector Bool 2
  deriving DecidableEq, Repr

/-- Where the ledger's tick stands: the part that a command of its own performs next (R76). -/
inductive LdgStage
  | idle
  /-- FULL_CHARGE is due. -/
  | full
  /-- TABLE_FIX is due. -/
  | fix
  /-- LEDGER_HOUR_END is due. -/
  | hour
  /-- GRACE_EXPIRY is due. -/
  | grace
  deriving DecidableEq, Repr

/-- An event waiting for its ring-40 post at the end of the tick (R77). -/
structure LdgEv where
  code : Nat
  arg : Nat
  time : Nat
  hourMs : Nat
  deriving DecidableEq, Repr

/-- The ledger of I/O die 0 below its registers (R60 to R77). -/
structure LedgerSt where
  /-- Ticks since the release of the AO reset. -/
  tick : Nat
  /-- Remainder of BAT_Q below 1 mC, in units of 1/256 µC. -/
  qRem : Int
  /-- Solar energy of the running hour, nJ. -/
  solar : Nat
  /-- Remainder of each tenant's energy, nJ. -/
  tenRem : Vector Nat 16
  /-- Bus means of the last valid tick: V and I of the solar, battery and load buses, mV and mA. -/
  prev : Vector Int 6
  /-- Means the station-power channels have handed over for the tick that ends (R416); `none` for an
  invalid tick. -/
  mean : Option (Vector Int 6)
  fullCnt : Nat
  restCnt : Nat
  /-- A RECALC write waits for the next tick. -/
  recalc : Bool
  /-- A BAT_Q write has arrived since the last tick: it wins over the tick's tests (R64). -/
  qWrote : Bool
  /-- Activity events of the running tick, per gallery: MAC, lane, stream byte, store access. -/
  act : Vector (Vector Nat 4) 6
  /-- Remainder of each gallery's estimate, fJ. -/
  eRem : Vector Nat 6
  /-- Estimates e_g of the tick in progress, nJ. -/
  est : Vector Nat 6
  stage : LdgStage
  events : List LdgEv
  deriving DecidableEq, Repr

/-- Where the boot ROM of an I/O die stands (R83 to R95). `tryCopy`, `waitCdie`, `load` and
`waitOctal` carry the number of the copy in the order of R88. -/
inductive RomPhase
  | start
  | tryCopy (n : Nat)
  | waitCdie (n : Nat)
  | load (n : Nat)
  | waitOctal (n : Nat)
  | running
  | failed
  | halted
  | hold
  | wait1
  deriving DecidableEq, Repr

/-- A calibration commit in progress (R101). -/
structure Commit where
  buf : SMap Byte
  deriving DecidableEq, Repr

/-- State of one I/O die's boot path (R78 to R102). -/
structure DieSt where
  inReset : Bool
  /-- The running reset was a power-on (R83 step 1). -/
  cold : Bool
  rom : RomPhase
  /-- The ROM set CDIE_ON for the copy it tries. -/
  romCdie : Bool
  /-- Code recorded for copies of a flash port that did not respond (R88), by port. -/
  deadPort : Vector Bool 2
  /-- TCXO cycles since the release of the die's reset. -/
  tcxo : Nat
  /-- VBAT in range for the retention latches (R80). -/
  vbat : Bool
  /-- STN_NUM of the image that booted, for STN_MODE 2 (R472). -/
  stnNum : Nat
  /-- OTP words (R97). -/
  otp : SMap Nat
  /-- OTP programming in progress: word and data. -/
  otpBusy : Option (Nat × Nat)
  /-- Non-volatile calibration block (R98). -/
  calNv : SMap Byte
  calLive : SMap Byte
  calStage : SMap Byte
  wear : Nat
  /-- A calibration commit or an OTP program has ended since the last one started: the CAL source
  (log entry 20). -/
  ended : Bool
  commit : Option Commit
  deriving DecidableEq, Repr

/-- An entry of a core's store buffer (R158). -/
structure SbEntry where
  /-- Address as issued. -/
  addr : Nat
  /-- Device address after R35. -/
  dev : Nat
  /-- Size in bytes: 1, 2 or 4. -/
  size : Nat
  data : Nat
  /-- Entered inside an open epoch. -/
  held : Bool
  deriving DecidableEq, Repr

/-- A load between issue and commit (R139, R160, R161). -/
structure LoadSt where
  sd : Fin 32
  addr : Nat
  dev : Nat
  size : Nat
  signed : Bool
  /-- Waits for overlapping entries (R160) or for older entries (R161). -/
  waiting : Bool
  deriving DecidableEq, Repr

/-- Kinds of cell and ring operation (R132, R134, R305). -/
inductive HubKind
  | add | set | test | waitge | waiteq | gate | post | pop | popw
  deriving DecidableEq, Repr

/-- An SY or RG operation as a curator issues it. -/
structure HubOp where
  kind : HubKind
  sd : Fin 32
  /-- Identifier of R131. -/
  id : Nat
  /-- Operand of an SY, buffer address of an RG. -/
  opnd : Nat
  /-- Timeout in µs. -/
  timeout : Nat
  deriving DecidableEq, Repr

/-- What a core's instruction at `pc` waits for. -/
inductive Stall
  | none
  | wfi
  | fence (mask : Nat)
  | ifence
  | modesw (charted : Bool)
  | mxWait
  | stNext (sd : Fin 32) (n : Fin 16)
  | stWait (n : Fin 16)
  /-- SUM of a tile whose result is not ready: the vector instruction writes `sd`. -/
  | vxSum
  /-- Held until the core's writes are acknowledged (R31). -/
  | hubHeld (op : HubOp)
  /-- Issued to the hub, waiting for its answer. -/
  | hubWait (op : HubOp)
  /-- EP.COMMIT waiting for the epoch to end (R214). -/
  | epCommit
  deriving DecidableEq, Repr

/-- Run state of a core. -/
inductive RunSt
  | reset | running | halted
  deriving DecidableEq, Repr

/-- One curator or warden (R105, R136, R149 to R168). Cores 0 to 5 are the curators G0 to G5,
6 and 7 the wardens of I/O dies 0 and 1. -/
structure CoreSt where
  run : RunSt
  pc : Word
  sr : Vector Word 32
  status : Nat
  epc : Nat
  cause : Nat
  badaddr : Nat
  evec : Nat
  scratch : Vector Nat 2
  ien : Nat
  soft : Bool
  lc : Vector Nat 2
  ls : Vector Nat 2
  le : Vector Nat 2
  farbase : Nat
  cycle : Nat
  cycleh : Nat
  instret : Nat
  instreth : Nat
  charted : Bool
  gxstat : Nat
  /-- In a delay slot: address of the branch and where the path goes on (R141 to R143). -/
  slot : Option (Word × Word)
  /-- In a MODESW shadow: old and new mode (R156). -/
  shadow : Option (Bool × Bool)
  sb : List SbEntry
  load : Option LoadSt
  stall : Stall
  /-- Issued address of a store error not yet taken (R153). -/
  sbErr : Option Nat
  /-- An interrupt may be taken now although the core is in charted mode (R152). -/
  intPoint : Bool
  haltReq : Bool
  /-- A forcing instruction waits at `pc` and executes before any interrupt (R215). -/
  mustRun : Bool
  /-- First step unit after a resume (R167). -/
  resumed : Bool
  deriving DecidableEq, Repr

/-- A tile: 32 rows of 512 32-bit containers, container `e` of row `r` at key 512 r + e, zeros
unlisted (R172, R220). -/
abbrev Tile := SMap Nat

/-- State of a vitrine slot that is not FREE (R183). -/
inductive SlotSt
  | filling | ready | held
  deriving DecidableEq, Repr

/-- A vitrine slot with its header, or an output tile still in the pipeline (R183). -/
structure VSlot where
  st : SlotSt
  seq : Nat
  valid : Nat
  half : Nat
  mode : Nat
  prov : Bool
  sat : Bool
  poison : Bool
  /-- Elements that saturated under R182. -/
  satN : Nat
  data : Tile
  deriving DecidableEq, Repr

/-- A weight plane as dispatched (R170, R191). -/
structure Plane where
  valid : Bool
  fmt : Nat
  poison : Bool
  /-- Weight byte at offset i of the plane. -/
  data : SMap Byte
  deriving DecidableEq, Repr

/-- The run word and rows of an MX.RUN (R176). -/
structure RunCmd where
  word : Nat
  addr : Nat
  n : Nat
  /-- Mode, active plane and chain length of the issue-order state at issue. -/
  mode : Nat
  deriving DecidableEq, Repr

/-- Kinds of queued array command (R173). -/
inductive ArrKind
  | cfg (mode : Nat)
  /-- Address, target plane (1 = B) and weight format. -/
  | wld (addr : Nat) (plane : Bool) (fmt : Nat)
  | swap
  | run (r : RunCmd)
  deriving DecidableEq, Repr

/-- A queued array command and whether it was issued inside the open epoch. -/
structure ArrCmd where
  kind : ArrKind
  ep : Bool
  /-- Its number in the gallery's issue order of MX and VX instructions. -/
  n : Nat
  deriving DecidableEq, Repr

/-- A chain in the issue-order state (R181). -/
structure Chain where
  n : Nat
  ep : Bool
  deriving DecidableEq, Repr

/-- Issue-order state (R174). -/
structure ArrIssue where
  mode : Nat
  active : Bool
  valid : Vector Bool 2
  fmt : Vector Nat 2
  chain : Option Chain
  deriving DecidableEq, Repr

/-- A plane load in progress (R175). -/
structure Loading where
  addr : Nat
  plane : Bool
  fmt : Nat
  ep : Bool
  deriving DecidableEq, Repr

/-- The array and vitrine of a gallery (R169 to R193). -/
structure ArraySt where
  iss : ArrIssue
  queue : List ArrCmd
  /-- Mode and active plane as dispatched. -/
  mode : Nat
  active : Bool
  planes : Vector Plane 2
  loader : Option Loading
  /-- Output tiles in the pipeline, in delivery order. -/
  flight : List VSlot
  /-- Accumulation buffer: sums of the open chain as dispatched, row r column c at 1024 r + c. -/
  acc : SMap Int
  /-- Elements of the chain so far that saturated, each by its output tile's index. -/
  accSat : List Nat
  /-- The chain so far met poison. -/
  accPoison : Bool
  vit : List VSlot
  seq : Nat
  /-- Header of the slot most recently popped. -/
  last : Option VSlot
  /-- Frozen: 0 no, 1 vitrine full (R185), 2 tile bound (R190). -/
  frozen : Nat
  /-- Issue-order state at the epoch's opening (R189). -/
  ck : Option ArrIssue
  /-- Planes whose refill an MX.WLD of the open epoch has begun. -/
  epLoads : Vector Bool 2
  deriving DecidableEq, Repr

/-- A legend entry (R196 to R206). -/
structure Leg where
  scale : Nat
  insc : Nat
  ctl : Nat
  mult : Nat
  shift : Nat
  range : Bool
  zero : Bool
  recip : Nat
  wide : Bool
  /-- History, oldest first, FP32 words. -/
  hist : List Nat
  /-- Open step of an EP.OPEN epoch: requirement so far and whether it is made in wide form
  (R202). -/
  step : Option (Nat × Bool)
  /-- Steps of a radio-opened epoch that wait for its commit, oldest first (R203). -/
  pend : List (Nat × Bool)
  deriving DecidableEq, Repr

/-- A detection of the bound radio that waits for the open epoch to end (R218), and its decision. -/
structure Defer where
  die : Nat
  decided : Option Bool
  deriving DecidableEq, Repr

/-- The epoch of a gallery (R208 to R219). -/
structure EpochSt where
  isOpen : Bool
  radio : Bool
  restart : Nat
  /-- TCXO cycles since the opening, halted time left out. -/
  age : Nat
  /-- Gallery cycles since the opening. -/
  cyc : Nat
  /-- Instructions committed inside. -/
  instr : Nat
  /-- Tiles delivered to the vitrine inside. -/
  tiles : Nat
  /-- End in progress: a bound was reached or EP.COMMIT executed. -/
  ending : Bool
  /-- The radio's qualifier has passed (R219). -/
  pass : Bool
  /-- Squash asked for, cause code of R217, not yet taken. -/
  squash : Nat
  last : Nat
  bound : Nat
  satidx : Nat
  defer : Option Defer
  deriving DecidableEq, Repr

/-- Tag of a tile register (R220). -/
structure Tag where
  fmt : Nat
  half : Nat
  poison : Bool
  prov : Bool
  valid : Nat
  seq : Nat
  deriving DecidableEq, Repr

/-- A tile register with its tag. -/
structure TReg where
  data : Tile
  tag : Tag
  deriving DecidableEq, Repr

/-- Operations of the vector engine, by SUB (R129). -/
inductive VxSub
  | pop | ld | st | add | sub | mul | max | min | red | sum | cpr | exp | cvt | rq | act | cmp
  | bcst | min2 | sgnx
  deriving DecidableEq, Repr

/-- A vector instruction after issue: registers, D field, scalar operand read at issue. -/
structure VxInstr where
  sub : VxSub
  td : Fin 8
  ta : Fin 8
  tb : Fin 8
  sd : Fin 32
  d : Nat
  x : Nat
  /-- Issued inside the open epoch. -/
  ep : Bool
  /-- Vector mode: charted at issue. -/
  charted : Bool
  /-- Its number in the gallery's issue order of MX and VX instructions. -/
  n : Nat
  deriving DecidableEq, Repr

/-- The vector engine of a gallery (R220 to R245). -/
structure VecSt where
  t : Vector TReg 8
  ck : Vector TReg 8
  waiting : List VxInstr
  exec : Option VxInstr
  /-- Legend entry as the executing VX.RQ read it at its start (R199). -/
  rq : Leg
  /-- Software has written that entry since. -/
  rqDrop : Bool
  deriving DecidableEq, Repr

/-- What a skip job latched at its GO write (R246). -/
structure SkipLatch where
  nq : Nat
  np : Nat
  qpos : Nat
  kpos : Nat
  wback : Nat
  wfwd : Nat
  thr : Nat
  est : Nat
  list : Nat
  cnt : Nat
  qrow : Nat
  krow : Nat
  sscale : Nat
  zq : Int
  zk : Int
  minr : Nat
  exact : Bool
  deadline : Bool
  weak : Bool
  far : Bool
  deriving DecidableEq, Repr

/-- An open skip job: its latched inputs and the kept counts of the rows scanned so far. -/
structure SkipJob where
  l : SkipLatch
  kept : List Nat
  deriving DecidableEq, Repr

/-- A row pending at the audit sampler (R257): latched job, row, used count and the scores sent. -/
structure AuditRow where
  l : SkipLatch
  row : Nat
  used : Nat
  scores : List Int
  deriving DecidableEq, Repr

/-- The skip unit and audit sampler below their registers (R246 to R261). -/
structure SkipSt where
  job : Option SkipJob
  pend : List AuditRow
  /-- Running window: rows, largest MAXABS, sum of L1 (FP32 words). -/
  wcnt : Nat
  wmax : Nat
  wsum : Nat
  deriving DecidableEq, Repr

/-- The latched descriptor of an open stream (R269, R270). -/
structure StDesc where
  kind : Bool
  dirW : Bool
  idx32 : Bool
  sent : Bool
  cell : Bool
  notify : Bool
  n : Nat
  base : Nat
  rowbytes : Nat
  rows : Nat
  rstride : Int
  tstride : Int
  idxbase : Nat
  /-- Device address of slot 0. -/
  slot : Nat
  donecell : Nat
  deriving DecidableEq, Repr

/-- An open stream (R269 to R278). -/
structure StreamSt where
  desc : StDesc
  depth : Nat
  /-- Opened in task mode: rows are checked against grant regions. -/
  task : Bool
  /-- Opened inside the open epoch. -/
  prov : Bool
  /-- Tiles taken by ST.NEXT, released by ST.DONE, fetched or written by the unit. -/
  taken : Nat
  released : Nat
  moved : Nat
  /-- Tiles the stream has, once an index sentinel has been met. -/
  tiles : Nat
  lastRows : Nat
  ended : Bool
  err : Bool
  /-- ST.DONEs held in the open epoch, a held close, and a DONECELL add held. -/
  heldDone : Nat
  heldClose : Bool
  heldCell : Bool
  /-- Taken and released counts at EP.OPEN. -/
  ck : Option (Nat × Nat)
  deriving DecidableEq, Repr

/-- Carousel member state (R281). -/
inductive CarState
  | idle | starting | running | error
  deriving DecidableEq, Repr

/-- The carousel link of a gallery (R281 to R284); CAR_STAT shows it. -/
structure CarSt where
  st : CarState
  cur : Bool
  passed : Bool
  indone : Bool
  outdone : Bool
  errc : Nat
  step : Nat
  /-- Device addresses of BUF0 and BUF1, translated at START. -/
  buf : Vector Nat 2
  /-- The outgoing transfer of this step runs. -/
  sending : Bool
  deriving DecidableEq, Repr

/-- Occupancies and post count of an enabled ring (R290, R291). -/
structure RingSt where
  rocc : Nat
  socc : Nat
  seq : Nat
  deriving DecidableEq, Repr

/-- Who waits on a cell (R303). -/
inductive Waiter
  | curator (g : Fin 6)
  /-- Command record at an address, with its NRING halfword. -/
  | cmd (rec nring id : Nat)
  /-- Another station: station, tag and the trunk's die that brought it. -/
  | remote (die : Fin 2) (stn : Nat) (tag : Nat)
  deriving DecidableEq, Repr

/-- An armed wait, in arming order in the list (R302, R303). -/
structure Wait where
  who : Waiter
  cell : Nat
  eq : Bool
  opnd : Nat
  /-- Timeout in µs; `none` for SY.GATE. -/
  timeout : Option Nat
  /-- Hub ticks since it arrived. -/
  age : Nat
  deriving DecidableEq, Repr

/-- An RG.POPW waiting on an empty ring (R296). -/
structure PopWait where
  g : Fin 6
  ring : Nat
  buf : Nat
  timeout : Nat
  age : Nat
  deriving DecidableEq, Repr

/-- Issuer of a remote operation (R306). -/
inductive Issuer
  | curator (g : Fin 6)
  | cmd (rec nring id : Nat)
  | timetable (d : Fin 2) (entry : Nat)
  /-- Stream unit of gallery g, for the DONECELL add of stream n. -/
  | stream (g : Fin 6) (n : Nat)
  | carousel (g : Fin 6)
  deriving DecidableEq, Repr

/-- A remote operation waiting for its outcome (R306, R307). -/
structure RemoteOp where
  who : Issuer
  kind : HubKind
  stn : Nat
  index : Nat
  opnd : Nat
  /-- Timeout of a wait in µs; `none` for every other operation. -/
  timeout : Option Nat
  tag : Nat
  age : Nat
  deriving DecidableEq, Repr

/-- What the hub gives the trunk to carry (R306, R307, R483). -/
inductive HubTx
  | req (op : RemoteOp) (entry : List Byte)
  | resp (die : Fin 2) (stn tag code stamp value : Nat)
  | cancel (stn tag : Nat)
  deriving DecidableEq, Repr

/-- An outcome on its way back from the hub to a curator. -/
structure HubResp where
  code : Nat
  stamp : Nat
  value : Nat
  deriving DecidableEq, Repr

/-- A placed buffer or ring array of a work (R266). Tier 0 gallery store, 1 atrium, 2 stack,
3 flash. -/
structure Placed where
  tier : Nat
  gal : Nat
  addr : Nat
  size : Nat
  /-- Declared SIZE and share key, for R267. -/
  decl : Nat
  share : Option Nat
  write : Bool
  deriving DecidableEq, Repr

/-- An admitted work (R308 to R315). -/
structure Work where
  id : Nat
  cls : Nat
  tenant : Nat
  gals : List Nat
  radio : Option Nat
  carousel : Bool
  remote : Bool
  cellBase : Nat
  nCells : Nat
  /-- Buffer records of the manifest: grant regions 0 to nBuf - 1 are the work's. -/
  nBuf : Nat
  placed : List Placed
  rings : List Nat
  /-- Reserved bytes: gallery store, atrium, stack. -/
  bytesGs : Nat
  bytesAtr : Nat
  bytesStk : Nat
  /-- Energy reservation in mJ and, since the last charge in this hour, charge and energy used. -/
  energy : Nat
  charge : Nat
  used : Nat
  tag : Nat
  manifest : Nat
  deriving DecidableEq, Repr

/-- The hub and the admission controller (R287 to R315). -/
structure HubSt where
  /-- Sync cells, zero unlisted (R301). -/
  cells : SMap Nat
  /-- Poisoned cells (R509), rising. -/
  cellPoison : List Nat
  /-- Words of the hub's memory that hold an error no read has met yet: cell number, or 65536 plus
  ring number; value as in `Dev.ecc` (R506). -/
  ecc : SMap Nat
  rings : SMap RingSt
  waits : List Wait
  popWaits : List PopWait
  /-- Records of commands that wait for a remote outcome or a wait (R305). -/
  cmds : List Nat
  remotes : List RemoteOp
  /-- Requests and outcomes for the trunk, oldest first. -/
  txq : List HubTx
  /-- Outcomes on their way to the curators. -/
  resp : Vector (Option HubResp) 6
  /-- Next tag of a remote operation. -/
  tag : Nat
  /-- Hub microsecond ticks since power-up. -/
  ticks : Nat
  /-- Admitted works, in order of admission. -/
  works : List Work
  /-- Queued admission requests: manifest addresses, oldest first. -/
  admq : List Nat
  deriving DecidableEq, Repr

/-- Privilege modes of a host core (R316). -/
inductive HPriv
  | u | s | m
  deriving DecidableEq, Repr

/-- A 64-byte line of the host's data caches and L2 (R319). -/
structure HLine where
  data : List Byte
  dirty : Bool
  /-- Fetched or made poisoned (R264, R508). -/
  poison : Bool
  /-- An error no access has met yet: 0 none, 1 correctable, 2 not (R508). -/
  err : Nat
  deriving DecidableEq, Repr

/-- A write-back of a CBO that has not been performed at its target (R325). -/
structure HWb where
  core : Nat
  addr : Nat
  data : List Byte
  poison : Bool
  deriving DecidableEq, Repr

/-- One host core (R316). -/
structure HostCore where
  run : RunSt
  pc : DWord
  x : Vector DWord 32
  f : Vector DWord 32
  priv : HPriv
  /-- Control and status registers whose value is not 0, by number; the ones that are views or
  hard-wired are not kept here. 0x1000 + 2k and 0x1001 + 2k are tdata1 and tdata2 of trigger k. -/
  csr : SMap Nat
  wfi : Bool
  /-- Block reserved by LR, by physical address. -/
  resv : Option Nat
  /-- Blocks whose line in the L1 instruction cache holds a parity error no fetch has met yet
  (R508), rising. -/
  iperr : List Nat
  /-- Debug (R334): a step is due after a resume; the program buffer runs. -/
  step : Bool
  deriving DecidableEq, Repr

/-- The host cluster below its registers (R316 to R335). -/
structure HostSt where
  core : Vector HostCore 4
  /-- Lines of the L1 data caches and the L2, by block number: one coherent store (R319). -/
  cache : SMap HLine
  wb : List HWb
  /-- Blocks that the running L2 flush has still to write back (R322), rising. -/
  flushing : List Nat
  /-- Sources in service: claimed and not completed (R327), rising. -/
  claimed : List Nat
  /-- Debug module: its registers by DMI address, those that are 0 unlisted (R334). 0x80 to 0x83 hold
  a bit a hart: reset since the debugger last acknowledged it, resume acknowledged, halt request at
  reset, and halt request. -/
  dm : SMap Nat
  deriving DecidableEq, Repr

/-- Detector of a field radio (R357, RF_STAT.DET). -/
inductive Det
  | armed
  | qualifying
  | capturing
  | waiting
  deriving DecidableEq, Repr

/-- An open capture record (R360, R361). -/
structure Rec where
  /-- Address of the record. -/
  addr : Nat
  /-- WSEQ at its opening. -/
  seq : Nat
  /-- Symbols reported through the progress cell. -/
  sym : Nat
  txovl : Bool
  rxsat : Bool
  werr : Bool
  deriving DecidableEq, Repr

/-- The trigger the detector follows (R357 to R361). Sample indices count from the capture's first
sample, t0 - 128. -/
structure Trig where
  /-- Samples taken so far. -/
  n : Nat
  /-- Position in its superframe and station time of the boundary of that superframe, of sample 0. -/
  pos0 : Nat
  sf0 : Nat
  trust : Bool
  rssi : Nat
  /-- Index of the best lag after a pass, with its QPEAK and antenna. -/
  tau : Option Nat
  qpeak : Nat
  qant : Nat
  /-- Format word and slots, once decided. -/
  fmt : Option Nat
  len : Nat
  /-- The decision of the qualifier is made. -/
  decided : Bool
  capt : Option Rec
  deriving DecidableEq, Repr

/-- A transmission on one antenna (R365 to R367); times in station-time units. -/
structure Tx where
  k : Nat
  len : Nat
  addr : Nat
  /-- G0. -/
  g0 : Nat
  up : Option Nat
  down : Option Nat
  under : Bool
  deriving DecidableEq, Repr

/-- A field radio below its registers (R336 to R367). -/
structure RadioSt where
  /-- Grid points of each receive port, newest first. -/
  gp : Vector (List (Int × Int)) 4
  /-- Baseband samples of each antenna, newest first. -/
  bb : Vector (List (Int × Int)) 4
  /-- Position of the next sample in its superframe, and station time of that superframe's
  boundary. -/
  pos : Nat
  sf : Nat
  /-- Station time of the latest boundary that RF_SFN counted. -/
  bnd : Nat
  /-- A realignment waits for the next sample (R337). -/
  realign : Bool
  det : Det
  /-- Samples since the arming, up to 16. -/
  armN : Nat
  /-- A re-arm condition of R357 has been met after a failure. -/
  rearm : Bool
  trig : Option Trig
  /-- The record configuration failed its check (R360). -/
  cfgBad : Bool
  tx : Vector (Option Tx) 4
  /-- Samples since the last fall of a PA_EN, up to 16. -/
  paN : Nat
  /-- The deliverer's configuration failed its check (R381). -/
  rcvBad : Bool
  deriving DecidableEq, Repr


/-- Temperature of an RTD input in m°C with its TINV mark (R406). -/
structure Temp where
  t : Int
  tinv : Bool
  deriving DecidableEq, Repr

/-- Measurement of one direction of a shot (R395 to R397): raw samples, onset index and raw classic
time. -/
structure MeasDir where
  raw : List Int
  ion : Option Nat
  tc : Int
  under : Bool
  order : Bool
  noecho : Bool
  deriving DecidableEq, Repr

/-- Where a shot stands (R393). -/
inductive ShotPhase
  | down | up | pick | ready
  deriving DecidableEq, Repr

/-- A shot in progress (R393). -/
structure Shot where
  seq : Nat
  /-- TSTART, ns. -/
  t0 : Nat
  trust : Bool
  caldef : Bool
  brown : Bool
  phase : ShotPhase
  /-- PATH_DRV to PATH_GAPMAX as latched at the start edge (R419). -/
  cfg : List Nat
  /-- Temperatures of the latest round completed before the start edge (R406). -/
  temps : Vector Temp 4
  round : Nat
  dn : Option MeasDir
  up : Option MeasDir
  /-- TCXO cycle of the end of the pick window (R399). -/
  wend : Nat
  /-- PSTAT and the latched learned times (R399). -/
  pstat : Nat
  learned : Option (Int × Int)
  deriving DecidableEq, Repr

/-- A metering path below its registers. -/
structure MPath where
  shot : Option Shot
  seq : Nat
  /-- Start edge of the previous valid shot, ns (R403). -/
  prev : Option Nat
  deriving DecidableEq, Repr

/-- An RTD round in progress (R406): inputs still to convert, and the inputs whose conversion was
valid. -/
structure RtdRound where
  left : List (Fin 4)
  cfg : Vector Nat 4
  valid : Vector Bool 4
  brown : Bool
  deriving DecidableEq, Repr

/-- An accumulator (R410): totals and binary64 remainder. -/
structure AccSt where
  tot : Int
  rr : Int
  r : Nat
  deriving DecidableEq, Repr

/-- A pulse output below its registers (R412, R413): binary64 remainder q, a pulse runs, and TCXO
cycle and width of the latest pulse start. -/
structure PulseSt where
  q : Nat
  on : Bool
  start : Option Nat
  width : Nat
  deriving DecidableEq, Repr

/-- A station-power channel (R414, R415). -/
structure SpSt where
  /-- Configuration in force. -/
  cfg : Nat
  range : Nat
  /-- Samples still to be replaced. -/
  hold : Nat
  /-- Unreplaced samples in a row with |D| < 3 × 2^19. -/
  quiet : Nat
  good : Int
  /-- Sum of the tick's converted values. -/
  sum : Int
  deriving DecidableEq, Repr

/-- Metering engine of an I/O die below its registers (R391 to R420). -/
structure MtrSt where
  path : Vector MPath 2
  round : Option RtdRound
  /-- Temperatures of the latest completed round. -/
  temps : Vector Temp 4
  /-- Inputs with a valid conversion since EN rose. -/
  seen : Vector Bool 4
  /-- Station time of the latest write of PRESS, ns. -/
  press : Option Nat
  acc : Vector AccSt 16
  po : Vector PulseSt 4
  sp : Vector SpSt 6
  /-- Samples of the running tick taken so far, and one of them fell in a brownout. -/
  spN : Nat
  spBad : Bool
  /-- ns of TIME_ERR below 1 ms (R409). -/
  errNs : Nat
  deriving DecidableEq, Repr

/-- A corrected value num × 2^-e, exact (R426). -/
structure Corr where
  num : Int
  e : Nat
  deriving DecidableEq, Repr

/-- A ΣΔ input (R427 to R429). -/
structure SdSt where
  cfg : Nat
  step : Nat
  hold : Nat
  quiet : Nat
  good : Corr
  deriving DecidableEq, Repr

/-- A sample as delivered: sample word and corrected value. -/
structure AcSample where
  w : Nat
  c : Corr
  deriving DecidableEq, Repr

/-- A frame in progress (R432 to R434). -/
structure AcFrame where
  seq : Nat
  /-- Its buffer was not free: it is dropped whole. -/
  drop : Bool
  disc : Bool
  t0 : Nat
  trust : Bool
  caldef : Bool
  /-- FRAMELEN, and the drops since the previous published frame. -/
  len : Nat
  dropped : Nat
  /-- Samples of each channel, newest first. -/
  ch : List (List AcSample)
  deriving DecidableEq, Repr

/-- A capture group below its registers. -/
structure GrpSt where
  frame : Option AcFrame
  /-- A complete frame waits for its publication. -/
  done : Option AcFrame
  /-- Frames dropped since the latest frame that was started; the next frame carries DISC. -/
  dropped : Nat
  disc : Bool
  deriving DecidableEq, Repr

/-- Acoustic block of an I/O die (R422 to R435). -/
structure AcoSt where
  sd : Vector SdSt 8
  grp : Vector GrpSt 4
  deriving DecidableEq, Repr

/-- Station time and its discipline, one for the device: I/O die 1 takes its count from I/O die 0
(R15, R442 to R447). -/
structure TimeSt where
  /-- Station time in units of 2^-40/24 ns: a nominal TCXO cycle is 625 × 2^40 of them. -/
  units : Nat
  /-- Remaining slew, in the same units. -/
  slew : Int
  /-- A TS_STEP that takes effect at the next TCXO cycle, ns. -/
  step : Option Int
  /-- TCXO cycles since the last captured PPS edge. -/
  ppsAge : Option Nat
  /-- The PPSMISS timer, in TCXO cycles, while it runs. -/
  ppsTimer : Option Nat
  /-- Consecutive captures within LOCKTHR. -/
  ppsGood : Nat
  deriving DecidableEq, Repr

/-- A deadline mark on its way (R451): its fire time F in ns and whether it fired late. -/
structure Mark where
  f : Nat
  late : Bool
  deriving DecidableEq, Repr

/-- Timetable of an I/O die below its registers (R449 to R456). -/
structure TtSt where
  /-- Entries that R452 or R453 makes fire late, each with the TCXO cycle count after which it does. -/
  late : List (Nat × Nat)
  /-- Marks to the radio's deliverer that have not arrived. -/
  radMarks : List Mark
  /-- Marks to galleries that have not arrived. -/
  galMarks : List Nat
  /-- Alarms whose time the count has passed and that have not fired yet (R441). -/
  almDue : Nat
  deriving DecidableEq, Repr


/-- A frame that waits for a trunk link or is being sent (R462, R465). -/
structure QFrame where
  /-- Header, payload and CRC-32. -/
  bytes : List Byte
  cls : Nat
  credits : Nat
  /-- Link whose receive buffer it still occupies: a transit frame. -/
  ingress : Option (Fin 2)
  /-- SEQ of the bulk request it serves. -/
  bulk : Option Nat
  deriving DecidableEq, Repr

/-- An exchange of time transfer in progress (R476). -/
structure Exch where
  seq : Nat
  tag : Nat
  t1 : Nat
  start : Nat
  deriving DecidableEq, Repr

/-- Asymmetry calibration (R480): exchanges asked for, exchanges done and their sum, ps. -/
structure Acal where
  n : Nat
  k : Nat
  sum : Int
  deriving DecidableEq, Repr

/-- A trunk link (R460 to R467). Times are TCXO cycles since the release of the die's reset. -/
structure LinkSt where
  up : Bool
  /-- Consecutive HELLO frames that passed every check. -/
  good : Nat
  upAt : Nat
  /-- Wrap active, with the N of the broken ring. -/
  wrap : Option Nat
  transit : Vector (List QFrame) 4
  own : Vector (List QFrame) 4
  /-- Class k takes its next frame from `own`. -/
  turn : Vector Bool 4
  tx : Option QFrame
  /-- Sent counts and latest cumulative grants of cell, ring and bulk, and the grants given here. -/
  sent : Vector Nat 3
  grant : Vector Nat 3
  given : Vector Nat 3
  exch : Option Exch
  /-- SEQ of the next exchange. -/
  seq : Nat
  acal : Option Acal
  /-- LOCK of the neighbour in its latest TT_RESP. -/
  nbrLock : Bool
  deriving DecidableEq, Repr

/-- A station heard (R469): hop count and time of the latest TOPO by link, and its payload. -/
structure TopoEnt where
  uid : Nat
  hear : Vector (Option (Nat × Nat)) 2
  payload : List Byte
  deriving DecidableEq, Repr

/-- A frame delivered here that its receiver has not taken: link, bytes and receive time in ns. -/
structure InFrame where
  link : Fin 2
  bytes : List Byte
  t : Nat
  /-- Taking it frees its receive buffer: no copy of it is forwarded. -/
  ret : Bool
  deriving DecidableEq, Repr

/-- A bulk request whose copies have not all left (R486). -/
structure BulkReq where
  seq : Nat
  left : Nat
  deriving DecidableEq, Repr

/-- Trunk of an I/O die below its registers (R460 to R489). -/
structure TrunkSt where
  link : Vector LinkSt 2
  map : List TopoEnt
  /-- N and time of the latest return of the station's own TOPO. -/
  ring : Option (Nat × Nat)
  /-- Time of the latest change of the map. -/
  changed : Nat
  /-- Broken spans: UID of the reporting station, and whether it lies west of the span (R471). -/
  breaks : List (Nat × Bool)
  inbox : List InFrame
  /-- Consecutive upstream exchanges within LOCKTHR, and time of the latest one. -/
  slGood : Nat
  slAt : Nat
  /-- UID of the root; this station's own or a heard one. -/
  root : Option Nat
  tag : Nat
  bulk : List BulkReq
  /-- DATA frames written: the next buffer's number. -/
  rxK : Nat
  deriving DecidableEq, Repr

/-- A serial port below its registers (R490 to R497). -/
structure CspSt where
  busy : Bool
  /-- CSP_XFER, CSP_CFG, CSP_NFRM and CSP_TO as latched at GO. -/
  xfer : Nat
  cfg : Nat
  nfrm : Nat
  tmo : Nat
  /-- Frames completed, bits done of the running frame, its word to send, and the bits received. -/
  frame : Nat
  bit : Nat
  cur : Nat
  acc : Nat
  /-- Select asserted. -/
  sel : Option (Fin 4)
  abort : Bool
  /-- Wait of R495: 1 RDY, 2 TX empty, 3 RX full; 0 none. -/
  why : Nat
  tx : List Nat
  rx : List Nat
  /-- Frames sent by the latest transfer, oldest first. -/
  sent : List Nat
  deriving DecidableEq, Repr

/-- A flash port below its registers (R500 to R505). -/
structure FlSt where
  /-- Last granule of the running window transaction. -/
  rdact : Option Nat
  /-- FL_CMD of the running session. -/
  cmd : Option Nat
  /-- The session has moved its bytes and polls. -/
  polling : Bool
  deriving DecidableEq, Repr

/-- Serial ports, GPIO pins and flash ports of an I/O die. -/
structure SerSt where
  csp : Vector CspSt 4
  /-- Levels that the board drives on GPIO[23:0]. -/
  pins : Nat
  fl : Vector FlSt 2
  deriving DecidableEq, Repr

/-- Test access port (R521 to R525) and the sensors' memory (R543). -/
structure TestSt where
  /-- Instruction register. -/
  ir : Nat
  /-- Update stage of the boundary register. -/
  cells : List Bool
  /-- SYSBUS: last address, data and status. -/
  addr : Nat
  data : Nat
  stat : Nat
  /-- Sensor k read at or above LIMIT at its last measurement. -/
  hot : Vector Bool 8
  deriving DecidableEq, Repr


/-- One gallery below its registers. -/
structure GalSt where
  arr : ArraySt
  leg : SMap Leg
  /-- Legend as reads of its window show it while an epoch is open (R207). -/
  legCk : Option (SMap Leg)
  ep : EpochSt
  vec : VecSt
  skip : SkipSt
  streams : Vector (Option StreamSt) 16
  car : CarSt
  /-- MX and VX instructions issued so far. -/
  iseq : Nat
  deriving DecidableEq, Repr

/-- The device. -/
structure Dev where
  /-- Which assembly it is (R1). -/
  asm : Asm
  /-- Number of free values drawn so far: the model's own field (log entry 1). -/
  free : Nat
  /-- Registers whose value is not their reset value, by device address. -/
  regs : SMap Nat
  /-- Bytes of the memory windows (R33), zeros unlisted. -/
  mem : List Host.Cell
  /-- 64-byte granules marked poisoned (R264), by granule number, strictly rising. -/
  poison : List Nat
  /-- 8-byte memory words that hold an error no read has met yet, by word number: 1 + b for a single
  wrong bit b of the 72, 255 for an error that cannot be corrected (R506, R507). -/
  ecc : SMap Nat
  bus : BusSt
  /-- Clock state of the compute-die islands and of the I/O-die islands (R24, R47). -/
  isl : Vector Isl 13
  ioIsl : Vector (Vector Isl 7) 2
  pwr : PowerSt
  ldg : LedgerSt
  die : Vector DieSt 2
  core : Vector CoreSt 8
  gal : Vector GalSt 6
  hub : HubSt
  time : TimeSt
  tt : Vector TtSt 2
  rad : Vector RadioSt 2
  /-- WARN level that each watchdog's latest load put in force, by the address of its WDG_CTL; 65,536
  unlisted (R515). -/
  wdogWarn : SMap Nat
  host : HostSt
  mtr : Vector MtrSt 2
  aco : Vector AcoSt 2
  trk : Vector TrunkSt 2
  ser : Vector SerSt 2
  test : TestSt
  deriving DecidableEq, Repr

/-- The machine: the device and the commands that wait, first in, first out. -/
structure State where
  pending : List Instr
  dev : Dev
  deriving DecidableEq, Repr

def Isl.init (w : Nat) : Isl := ⟨false, false, w, false⟩

def RailInit : Rail := ⟨false, false, 0, 0⟩

def PowerSt.init : PowerSt where
  phase := .off
  pwren := false
  steps := []
  order := []
  rails := Vector.replicate 9 RailInit
  settle := false
  gal := Vector.replicate 6 .gated
  zeroed := Vector.replicate 6 false
  ceil := #v[300, 300, 300, 300, 300, 300, 800]
  raises := Vector.replicate 7 none
  padLow18 := Vector.replicate 2 false
  padLow33 := Vector.replicate 2 false
  mtrLow := Vector.replicate 2 false

def LedgerSt.init : LedgerSt where
  tick := 0
  qRem := 0
  solar := 0
  tenRem := Vector.replicate 16 0
  prev := Vector.replicate 6 0
  mean := none
  fullCnt := 0
  restCnt := 0
  recalc := false
  qWrote := false
  act := Vector.replicate 6 (Vector.replicate 4 0)
  eRem := Vector.replicate 6 0
  est := Vector.replicate 6 0
  stage := .idle
  events := []

/-- Defaults of the calibration block (R98): offset and bytes, little-endian; every other byte 0. -/
def calDefaults : List (Nat × Nat × Nat) :=
  [(0x20, 4, 0x40000000), (0x24, 4, 0x40000000), (0x28, 4, 0x40000000), (0x2C, 4, 0x40000000),
   (0x30, 4, 1000000), (0xF0, 2, 0x8000), (0xF4, 2, 0x8000)]
  ++ ((List.range 64).map fun i => (0x50 + 2 * i, 2, 0x8000))
  ++ ((List.range 6).map fun i => (0x100 + 8 * i, 4, 0x40000000))
  ++ ((List.range 24).map fun i => (0x140 + 4 * i, 4, [40, 250, 2000, 12000].getD (i % 4) 0))

/-- Put a little-endian value into a byte map. -/
def putLe (m : SMap Byte) (a n v : Nat) : SMap Byte :=
  (List.range n).foldl (fun m i => SMap.set 0 m (a + i) (BitVec.ofNat 8 (v / 256 ^ i))) m

/-- The live view while defaults are in use (R100). -/
def calDefault : SMap Byte := calDefaults.foldl (fun m x => putLe m x.1 x.2.1 x.2.2) []

def DieSt.init : DieSt where
  inReset := false
  cold := true
  rom := .start
  romCdie := false
  deadPort := Vector.replicate 2 false
  tcxo := 0
  vbat := true
  stnNum := 0
  otp := []
  otpBusy := none
  calNv := []
  calLive := calDefault
  calStage := []
  wear := 0
  ended := false
  commit := none

def CoreSt.init : CoreSt where
  run := .reset
  pc := 0
  sr := Vector.replicate 32 0
  status := 5
  epc := 0
  cause := 0
  badaddr := 0
  evec := 0
  scratch := Vector.replicate 2 0
  ien := 0
  soft := false
  lc := Vector.replicate 2 0
  ls := Vector.replicate 2 0
  le := Vector.replicate 2 0
  farbase := 0
  cycle := 0
  cycleh := 0
  instret := 0
  instreth := 0
  charted := false
  gxstat := 0
  slot := none
  shadow := none
  sb := []
  load := none
  stall := .none
  sbErr := none
  intPoint := false
  haltReq := false
  mustRun := false
  resumed := false

def ArrIssue.init : ArrIssue where
  mode := 0
  active := false
  valid := Vector.replicate 2 false
  fmt := Vector.replicate 2 0
  chain := none

def Plane.init : Plane := ⟨false, 0, false, []⟩

def ArraySt.init : ArraySt where
  iss := .init
  queue := []
  mode := 0
  active := false
  planes := Vector.replicate 2 .init
  loader := none
  flight := []
  acc := []
  accSat := []
  accPoison := false
  vit := []
  seq := 0
  last := none
  frozen := 0
  ck := none
  epLoads := Vector.replicate 2 false

/-- A legend entry at reset: zero, with RECIP +∞ and ZERO 1. -/
def Leg.init : Leg where
  scale := 0
  insc := 0
  ctl := 0
  mult := 0
  shift := 0
  range := false
  zero := true
  recip := 0x7F800000
  wide := false
  hist := []
  step := none
  pend := []

def EpochSt.init : EpochSt where
  isOpen := false
  radio := false
  restart := 0
  age := 0
  cyc := 0
  instr := 0
  tiles := 0
  ending := false
  pass := false
  squash := 0
  last := 0
  bound := 0
  satidx := 0
  defer := none

/-- Tag INT32, 32 valid rows (R245). -/
def Tag.init : Tag := ⟨2, 0, false, false, 32, 0⟩

def TReg.init : TReg := ⟨[], .init⟩

def VecSt.init : VecSt where
  t := Vector.replicate 8 .init
  ck := Vector.replicate 8 .init
  waiting := []
  exec := none
  rq := .init
  rqDrop := false

def SkipSt.init : SkipSt := ⟨none, [], 0, 0, 0⟩

def CarSt.init : CarSt := ⟨.idle, false, false, false, false, 0, 0, Vector.replicate 2 0, false⟩

def GalSt.init : GalSt where
  arr := .init
  leg := []
  legCk := none
  ep := .init
  vec := .init
  skip := .init
  streams := Vector.replicate 16 none
  car := .init
  iseq := 0

def HubSt.init : HubSt where
  cells := []
  cellPoison := []
  ecc := []
  rings := []
  waits := []
  popWaits := []
  cmds := []
  remotes := []
  txq := []
  resp := Vector.replicate 6 none
  tag := 0
  ticks := 0
  works := []
  admq := []

def HostCore.init : HostCore where
  run := .reset
  pc := 0
  x := Vector.replicate 32 0
  f := Vector.replicate 32 0
  priv := .m
  csr := []
  wfi := false
  resv := none
  iperr := []
  step := false

def HostSt.init : HostSt := ⟨Vector.replicate 4 .init, [], [], [], [], []⟩

/-- The value in use before any conversion (R406). -/
def Temp.init : Temp := ⟨20000, true⟩

def MtrSt.init : MtrSt where
  path := Vector.replicate 2 ⟨none, 0, none⟩
  round := none
  temps := Vector.replicate 4 .init
  seen := Vector.replicate 4 false
  press := none
  acc := Vector.replicate 16 ⟨0, 0, 0⟩
  po := Vector.replicate 4 ⟨0, false, none, 0⟩
  sp := Vector.replicate 6 ⟨0, 0, 0, 0, 0, 0⟩
  spN := 0
  spBad := false
  errNs := 0

def AcoSt.init : AcoSt where
  sd := Vector.replicate 8 ⟨0x780, 0, 0, 0, ⟨0, 0⟩⟩
  grp := Vector.replicate 4 ⟨none, none, 0, false⟩

/-- A link that is down: no credit is used and every grant is its buffer's size (R466). -/
def LinkSt.init : LinkSt where
  up := false
  good := 0
  upAt := 0
  wrap := none
  transit := Vector.replicate 4 []
  own := Vector.replicate 4 []
  turn := Vector.replicate 4 false
  tx := none
  sent := Vector.replicate 3 0
  grant := #v[512, 1024, 4096]
  given := #v[512, 1024, 4096]
  exch := none
  seq := 0
  acal := none
  nbrLock := false

def TrunkSt.init : TrunkSt where
  link := Vector.replicate 2 .init
  map := []
  ring := none
  changed := 0
  breaks := []
  inbox := []
  slGood := 0
  slAt := 0
  root := none
  tag := 0
  bulk := []
  rxK := 0

def TimeSt.init : TimeSt := ⟨0, 0, none, none, none, 0⟩

def TtSt.init : TtSt := ⟨[], [], [], 0⟩

def RadioSt.init : RadioSt where
  gp := Vector.replicate 4 []
  bb := Vector.replicate 4 []
  pos := 0
  sf := 0
  bnd := 0
  realign := true
  det := .armed
  armN := 0
  rearm := false
  trig := none
  cfgBad := false
  tx := Vector.replicate 4 none
  paN := 16
  rcvBad := false

def CspSt.init : CspSt := ⟨false, 0, 0, 0, 0, 0, 0, 0, 0, none, false, 0, [], [], []⟩

def FlSt.init : FlSt := ⟨none, none, false⟩

def SerSt.init : SerSt := ⟨Vector.replicate 4 .init, 0, Vector.replicate 2 .init⟩

/-- IDCODE is selected (R521). -/
def TestSt.init : TestSt := ⟨2, [], 0, 0, 0, Vector.replicate 8 false⟩

def BusSt.init : BusSt := ⟨[], [], [], [], []⟩

/-- The device right after its first power-on reset has been released (R78 to R83). RST_CAUSE
records the power-on: RETLOST reads 1 by its reset value and SEEN bit 0 is 1 (R80). The calibration
block fails its check, so that defaults are in use (R100, log entry 24). -/
def Dev.reset (a : Asm) : Dev where
  asm := a
  free := 0
  regs := if a.iodies = 2
    then [(0x10050000, 0x80000000), (0x10058000, 0x80000001), (0x11050000, 0x80000000),
      (0x11058000, 0x80000001)]
    else [(0x10050000, 0x80000000), (0x10058000, 0x80000001)]
  mem := []
  poison := []
  ecc := []
  bus := .init
  isl := Vector.ofFn fun i : Fin 13 => Isl.init (R.iccReset a 0 i.val 0)
  ioIsl := Vector.replicate 2 (Vector.ofFn fun i : Fin 7 =>
    ⟨decide (i.val < 2), false, R.ioIccReset a 0 i.val 0, false⟩)
  pwr := .init
  ldg := .init
  die := Vector.replicate 2 .init
  core := Vector.replicate 8 .init
  gal := Vector.replicate 6 .init
  hub := .init
  time := .init
  tt := Vector.replicate 2 .init
  rad := Vector.replicate 2 .init
  wdogWarn := []
  host := .init
  mtr := Vector.replicate 2 .init
  aco := Vector.replicate 2 .init
  trk := Vector.replicate 2 .init
  ser := Vector.replicate 2 .init
  test := .init

/-- The machine right after reset: assembly IBZ6-M4B, every resource fitted (log entry 4). -/
def State.reset : State := ⟨[], Dev.reset .m4b⟩

end Sys2Proof.Machine
end

