-- ==== Sys2Proof/Machine/Ops.lean ====
section
/-!
DEFINITION. Named operations over registers, memory, free values and status bits. Every unit reads
and writes the device through these.
-/

namespace Sys2Proof.Machine

/-! ### Registers (R8, R36) -/

/-- Value a register holds: its reset value unless listed. -/
def Dev.rg (s : Dev) (r : RegDef) (k : Nat := 0) (i : Nat := 0) (j : Nat := 0) : Nat :=
  SMap.get (r.rst s.asm k i j) s.regs (r.addr k i j)

/-- Set the value a register holds. -/
def Dev.wr (s : Dev) (r : RegDef) (v : Nat) (k : Nat := 0) (i : Nat := 0) (j : Nat := 0) : Dev :=
  { s with regs := SMap.set (r.rst s.asm k i j) s.regs (r.addr k i j) (v % 2 ^ r.w) }

/-- Field `hi:lo` of a register. -/
def Dev.fld (s : Dev) (r : RegDef) (hi lo : Nat) (k : Nat := 0) (i : Nat := 0) (j : Nat := 0) :
    Nat := bits (s.rg r k i j) hi lo

/-- Bit `b` of a register. -/
def Dev.bt (s : Dev) (r : RegDef) (b : Nat) (k : Nat := 0) (i : Nat := 0) (j : Nat := 0) : Bool :=
  bit (s.rg r k i j) b == 1

/-- Replace field `hi:lo` of a register. -/
def Dev.setF (s : Dev) (r : RegDef) (hi lo v : Nat) (k : Nat := 0) (i : Nat := 0) (j : Nat := 0) :
    Dev := s.wr r (setBits (s.rg r k i j) hi lo v) k i j

/-- Set one bit of a register. -/
def Dev.setB (s : Dev) (r : RegDef) (b : Nat) (v : Bool) (k : Nat := 0) (i : Nat := 0)
    (j : Nat := 0) : Dev := s.setF r b b (b2n v) k i j

/-- Set the bits of `m` in a register (an event sets status bits). -/
def Dev.orR (s : Dev) (r : RegDef) (m : Nat) (k : Nat := 0) (i : Nat := 0) (j : Nat := 0) : Dev :=
  s.wr r (s.rg r k i j ||| m) k i j

/-- Count `n` events: counters saturate at their maximum. -/
def Dev.count (s : Dev) (r : RegDef) (n : Nat := 1) (k : Nat := 0) (i : Nat := 0) (j : Nat := 0) :
    Dev := s.wr r (min (s.rg r k i j + n) (2 ^ r.w - 1)) k i j

/-- Put a register back to its reset value. -/
def Dev.rstR (s : Dev) (r : RegDef) (k : Nat := 0) (i : Nat := 0) (j : Nat := 0) : Dev :=
  { s with regs := SMap.erase s.regs (r.addr k i j) }

/-- The value after a write of `v`: RW and WO fields take the written bits, W1C bits written 1
clear, every other bit stays (R8, R40). -/
def wrMerge (r : RegDef) (old v : Nat) : Nat :=
  andNot (andNot old (r.mask .w1c &&& v)) (r.mask .rw) ||| (v &&& r.mask .rw)

/-- A plain register write: RW fields take the value, W1C bits clear, the rest is ignored
(R8, R40). -/
def Dev.plainWrite (s : Dev) (r : RegDef) (v : Nat) (k : Nat := 0) (i : Nat := 0) (j : Nat := 0) :
    Dev := s.wr r (wrMerge r (s.rg r k i j) v) k i j

/-- Reset every register from address `lo` up to, but not including, `hi`. -/
def Dev.rstRange (s : Dev) (lo hi : Nat) : Dev := { s with regs := SMap.clear s.regs lo hi }

/-! ### Free values (log entry 1) -/

/-- Draw a free value: nothing constrains it. -/
def Dev.draw (s : Dev) : Nat × Dev := (Config.free s.free, { s with free := s.free + 1 })

/-- Draw a free choice. -/
def Dev.drawB (s : Dev) : Bool × Dev := (Config.freeBool s.free, { s with free := s.free + 1 })

/-! ### Memory (R33, R37) -/

/-- First address of a gallery store. -/
def galStore (g : Nat) : Nat := 0x80000000 + g * 0x1000000

/-- First address of the registers of an I/O die. -/
def ioBase (d : Nat) : Nat := 0x10000000 + d * 0x1000000

/-- First address of the registers of a gallery. -/
def galBase (g : Nat) : Nat := 0x21000000 + g * 0x100000

/-- First address of the warden SRAM of an I/O die. -/
def wardenSram (d : Nat) : Nat := ioBase d + 0x800000

/-- First address of the atrium. -/
def atriumBase : Nat := 0x40000000

/-- First address of the window of flash port `p`. -/
def flashBase (p : Nat) : Nat := 0x100000000 + p * 0x20000000

/-- The byte at a device address; a byte nothing has written reads 0 (log entry 5). -/
def Dev.byte (s : Dev) (a : Nat) : Byte :=
  if a < 0x10000 then Config.romByte a else SMap.get 0 s.mem a

/-- Write a byte. -/
def Dev.setByte (s : Dev) (a : Nat) (b : Byte) : Dev := { s with mem := SMap.set 0 s.mem a b }

/-- `n` bytes from an address up. -/
def Dev.rdBytes (s : Dev) (a : Nat) : Nat → List Byte
  | 0 => []
  | n + 1 => s.byte a :: s.rdBytes (a + 1) n

/-- The `n`-byte little-endian word at an address. -/
def Dev.rdN (s : Dev) (a n : Nat) : Nat := leNat (s.rdBytes a n)

/-- Write bytes from an address up, into a memory list. -/
def memWrite (m : List Host.Cell) (a : Nat) : List Byte → List Host.Cell
  | [] => m
  | b :: bs => memWrite (SMap.set 0 m a b) (a + 1) bs

/-- Granules that a span of bytes touches, first and last. -/
def granules (a n : Nat) : List Nat :=
  if n = 0 then [] else (List.range ((a + n - 1) / 64 + 1 - a / 64)).map (· + a / 64)

/-- Is some granule of a span poisoned (R264)? -/
def Dev.poisoned (s : Dev) (a n : Nat) : Bool := (granules a n).any fun q => q ∈ s.poison

/-- Put a granule number into a rising list. -/
def insGran (q : Nat) : List Nat → List Nat
  | [] => [q]
  | x :: l => if q < x then q :: x :: l else if q = x then x :: l else x :: insGran q l

/-- Poison the granules of a span (R264). -/
def Dev.setPoison (s : Dev) (a n : Nat) : Dev :=
  { s with poison := (granules a n).foldl (fun l q => insGran q l) s.poison }

/-- Drop the poison mark of every granule that a write of `n` bytes at `a` covers whole: a
whole-granule write replaces the poisoned data (R264). -/
def Dev.wipePoison (s : Dev) (a n : Nat) : Dev :=
  { s with poison := s.poison.filter fun q => !(a ≤ q * 64 && q * 64 + 64 ≤ a + n) }

/-- A write leaves good code words behind where it covers a whole word (R507). -/
def Dev.eccWipe (s : Dev) (a n : Nat) : Dev :=
  { s with ecc := s.ecc.filter fun p => !(a ≤ 8 * p.1 && 8 * p.1 + 8 ≤ a + n) }

/-- Write bytes; a granule written whole loses its poison. -/
def Dev.wrBytes (s : Dev) (a : Nat) (l : List Byte) : Dev :=
  let s := (s.wipePoison a l.length).eccWipe a l.length
  { s with mem := memWrite s.mem a l }

/-- Write the low `n` bytes of `v`, little-endian. -/
def Dev.wrN (s : Dev) (a n v : Nat) : Dev := s.wrBytes a (leBytes n v)

/-- Zero a range of memory and its poison marks. -/
def Dev.zeroMem (s : Dev) (lo hi : Nat) : Dev :=
  { s.eccWipe lo (hi - lo) with
    mem := SMap.clear s.mem lo hi
    poison := s.poison.filter fun q => !(lo ≤ q * 64 && q * 64 + 64 ≤ hi) }

/-! ### Parts of the device -/

/-- Change gallery `g`. -/
def Dev.modGal (s : Dev) (g : Fin 6) (f : GalSt → GalSt) : Dev := { s with gal := vmod s.gal g f }

/-- Change core `c`. -/
def Dev.modCore (s : Dev) (c : Fin 8) (f : CoreSt → CoreSt) : Dev :=
  { s with core := vmod s.core c f }

/-- Change an I/O die. -/
def Dev.modDie (s : Dev) (d : Fin 2) (f : DieSt → DieSt) : Dev := { s with die := vmod s.die d f }

/-- Curator of a gallery. -/
def curator (g : Fin 6) : Fin 8 := ⟨g.val, by omega⟩

/-- Warden of an I/O die. -/
def warden (d : Fin 2) : Fin 8 := ⟨6 + d.val, by omega⟩

/-- Gallery of a curator; `none` for a warden. -/
def CoreId.gal (c : Fin 8) : Option (Fin 6) := if h : c.val < 6 then some ⟨c.val, h⟩ else none

/-- I/O die of a warden; `none` for a curator. -/
def CoreId.die (c : Fin 8) : Option (Fin 2) :=
  if h : 6 ≤ c.val then some ⟨c.val - 6, by omega⟩ else none

/-- Is the I/O die fitted (R1)? -/
def Dev.fitted (s : Dev) (d : Nat) : Bool := decide (d < s.asm.iodies)

/-- Initiator ID of a core (R46, CORE). -/
def coreIni (c : Fin 8) : Nat := if c.val < 6 then 8 + c.val else 0x18 + (c.val - 6)

/-- The compute die is on (CDIE_STATE). -/
def Dev.cdieOn (s : Dev) : Bool := s.pwr.phase == .on

/-- Gallery `g` is powered and out of reset (GAL_PWR). -/
def Dev.galUp (s : Dev) (g : Fin 6) : Bool := s.cdieOn && vget s.pwr.gal g == .run

/-- Gallery number as an index, when there is such a gallery. -/
def toGal (n : Nat) : Option (Fin 6) := if h : n < 6 then some ⟨n, h⟩ else none

/-- Switched I/O island `i` of a die is powered and not held in reset (R49, R54). -/
def Dev.ioUp (s : Dev) (d : Fin 2) (i : Fin 7) : Bool :=
  !(vget s.die d).inReset && (vget (vget s.ioIsl d) i).on && !(vget (vget s.ioIsl d) i).held

/-- Live calibration bytes as a little-endian number (R98, R100). -/
def Dev.cal (s : Dev) (d : Fin 2) (off n : Nat) : Nat :=
  leNat ((List.range n).map fun i => SMap.get 0 (vget s.die d).calLive (off + i))

/-- Apply a change when a condition holds. -/
def Dev.when (s : Dev) (b : Bool) (f : Dev → Dev) : Dev := if b then f s else s

/-! ### Outcomes -/

/-- Lift a change of the device to a command's outcome: the queue is untouched. -/
def ok (f : Dev → Dev) (s : State) : Host.Outcome State Fault Refusal :=
  .next { s with dev := f s.dev }

/-- A command of a unit of I/O die `d`: the die must be fitted (R24). -/
def onDie (d : Fin 2) (f : Dev → Dev) (s : State) : Host.Outcome State Fault Refusal :=
  if s.dev.fitted d.val then ok f s else .fault .unfitted

/-- A command of a core: the warden of a die that is not fitted does not exist (R24). -/
def onCore (c : Fin 8) (f : Dev → Dev) (s : State) : Host.Outcome State Fault Refusal :=
  if c.val = 7 && !s.dev.fitted 1 then .fault .unfitted else ok f s

end Sys2Proof.Machine
end

