-- ==== Sys2Proof/Machine/Time.lean ====
section
/-!
DEFINITION. Station time (R442 to R448) and the meridian's count (R436 to R441).
-/

namespace Sys2Proof.Machine

/-! ### Station time -/

/-- Units of one nanosecond. -/
def tsNs : Nat := 24 * 2 ^ 40

/-- Station time wraps at 2^64 ns. -/
def tsMod : Nat := 2 ^ 64 * tsNs

/-- Units of one tick of 625/24 ns (R443). -/
def tsTickUnits : Nat := 625 * 2 ^ 40

/-- NS (R442). -/
def Dev.ns (s : Dev) : Nat := s.time.units / tsNs

/-- FRAC (R442). -/
def Dev.frac (s : Dev) : Nat := s.time.units * 2 ^ 16 / tsNs % 2 ^ 16

/-- The tick count TK (R443). -/
def Dev.tk (s : Dev) : Nat := s.time.units / tsTickUnits

/-- OSF of the die-0 meridian. -/
def Dev.osf (s : Dev) : Bool := s.bt R.MER_STAT 31 0

/-- LOCK (R447). -/
def Dev.lock (s : Dev) : Bool := s.bt R.TS_STAT 31 0

/-- TRUST (R448). -/
def Dev.trust (s : Dev) : Bool := !s.osf && s.lock

/-- Add a signed amount of units to station time. -/
def tsAdd (u : Nat) (x : Int) : Nat := (((u : Int) + x) % (tsMod : Int)).toNat

/-- SRC (R445). -/
def Dev.tsSrc (s : Dev) : Nat := s.fld R.TS_CTL 1 0 0

/-- The slew of one TCXO cycle and what then remains (R444). -/
def slewCycle (sh : Nat) (rem : Int) : Int × Int :=
  let q : Int := 625 * 2 ^ (40 - sh)
  if rem ≤ q ∧ -q ≤ rem then (rem, 0) else if 0 < rem then (q, rem - q) else (-q, rem + q)

/-- TS_SLEW as a read shows it: the remaining amount in whole nanoseconds. How a remainder shows
is a free choice (log entry 6). -/
def Dev.slewView (s : Dev) : Nat :=
  let x := s.time.slew
  let q := x / (tsNs : Int)
  ofS 32 (if x % (tsNs : Int) = 0 ∨ Config.freeBool s.free then q else q + 1)

/-- Station time over one TCXO cycle (R442, R444). SLEWING falls through SLEW_COMPLETE, so a slew
whose last remainder is left stays for it. -/
def Dev.tsCycle (s : Dev) : Dev :=
  let fadj := toS 32 (s.rg R.TS_FADJ 0)
  let (dx, rem) := slewCycle (s.fld R.TS_CTL 20 16 0) s.time.slew
  let (dx, rem) := if s.time.slew != 0 && rem == 0 then (0, s.time.slew) else (dx, rem)
  let stp : Int := match s.time.step with | some n => n * (tsNs : Int) | none => 0
  let t := { s.time with
    units := tsAdd s.time.units (625 * 2 ^ 40 + 625 * fadj + dx + stp)
    slew := rem
    step := none
    ppsAge := s.time.ppsAge.map (· + 1)
    ppsTimer := s.time.ppsTimer.map (· + 1) }
  { s with time := t }

/-- Set or clear LOCK. -/
def Dev.setLock (s : Dev) (b : Bool) : Dev := s.setB R.TS_STAT 31 b 0

/-! ### Meridian -/

/-- The 55-bit count SEC:SUB of a die's meridian. -/
def Dev.merCount (s : Dev) (d : Nat) : Nat :=
  s.fld R.MER_SEC 39 0 d * 2 ^ 15 + s.fld R.MER_SUB 14 0 d

/-- The time of alarm `k`. -/
def Dev.almTime (s : Dev) (d k : Nat) : Nat :=
  s.fld R.ALM_SEC 39 0 d k * 2 ^ 15 + s.fld R.ALM_CTL 14 0 d k

/-- Alarms that a change of the count from `a` to `b` passes (R441). -/
def Dev.almPassed (s : Dev) (d a b : Nat) : Nat :=
  (List.range 4).foldl (fun m k =>
    if s.bt R.ALM_CTL 31 d k && decide (a < s.almTime d k) && decide (s.almTime d k ≤ b)
    then m ||| 2 ^ k else m) 0

/-- Change of one die's timetable state. -/
def Dev.modTt (s : Dev) (d : Fin 2) (f : TtSt → TtSt) : Dev := { s with tt := vmod s.tt d f }

/-- The count changes to `c` by counting or by a resume: alarms it passes become due. -/
def Dev.merTo (s : Dev) (d : Fin 2) (c : Nat) : Dev :=
  let c := c % 2 ^ 55
  let due := s.almPassed d (s.merCount d) c
  let s := (s.setF R.MER_SEC 39 0 (c / 2 ^ 15) d).setF R.MER_SUB 14 0 c d
  s.modTt d fun t => { t with almDue := t.almDue ||| due }

/-- Days of a year of the calendar view (R440). -/
def yearLen (y : Nat) : Nat := if (y % 4 = 0 ∧ y % 100 ≠ 0) ∨ y % 400 = 0 then 366 else 365

/-- Days of a month (R440). -/
def monthLen (y m : Nat) : Nat :=
  if m = 2 then yearLen y - 337 else if m = 4 ∨ m = 6 ∨ m = 9 ∨ m = 11 then 30 else 31

/-- Year and day of the year of a day count (R440). -/
def calYear : Nat → Nat → Nat → Nat × Nat
  | 0, y, d => (y, d)
  | n + 1, y, d => if yearLen y ≤ d then calYear n (y + 1) (d - yearLen y) else (y, d)

/-- Month and day of the month (R440). -/
def calMonth (y : Nat) : Nat → Nat → Nat → Nat × Nat
  | 0, m, d => (m, d)
  | n + 1, m, d => if monthLen y m ≤ d then calMonth y n (m + 1) (d - monthLen y m) else (m, d)

/-- MER_CAL0 of a second count (R440). -/
def calWord0 (sec : Nat) : Nat :=
  if sec < 6311433600 then
    let d := sec / 86400
    let (y, dy) := calYear 201 2000 d
    let (m, dm) := calMonth y 12 1 dy
    y * 2 ^ 20 + m * 2 ^ 16 + (dm + 1) * 2 ^ 11 + (d + 6) % 7 * 2 ^ 8 + 2 ^ 7
  else 0

/-- MER_CAL1 of a second count (R440). -/
def calWord1 (sec : Nat) : Nat :=
  if sec < 6311433600 then
    let r := sec % 86400
    r / 3600 * 2 ^ 16 + r % 3600 / 60 * 2 ^ 8 + r % 60
  else 0

/-- MWAKE_N is driven low while an alarm flag with WAKE is set (R441). -/
def Dev.mwake (s : Dev) (d : Nat) : Bool :=
  (List.range 4).any fun k => s.bt R.MER_STAT k d && s.bt R.ALM_CTL 30 d k

/-! ### Meanings of the meridian that post nothing -/

/-- Meridian domain reset (R436). -/
def Dev.merReset (s : Dev) (d : Fin 2) : Dev :=
  let b := ioBase d
  (s.rstRange (b + 0x20000) (b + 0x20080)).modTt d fun t => { t with almDue := 0 }

/-- VBAT_RISE. -/
def vbatRise (d : Fin 2) (low : Bool) (s : Dev) : Dev :=
  ((s.merReset d).setB R.MER_STAT 30 low d).modDie d fun x => { x with vbat := true }

/-- MERIDIAN_SECOND: SUB wraps and SEC rises by 1, unless HALT is 1 (R437, R439). -/
def meridianSecond (d : Fin 2) (s : Dev) : Dev :=
  if s.bt R.MER_CTL 31 d then s
  else s.merTo d ((s.fld R.MER_SEC 39 0 d + 1) * 2 ^ 15)

/-- The meridian over part of a crystal cycle: at most one crystal cycle passes in a TCXO cycle,
and which ones it does is free. SUB does not wrap here: MERIDIAN_SECOND wraps it. -/
def Dev.merCycle (s : Dev) (d : Fin 2) : Dev :=
  let (b, s) := s.drawB
  if !b || !(vget s.die d).vbat then s
  else if s.bt R.MER_CTL 31 d then
    s.wr R.MER_HOLD (min (s.rg R.MER_HOLD d + 1) (2 ^ 32 - 1)) d
  else if s.fld R.MER_SUB 14 0 d = 32767 then s
  else s.merTo d (s.merCount d + 1)

/-- Write of MER_CTL that sets or keeps HALT, or clears it (R439). -/
def merCtlWrite (d : Fin 2) (v : Nat) (s : Dev) : Dev :=
  let was := s.bt R.MER_CTL 31 d
  if bit v 31 = 1 then
    let s := s.setB R.MER_CTL 31 true d
    if was then s else s.wr R.MER_HOLD 0 d
  else
    let s := s.setB R.MER_CTL 31 false d
    if !was then s
    else if bit v 30 = 1 then s.merTo d (s.merCount d + s.rg R.MER_HOLD d)
    else s

/-- Write of MER_SEC (R439). -/
def merSecWrite (d : Fin 2) (v : Nat) (s : Dev) : Dev :=
  if s.bt R.MER_CTL 31 d then s.setF R.MER_SEC 39 0 v d else s.setB R.MER_STAT 27 true d

/-- Write of MER_SUB (R439). -/
def merSubWrite (d : Fin 2) (v : Nat) (s : Dev) : Dev :=
  if s.bt R.MER_CTL 31 d then s.setF R.MER_SUB 14 0 v d else s.setB R.MER_STAT 27 true d

end Sys2Proof.Machine
end

