-- ==== Sys2Proof/Machine/Fault.lean ====
section
/-!
DEFINITION. Memory errors and poison as every reader meets them (R506 to R513), and writes as they
clear them.
-/

namespace Sys2Proof.Machine

/-- Which protected memory an address lies in (R506). -/
inductive EccMem
  | store (g : Fin 6)
  | atrium
  | stack (k : Nat)
  | sram (d : Fin 2)
  deriving DecidableEq, Repr

/-- The protected memory of an address. -/
def eccMem (a : Nat) : Option EccMem :=
  if 0x80000000 ≤ a ∧ a < 0x86000000 then (toGal ((a - 0x80000000) / 0x1000000)).map .store
  else if 0x40000000 ≤ a ∧ a < 0x43000000 then some .atrium
  else if 0x800000000 ≤ a ∧ a < 0x1000000000 then some (.stack ((a - 0x800000000) / 0x200000000))
  else if 0x10800000 ≤ a ∧ a < 0x10820000 then some (.sram 0)
  else if 0x11800000 ≤ a ∧ a < 0x11820000 then some (.sram 1)
  else none

/-- Record a detection in a log whose registers are given by their instance and index (R511). -/
def Dev.elog (s : Dev) (ad inf cnt tm : RegDef) (k i j addr ini synd t : Nat) (recov : Bool) : Dev :=
  let s := s.count cnt 1 k i j
  if s.bt inf 31 k i j then s.setB inf 30 true k i j
  else
    ((s.wr ad addr k i j).wr inf (2 ^ 31 + b2n recov * 2 ^ 29 + ini * 2 ^ 16 + synd) k i j).wr tm t k i j

/-- Log a corrected (`ue` false) or uncorrectable error at a word of memory (R507, R511). -/
def Dev.logEcc (s : Dev) (m : EccMem) (ue : Bool) (addr ini synd : Nat) : Dev :=
  let u := b2n ue
  match m with
  | .store g => (s.elog R.GELOG_ADDR R.GELOG_INFO R.GELOG_CNT R.GELOG_TIME g u 0 addr ini synd
      (s.rg R.MTIME) false).orR R.GFLT_STAT (2 ^ u) g
  | .atrium => (s.elog R.CELOG_ADDR R.CELOG_INFO R.CELOG_CNT R.CELOG_TIME 0 0 u addr ini synd
      (s.rg R.MTIME) false).orR R.FLT_STAT (2 ^ u)
  | .stack k => (s.elog R.CELOG_ADDR R.CELOG_INFO R.CELOG_CNT R.CELOG_TIME 0 (k + 1) u addr ini synd
      (s.rg R.MTIME) false).orR R.FLT_STAT (2 ^ (2 + 4 * u + k))
  | .sram d => (s.elog R.AOELOG_ADDR R.AOELOG_INFO R.AOELOG_CNT R.AOELOG_TIME d u 0 addr ini synd
      s.ns false).orR R.AOFLT_STAT (2 ^ u) d

/-- ECC_DETECT at one word: a corrected word is rewritten, an uncorrectable one poisons its granule
(R507). -/
def Dev.eccWord (s : Dev) (ini w : Nat) : Dev :=
  let e := SMap.get 0 s.ecc w
  match eccMem (8 * w) with
  | none => s
  | some m =>
    if e = 0 then s
    else
      let s := { s with ecc := SMap.erase s.ecc w }
      if e = 255 then (s.setPoison (8 * w) 8).logEcc m true (8 * w) ini 0xFF
      else s.logEcc m false (8 * w) ini (e - 1)

/-- Words that a span of bytes touches and that hold an error, rising. -/
def Dev.eccHits (s : Dev) (a n : Nat) : List Nat :=
  (s.ecc.map (·.1)).filter fun w => decide (a / 8 ≤ w) && decide (8 * w < a + n)

/-- A read of `n` bytes at `a` by an initiator meets every error of its words (R507). -/
def Dev.meet (s : Dev) (ini a n : Nat) : Dev := (s.eccHits a n).foldl (fun s w => s.eccWord ini w) s

/-- Write bytes with a poison mark per granule (R264): whole granules of poisoned data are stored
marked. -/
def Dev.putPoison (s : Dev) (a : Nat) (l : List Byte) (p : Bool) : Dev :=
  let s := s.wrBytes a l
  if p then s.setPoison a l.length else s

/-- Copy `n` bytes between memories granule by granule, poison marks travelling along (R264). -/
def copyGranules (ini : Nat) : Nat → Nat → Nat → Dev → Dev
  | 0, _, _, s => s
  | n + 1, src, dst, s =>
    let s := s.meet ini src 64
    let p := s.poisoned src 64
    copyGranules ini n (src + 64) (dst + 64) (s.putPoison dst (s.rdBytes src 64) p)

/-- A consumption of poison by a unit of gallery `g` (R513). -/
def Dev.consume (s : Dev) (g : Fin 6) : Dev :=
  (s.count R.GFLT_POISONC 1 g).orR R.GFLT_STAT 4 g

end Sys2Proof.Machine
end

