-- ==== Sys2Proof/Machine/Hub.lean ====
section
/-!
DEFINITION. The hub: rings (R287 to R300), sync cells (R301 to R303), command records (R304, R305)
and the origin side of remote operations (R306, R307).
-/

namespace Sys2Proof.Machine

/-- Change of the hub's state. -/
def Dev.modHub (s : Dev) (f : HubSt → HubSt) : Dev := { s with hub := f s.hub }

/-- Lies a span wholly in the atrium (R33)? -/
def inAtrium (a n : Nat) : Bool := decide (0x40000000 ≤ a) && decide (a + n ≤ 0x43000000)

/-- Lies a span wholly in one fitted stack (R2, R33)? -/
def Dev.inStack (s : Dev) (a n : Nat) : Bool :=
  decide (0x800000000 ≤ a) && decide (a + n ≤ 0x800000000 + s.asm.stacks * 0x200000000)
    && decide (0 < n) && (a - 0x800000000) / 0x200000000 == (a + n - 1 - 0x800000000) / 0x200000000

/-- Put bytes over part of a list. -/
def putBytes (l : List Byte) (off : Nat) (b : List Byte) : List Byte :=
  l.take off ++ b ++ l.drop (off + b.length)

/-- `n` bytes with fields (offset, size, value) little-endian and zeros elsewhere. -/
def record (n : Nat) (fs : List (Nat × Nat × Nat)) : List Byte :=
  fs.foldl (fun l f => putBytes l f.1 (leBytes f.2.1 f.2.2)) (List.replicate n 0)

/-- A 64-byte entry with the given fields (R291). -/
def entry64 (fs : List (Nat × Nat × Nat)) : List Byte := record 64 fs

/-- This station's number, if it has one (R472). -/
def Dev.stn (s : Dev) : Option Nat :=
  if s.bt R.TRK_STN 31 0 then some (s.fld R.TRK_STN 9 0 0) else none

/-! ### Rings -/

/-- Occupancies and post count of a ring. -/
def Dev.ring (s : Dev) (r : Nat) : RingSt := SMap.get ⟨0, 0, 0⟩ s.hub.rings r

/-- Put a ring's occupancies and post count. -/
def Dev.setRing (s : Dev) (r : Nat) (x : RingSt) : Dev :=
  s.modHub fun h => { h with rings := SMap.set ⟨0, 0, 0⟩ h.rings r x }

/-- Is the ring enabled? -/
def Dev.ringEn (s : Dev) (r : Nat) : Bool := s.bt R.RING_CFG 31 0 r

/-- N of a ring (R290). -/
def Dev.ringN (s : Dev) (r : Nat) : Nat := 2 ^ s.fld R.RING_CFG 4 0 0 r

/-- S of a ring (R290). -/
def Dev.ringS (s : Dev) (r : Nat) : Nat := s.fld R.RING_SDEPTH 15 0 0 r

/-- Service class of a ring. -/
def Dev.ringClass (s : Dev) (r : Nat) : Nat := s.fld R.RING_CFG 29 28 0 r

/-- The ledger refuses posts of a class (R69). -/
def Dev.ledgerRefuses (s : Dev) (cls : Nat) : Bool :=
  (cls == 3 && (s.bt R.LDG_STAT 30 0 || s.bt R.LDG_STAT 29 0)) || (cls == 2 && s.bt R.LDG_STAT 29 0)

/-- Who posts, and what the hub writes of it (R291). -/
structure Poster where
  ini : Nat
  work : Nat
  /-- Source station of a remote post. -/
  remote : Option Nat

/-- Write an entry into a ring's array at index `i`: the producer's 64 bytes with SEQ, INFO, SRC,
INIT and WORKID (R291). -/
def Dev.ringStore (s : Dev) (r i : Nat) (p : Poster) (code stamp : Nat) (e : List Byte) : Dev :=
  let src := match p.remote with
    | some n => 0x8000 + n
    | none => s.stn.getD (Config.free s.free % 1024)
  let e := putBytes e 0 (leBytes 4 (s.ring r).seq ++ leBytes 4 (code + 16 * stamp) ++ leBytes 2 src
    ++ [BitVec.ofNat 8 p.ini, BitVec.ofNat 8 p.work])
  let c := leNat ((e.drop 12).take 2)
  let e := if p.remote.isSome then putBytes e 12 (leBytes 2 (c % 2 ^ 15)) else e
  let x := s.ring r
  (s.wrBytes (s.fld R.RING_BASE 39 6 0 r * 64 + i * 64) (e.take 64)).setRing r
    { x with seq := (x.seq + 1) % 2 ^ 32 }

/-- Put an entry into the reserved sub-queue (R290). -/
def Dev.enqReserved (s : Dev) (r : Nat) (p : Poster) (code : Nat) (e : List Byte) : Dev :=
  let x := s.ring r
  let t := s.fld R.RING_RPTR 15 0 0 r
  let s := s.ringStore r t p code (min (x.rocc + x.socc) (2 ^ 28 - 1)) e
  let s := s.setF R.RING_RPTR 15 0 ((t + 1) % (s.ringN r - s.ringS r)) 0 r
  let x := s.ring r
  s.setRing r { x with rocc := x.rocc + 1 }

/-- Put an entry into the surplus sub-queue (R290). -/
def Dev.enqSurplus (s : Dev) (r : Nat) (p : Poster) (code : Nat) (e : List Byte) : Dev :=
  let x := s.ring r
  let b := s.ringN r - s.ringS r
  let t := s.fld R.RING_SPTR 15 0 0 r
  let s := s.ringStore r t p code (min (x.rocc + x.socc) (2 ^ 28 - 1)) e
  let s := s.setF R.RING_SPTR 15 0 (b + (t - b + 1) % s.ringS r) 0 r
  let x := s.ring r
  s.setRing r { x with socc := x.socc + 1 }

/-- RING_POST_DECIDE: the code and delay stamp of a post to an enabled ring, and the device after
it (R292 to R294). Each outcome counts in its counter (R300). -/
def Dev.ringPost (s : Dev) (r : Nat) (p : Poster) (e : List Byte) : Nat × Nat × Dev :=
  let x := s.ring r
  let stamp := min (x.rocc + x.socc) (2 ^ 28 - 1)
  let b := s.rg R.RING_TOK 0 r
  let tok := decide (1000 ≤ b)
  if s.ledgerRefuses (s.ringClass r) then (4, stamp, s.count R.RING_RENERGY 1 0 r)
  else if tok ∧ x.rocc < s.ringN r - s.ringS r then
    (0, stamp, ((s.wr R.RING_TOK (b - 1000) 0 r).enqReserved r p 0 e).count R.RING_ACC 1 0 r)
  else if !tok ∧ s.bt R.RING_CFG 27 0 r then (3, stamp, s.count R.RING_RRATE 1 0 r)
  else if x.socc < s.ringS r then
    (1, stamp, (s.enqSurplus r p 1 e).count R.RING_DEF 1 0 r)
  else (2, stamp, s.count R.RING_RFULL 1 0 r)

/-- A hub post: past the ledger and the bucket, into the reserved sub-queue or else the surplus
one; lost if neither has room or the ring is not enabled (R299). -/
def Dev.hubPost (s : Dev) (r : Nat) (e : List Byte) : Dev :=
  let x := s.ring r
  let p : Poster := ⟨5, 0, none⟩
  if !s.ringEn r then s.count R.HUB_HPLOST
  else if x.rocc < s.ringN r - s.ringS r then (s.enqReserved r p 0 e).count R.RING_ACC 1 0 r
  else if x.socc < s.ringS r then (s.enqSurplus r p 1 e).count R.RING_DEF 1 0 r
  else s.count R.HUB_HPLOST

/-- A completion of an entry that leaves its ring (R299). -/
def Dev.complete (s : Dev) (r : Nat) (e : List Byte) (code : Nat) : Dev :=
  let c := leNat ((e.drop 12).take 2)
  if bit c 15 = 1 then
    s.hubPost (bits c 9 0) (entry64 [(0x10, 4, r), (0x14, 4, leNat (e.take 4)), (0x18, 4, code),
      (0x1C, 2, leNat ((e.drop 14).take 2))])
  else s

/-- Take the oldest entry of a ring that holds one, with its completion (R296, R299). -/
def Dev.ringTake (s : Dev) (r : Nat) : List Byte × Dev :=
  let x := s.ring r
  let base := s.fld R.RING_BASE 39 6 0 r * 64
  if 0 < x.rocc then
    let h := s.fld R.RING_RPTR 31 16 0 r
    let e := s.rdBytes (base + h * 64) 64
    let s := s.setF R.RING_RPTR 31 16 ((h + 1) % (s.ringN r - s.ringS r)) 0 r
    (e, s.setRing r { x with rocc := x.rocc - 1 })
  else
    let b := s.ringN r - s.ringS r
    let h := s.fld R.RING_SPTR 31 16 0 r
    let e := s.rdBytes (base + h * 64) 64
    let s := s.setF R.RING_SPTR 31 16 (b + (h - b + 1) % s.ringS r) 0 r
    (e, s.setRing r { x with socc := x.socc - 1 })

/-- Entries a ring holds. -/
def Dev.ringOcc (s : Dev) (r : Nat) : Nat := (s.ring r).rocc + (s.ring r).socc

/-- Address of the oldest entry of a ring. -/
def Dev.ringHead (s : Dev) (r : Nat) : Nat :=
  let h := if 0 < (s.ring r).rocc then s.fld R.RING_RPTR 31 16 0 r else s.fld R.RING_SPTR 31 16 0 r
  s.fld R.RING_BASE 39 6 0 r * 64 + h * 64

/-- RING_POP_PERFORM: copy the oldest entry to a buffer with its poison mark, free it and post its
completion with the code of its post (R296, R299, R512). -/
def Dev.popTo (s : Dev) (r buf : Nat) : Dev :=
  let a := s.ringHead r
  let s := s.meet 5 a 64
  let p := s.poisoned a 64
  let (e, s) := s.ringTake r
  (s.putPoison buf e p).complete r e (leNat ((e.drop 4).take 4) % 16)

/-- Answer a curator. -/
def Dev.answer (s : Dev) (g : Fin 6) (code stamp value : Nat) : Dev :=
  s.modHub fun h => { h with resp := vset h.resp g (some ⟨code, stamp, value⟩) }

/-- Serve waiting RG.POPWs in their order of arrival while their rings hold entries (R296). -/
def servePops : Nat → Dev → Dev
  | 0, s => s
  | n + 1, s =>
    match s.hub.popWaits.find? fun w => decide (0 < s.ringOcc w.ring) with
    | none => s
    | some w =>
      let s := s.modHub fun h => { h with popWaits := h.popWaits.erase w }
      servePops n ((s.popTo w.ring w.buf).answer w.g 8 0 0)

/-- Serve every waiting pop that can be served. -/
def Dev.serve (s : Dev) : Dev := servePops s.hub.popWaits.length s

/-- A post by a block of the device: its code, or `none` where the ring is not enabled. -/
def Dev.blockPost (s : Dev) (r ini : Nat) (fs : List (Nat × Nat × Nat)) : Option Nat × Dev :=
  if s.ringEn r then
    let (code, _, s) := s.ringPost r ⟨ini, 0, none⟩ (entry64 fs)
    (some code, s.serve)
  else (none, s)

/-- Was a post taken: ACCEPTED or DEFERRED? -/
def taken : Option Nat → Bool
  | some c => decide (c ≤ 1)
  | none => false

/-- A report of a block while the ring is enabled; a post that is not taken counts in `lost`. -/
def Dev.report (s : Dev) (r ini : Nat) (fs : List (Nat × Nat × Nat)) (lost : RegDef) (k : Nat) :
    Dev :=
  match s.blockPost r ini fs with
  | (none, s) => s
  | (some c, s) => if c ≤ 1 then s else s.count lost 1 k

/-! ### Enabling and disabling rings (R289, R290) -/

/-- The conditions for enabling ring `r` with configuration word `cfg`. -/
def Dev.ringEnableOk (s : Dev) (r cfg : Nat) : Bool :=
  let n := bits cfg 4 0
  let base := s.fld R.RING_BASE 39 6 0 r * 64
  let span := 64 * 2 ^ n
  let nt := bits cfg 19 16
  (inAtrium base span || s.inStack base span)
    && decide (4 ≤ n) && decide (n ≤ 16) && decide (s.ringS r < 2 ^ n)
    && (s.fld R.RING_RATE 31 16 0 r == 0 || decide (1 ≤ s.fld R.RING_RATE 15 0 0 r))
    && decide (1 ≤ bits cfg 29 28) && (decide (nt ≤ 6) || nt == 8)
    && !(decide (49 ≤ r) && decide (r ≤ 55))

/-- Both sub-queues empty, the post count 0 and the bucket full. -/
def Dev.ringStart (s : Dev) (r : Nat) : Dev :=
  let b := s.ringN r - s.ringS r
  let p := if s.ringS r = 0 then 0 else b * 2 ^ 16 + b
  let tok := if s.fld R.RING_RATE 31 16 0 r = 0 then 0 else s.fld R.RING_RATE 15 0 0 r * 1000
  ((s.wr R.RING_RPTR 0 0 r).wr R.RING_SPTR p 0 r).wr R.RING_TOK tok 0 r |>.setRing r ⟨0, 0, 0⟩

/-- Bits of RING_CFG that a write changes while the ring is disabled: CLASS is RO on the device
rings of a fitted die (R288). -/
def Dev.ringCfgMask (s : Dev) (r : Nat) : Nat :=
  if r ≤ 48 ∧ ¬ (R.ringOfDie1 r = true ∧ s.asm.iodies < 2) then 0x0E0F001F else 0x3E0F001F

/-- Clear EN: every queued entry is discarded and counted, and waiting pops time out (R289). With
`shed`, entries with CREQ leave with a SHED completion (R315). -/
def discardAll (shed : Bool) (r : Nat) : Nat → Dev → Dev
  | 0, s => s
  | n + 1, s =>
    if s.ringOcc r = 0 then s
    else
      let (e, s) := s.ringTake r
      let s := s.count R.RING_DROP 1 0 r
      discardAll shed r n (if shed then s.complete r e 6 else s)

/-- Complete with TIMEOUT every RG.POPW that waits on a ring. -/
def Dev.timeoutPops (s : Dev) (r : Nat) : Dev :=
  let ws := s.hub.popWaits.filter (·.ring == r)
  let s := s.modHub fun h => { h with popWaits := h.popWaits.filter (·.ring != r) }
  ws.foldl (fun s w => s.answer w.g 0xA 0 0) s

/-- Disable a ring (R289, R314, R315). The ring stops taking posts before its entries leave. -/
def Dev.ringDisable (s : Dev) (r : Nat) (shed : Bool) : Dev :=
  let s := s.setB R.RING_CFG 31 false 0 r
  let s := discardAll shed r (s.ringOcc r) s
  let s := ((s.wr R.RING_RPTR 0 0 r).wr R.RING_SPTR 0 0 r).setRing r ⟨0, 0, 0⟩
  s.timeoutPops r

/-- A software write of RING_CFG (R288, R289). -/
def ringCfgWrite (r : Nat) (v : Nat) (s : Dev) : Dev :=
  let old := s.rg R.RING_CFG 0 r
  let owned := bits old 15 8 != 0
  let m := s.ringCfgMask r
  if owned then s
  else if s.ringEn r then
    if bit v 31 = 0 then s.ringDisable r false else s
  else
    let new := andNot old m ||| (v &&& m)
    let new := if bit v 30 = 1 then setBits new 30 30 0 else new
    if bit v 31 = 0 then s.wr R.RING_CFG new 0 r
    else if s.ringEnableOk r new then
      (s.wr R.RING_CFG (setBits new 31 31 1) 0 r).ringStart r
    else s.setB R.RING_CFG 30 true 0 r

/-- A software write of RING_BASE, RING_RATE or RING_SDEPTH: ignored while the ring is enabled or
owned (R289). -/
def ringParamWrite (reg : RegDef) (r v : Nat) (s : Dev) : Dev :=
  if s.ringEn r || s.fld R.RING_CFG 15 8 0 r != 0 then s else s.plainWrite reg v 0 r

/-! ### Sync cells -/

/-- Value of a cell. -/
def Dev.cell (s : Dev) (c : Nat) : Nat := SMap.get 0 s.hub.cells c

/-- Set the value of a cell. -/
def Dev.putCell (s : Dev) (c v : Nat) : Dev :=
  s.modHub fun h => { h with cells := SMap.set 0 h.cells c (v % 2 ^ 32) }

/-- Does the value meet a wait's condition? -/
def Wait.met (w : Wait) (v : Nat) : Bool := if w.eq then v == w.opnd else decide (w.opnd ≤ v)

/-- Write a command record's VALUE and then RESULT; a NOTIFY of a wait posts to its ring
(R305). -/
def Dev.finishCmd (s : Dev) (rec nring id code stamp value : Nat) (wait : Bool) : Dev :=
  let s := (s.wrN (rec + 0x1C) 4 value).wrN (rec + 0x18) 4 (code + 16 * (if code = 1 then stamp else 0))
  let s := s.modHub fun h => { h with cmds := h.cmds.erase rec }
  if wait && bit nring 15 == 1 then
    (s.hubPost (bits nring 9 0)
      (entry64 [(0x10, 4, id), (0x14, 4, value), (0x18, 4, code), (0x20, 8, rec)])).serve
  else s

/-- Complete a wait of a cell. -/
def Dev.finishWait (s : Dev) (w : Wait) (code value : Nat) : Dev :=
  match w.who with
  | .curator g => s.answer g code 0 value
  | .cmd rec nring id => s.finishCmd rec nring id code 0 value true
  | .remote d stn tag => s.modHub fun h => { h with txq := h.txq ++ [.resp d stn tag code 0 value] }

/-- WAIT_SATISFIED: complete, in arming order, every wait on the cell that its value meets
(R302). -/
def Dev.testWaits (s : Dev) (c : Nat) : Dev :=
  let v := s.cell c
  let ws := s.hub.waits.filter fun w => w.cell == c && w.met v
  let s := s.modHub fun h => { h with waits := h.waits.filter fun w => !(w.cell == c && w.met v) }
  ws.foldl (fun s w => s.finishWait w 0 v) s

/-- Is a cell poisoned (R509)? -/
def Dev.cellBad (s : Dev) (c : Nat) : Bool := decide (c ∈ s.hub.cellPoison)

/-- Log an error of the hub's memory (R506, R511). -/
def Dev.logHub (s : Dev) (ue : Bool) (addr ini synd : Nat) : Dev :=
  (s.elog R.CELOG_ADDR R.CELOG_INFO R.CELOG_CNT R.CELOG_TIME 0 6 (b2n ue) addr ini synd
    (s.rg R.MTIME) false).orR R.FLT_STAT (2 ^ (12 + b2n ue))

/-- An operation reads a cell: a wrong bit is corrected, and an error that cannot be corrected
poisons the cell and times its waits out (R509). -/
def Dev.cellMeet (s : Dev) (ini c : Nat) : Dev :=
  let e := SMap.get 0 s.hub.ecc c
  let a := 0x28000000 + 16 * c
  if e = 0 then s
  else
    let s := s.modHub fun h => { h with ecc := SMap.erase h.ecc c }
    if e = 255 then
      let ws := s.hub.waits.filter fun w => w.cell == c
      let s := s.modHub fun h => { h with
        cellPoison := insGran c h.cellPoison, waits := h.waits.filter fun w => w.cell != c }
      ws.foldl (fun s w => s.finishWait w 0xA (s.cell c)) (s.logHub true a ini 0xFF)
    else s.logHub false a ini (e - 1)

/-- An operation reads the state of a ring: an error that cannot be corrected disables it with ERR
(R509). -/
def Dev.ringMeet (s : Dev) (ini r : Nat) : Dev :=
  let e := SMap.get 0 s.hub.ecc (65536 + r)
  let a := 0x29000000 + 64 * r
  if e = 0 then s
  else
    let s := s.modHub fun h => { h with ecc := SMap.erase h.ecc (65536 + r) }
    if e = 255 then ((s.logHub true a ini 0xFF).ringDisable r false).setB R.RING_CFG 30 true 0 r
    else s.logHub false a ini (e - 1)

/-- Set a cell: poison is cleared, and waits are tested (R301, R302, R509). -/
def Dev.cellSet (s : Dev) (c v : Nat) (ini : Nat := 5) : Dev :=
  let s := s.cellMeet ini c
  let s := s.modHub fun h => { h with cellPoison := h.cellPoison.filter (· != c) }
  (s.putCell c v).testWaits c

/-- Add to a cell modulo 2^32; a poisoned cell stays (R509). -/
def Dev.cellAdd (s : Dev) (c v : Nat) (ini : Nat := 5) : Dev :=
  let s := s.cellMeet ini c
  if s.cellBad c then s else (s.putCell c (s.cell c + v)).testWaits c

/-- Arm a wait, or complete it: at once if the value meets it, with TIMEOUT if its timeout is 0
(R302, R303). -/
def Dev.armWait (s : Dev) (w : Wait) : Dev :=
  let v := s.cell w.cell
  if s.cellBad w.cell then s.finishWait w 0xA v
  else if w.met v then s.finishWait w 0 v
  else if w.timeout = some 0 then s.finishWait w 0xA v
  else s.modHub fun h => { h with waits := h.waits ++ [w] }

/-! ### Identifiers and remote operations -/

/-- Is an identifier well-formed for a cell (R131)? -/
def idOkCell (id : Nat) : Bool := bits id 30 26 == 0

/-- Is an identifier well-formed for a ring (R131)? -/
def idOkRing (id : Nat) : Bool := bits id 30 26 == 0 && bits id 15 10 == 0

/-- Does an identifier name another station (R131)? -/
def Dev.foreign (s : Dev) (id : Nat) : Bool := bit id 31 == 1 && s.stn != some (bits id 25 16)

/-- Send an operation to another station (R306, R307). -/
def Dev.sendRemote (s : Dev) (who : Issuer) (kind : HubKind) (id opnd : Nat) (t : Option Nat)
    (e : List Byte) : Dev :=
  let op : RemoteOp := ⟨who, kind, bits id 25 16, bits id 15 0, opnd, t, s.hub.tag, 0⟩
  s.modHub fun h => { h with
    remotes := h.remotes ++ [op], txq := h.txq ++ [.req op e], tag := (h.tag + 1) % 2 ^ 32 }

/-- A refusal at a stream unit (R275, R276): counted, flagged and recorded. -/
def Dev.stErr (s : Dev) (g : Fin 6) (n : Fin 16) (cause addr : Nat) (wr : Bool) : Dev :=
  let s := (s.count R.ST_ERRS 1 g).orR R.ST_FLAGS 2 g
  let s := s.modGal g fun x => { x with
    streams := vmod x.streams n fun o => o.map fun t => { t with err := true } }
  if s.bt R.ST_ERRINFO 31 g then s
  else
    (s.wr R.ST_ERRINFO (2 ^ 31 + cause * 2 ^ 24 + n.val * 2 ^ 20 + b2n wr * 2 ^ 19) g).wr
      R.ST_ERRADDR addr g

/-- Complete the issuer of a remote operation. -/
def Dev.finishRemote (s : Dev) (op : RemoteOp) (code stamp value : Nat) : Dev :=
  match op.who with
  | .curator g => s.answer g code stamp value
  | .cmd rec nring id =>
    s.finishCmd rec nring id code stamp value (op.kind == .waitge || op.kind == .waiteq)
  | .stream g n =>
    if code = 5 then
      s.stErr g (Fin.ofNat 16 n) 9 (2 ^ 31 + op.stn * 2 ^ 16 + op.index) true
    else s
  | .timetable _ _ | .carousel _ => s

/-- REMOTE_OUTCOME (R306): a refusal counts. A satisfaction for which nothing waits any more is
discarded and counted (R307). -/
def remoteOutcome (tag code stamp v : Nat) (s : Dev) : Dev :=
  match s.hub.remotes.find? (·.tag == tag) with
  | none => s.count R.HUB_RLATE
  | some op =>
    let s := s.modHub fun h => { h with remotes := h.remotes.erase op }
    let s := if code = 5 then s.count R.HUB_RREF else s
    s.finishRemote op code stamp (if code = 5 then 0 else v)

/-- HUB_RTO in µs; 0 reads as 1. -/
def Dev.rto (s : Dev) : Nat := max 1 (s.rg R.HUB_RTO)

/-- A remote operation bounded by HUB_RTO: every one but a wait with a timeout of its own (R306,
R307). -/
def RemoteOp.byRto (op : RemoteOp) : Bool := match op.timeout with | some (_ + 1) => false | _ => true

/-- REMOTE_TIMEOUT: no outcome within HUB_RTO (R306). -/
def remoteTimeout (tag : Nat) (s : Dev) : Dev :=
  match s.hub.remotes.find? (·.tag == tag) with
  | none => s
  | some op =>
    if op.byRto && decide (s.rto < op.age) then
      let s := s.modHub fun h => { h with remotes := h.remotes.erase op }
      (s.count R.HUB_RREF).finishRemote op 5 0 0
    else s

/-- REMOTE_WAIT_TIMEOUT: a remote wait times out here and a CANCEL is sent (R307, R484). The value
the origin returns is not stated: a free value (log entry 8). -/
def remoteWaitTimeout (tag : Nat) (s : Dev) : Dev :=
  match s.hub.remotes.find? (·.tag == tag) with
  | none => s
  | some op =>
    match op.timeout with
    | some (t + 1) =>
      if t + 1 < op.age then
        let s := s.modHub fun h => { h with
          remotes := h.remotes.erase op, txq := h.txq ++ [.cancel op.stn op.tag] }
        let (v, s) := s.draw
        s.finishRemote op 0xA 0 (v % 2 ^ 32)
      else s
    | _ => s

/-! ### Time at the hub -/

/-- One more hub tick for a ring's bucket (R292). -/
def Dev.bucketTick (s : Dev) (r : Nat) : Dev :=
  let w := s.rg R.RING_RATE 0 r
  if bits w 31 16 = 0 then s
  else s.wr R.RING_TOK (min (s.rg R.RING_TOK 0 r + bits w 31 16) (bits w 15 0 * 1000)) 0 r

/-- Rings that are enabled. -/
def Dev.enabledRings (s : Dev) : List Nat := (List.range 1024).filter fun r => s.ringEn r

/-- HUB_TICK: every bucket gains RATE and every timed wait ages (R292, R303). -/
def hubTick (s : Dev) : Dev :=
  let s := s.enabledRings.foldl Dev.bucketTick s
  s.modHub fun h => { h with
    ticks := h.ticks + 1
    waits := h.waits.map fun w => { w with age := w.age + 1 }
    popWaits := h.popWaits.map fun w => { w with age := w.age + 1 }
    remotes := h.remotes.map fun w => { w with age := w.age + 1 } }

/-- WAIT_TIMEOUT: the `k`-th armed wait, or waiting pop, completes with TIMEOUT once T whole µs
have passed: at its tick T + 1 (R303, log entry 7). -/
def waitTimeout (pop : Bool) (k : Nat) (s : Dev) : Dev :=
  if pop then
    match s.hub.popWaits[k]? with
    | none => s
    | some w =>
      if w.timeout < w.age then
        (s.modHub fun h => { h with popWaits := h.popWaits.erase w }).answer w.g 0xA 0 0
      else s
  else
    match s.hub.waits[k]? with
    | none => s
    | some w =>
      match w.who, w.timeout with
      | .remote _ _ _, _ => s
      | _, none => s
      | _, some t =>
        if t < w.age then
          (s.modHub fun h => { h with waits := h.waits.erase w }).finishWait w 0xA (s.cell w.cell)
        else s

/-! ### Cell windows (R301) -/

/-- CELL_WINDOW_SET. -/
def cellWindowSet (ini c v : Nat) (s : Dev) : Dev := s.cellSet c v ini

/-- CELL_WINDOW_ADD. -/
def cellWindowAdd (ini c v : Nat) (s : Dev) : Dev := s.cellAdd c v ini

/-! ### Command records (R304, R305) -/

/-- Operations of a command record, by OP. -/
def cmdKind (op : Nat) : Option HubKind :=
  match op with
  | 1 => some .add
  | 2 => some .set
  | 3 => some .test
  | 4 => some .waitge
  | 5 => some .waiteq
  | 0x10 => some .post
  | 0x11 => some .pop
  | _ => none

/-- A cell operation of a record on a local cell. -/
def Dev.cmdCell (s : Dev) (ini : Nat) (k : HubKind) (rec nring id opnd t : Nat) : Dev :=
  let c := bits id 15 0
  let s := s.cellMeet ini c
  let v := s.cell c
  if s.cellBad c && k != .set then s.finishCmd rec nring id 0xF 0 0 false
  else match k with
  | .add => (s.cellAdd c opnd).finishCmd rec nring id 0 0 v false
  | .set => (s.cellSet c opnd).finishCmd rec nring id 0 0 v false
  | .waitge | .waiteq =>
    if 256 ≤ (s.hub.waits.filter fun w => match w.who with | .cmd _ _ _ => true | _ => false).length
    then s.finishCmd rec nring id 2 0 0 true
    else s.armWait ⟨.cmd rec nring id, c, k == .waiteq, opnd, some t, 0⟩
  | _ => s.finishCmd rec nring id 0 0 v false

/-- Perform the record at `rec` for initiator `ini` (R305). -/
def Dev.command (s : Dev) (ini rec : Nat) : Dev :=
  let op := s.rdN rec 1
  let nring := s.rdN (rec + 2) 2
  let id := s.rdN (rec + 4) 4
  let opnd := s.rdN (rec + 8) 4
  let t := s.rdN (rec + 0xC) 4
  let buf := s.rdN (rec + 0x10) 8
  let invalid := s.finishCmd rec nring id 0xF 0 0 false
  let bufOk := buf % 64 == 0 && (inAtrium buf 64 || s.inStack buf 64)
  match cmdKind op with
  | none => invalid
  | some k =>
    if s.rdN (rec + 1) 1 != 0 || bits nring 14 10 != 0 || decide (64 ≤ s.hub.cmds.length) then invalid
    else if k == .post then
      let s := s.meet 5 buf 64
      if !idOkRing id || !bufOk || s.poisoned buf 64 then invalid
      else if s.foreign id then
        (s.modHub fun h => { h with cmds := h.cmds ++ [rec] }).sendRemote (.cmd rec nring id) k id 0
          none (s.rdBytes buf 64)
      else if !s.ringEn (bits id 9 0) then invalid
      else
        let (code, stamp, s) := s.ringPost (bits id 9 0) ⟨ini, 0, none⟩ (s.rdBytes buf 64)
        (s.finishCmd rec nring id code stamp 0 false).serve
    else if k == .pop then
      if !idOkRing id || !bufOk || s.foreign id || !s.ringEn (bits id 9 0) then invalid
      else if s.ringOcc (bits id 9 0) = 0 then s.finishCmd rec nring id 9 0 0 false
      else (s.popTo (bits id 9 0) buf).finishCmd rec nring id 8 0 0 false |>.serve
    else if !idOkCell id then invalid
    else if s.foreign id then
      (s.modHub fun h => { h with cmds := h.cmds ++ [rec] }).sendRemote (.cmd rec nring id) k id opnd
        (if k == .waitge || k == .waiteq then some t else none) []
    else s.cmdCell ini k rec nring id opnd t

/-- A write of HUB_CMD (R304). -/
def hubCmd (ini rec : Nat) (s : Dev) : Dev :=
  let s := if inAtrium rec 32 then s.meet 5 rec 32 else s
  if rec % 32 = 0 ∧ inAtrium rec 32 = true ∧ s.poisoned rec 32 = false then s.command ini rec
  else s.count R.HUB_CMDBAD

end Sys2Proof.Machine
end

