-- ==== Sys2Proof/Machine/Access.lean ====
section
/-!
DEFINITION. Which accesses are refused, with which cause, and the bus error log (R33 to R43, R262).
-/

namespace Sys2Proof.Machine

/-- Causes of a refusal (BERR_INFO.CAUSE). -/
inductive Cause
  | unmapped | poweredDown | width | fetch | readonly | initiator | timeout
  deriving DecidableEq, Repr

/-- Code of a cause. -/
def Cause.code : Cause → Nat
  | .unmapped => 1
  | .poweredDown => 2
  | .width => 3
  | .fetch => 4
  | .readonly => 5
  | .initiator => 6
  | .timeout => 7

/-- Kinds of access. -/
inductive AccK
  | rd | wr | fetch
  deriving DecidableEq, Repr

/-- Contents of a range of the address map (R33). -/
inductive Region
  | rom
  | ioReg (d : Fin 2)
  | sram (d : Fin 2)
  | cdReg
  | galReg (g : Fin 6)
  | hostReg | hostDbg | plic | cells | rings | atrium
  | store (g : Fin 6)
  | flash (p : Fin 4)
  | stack (k : Fin 4)
  deriving DecidableEq, Repr

/-- Die of an I/O die window number. -/
def toDie (n : Nat) : Fin 2 := if n = 0 then 0 else 1

/-- Region of a device address (R33); `none` where nothing is mapped on any assembly. -/
def regionOf (a : Nat) : Option Region :=
  if a < 0x10000 then some .rom
  else if a < 0x10000000 then none
  else if a < 0x12000000 then
    let d := toDie ((a - 0x10000000) / 0x1000000)
    let o := a % 0x1000000
    if 0x800000 ≤ o ∧ o < 0x820000 then some (.sram d) else some (.ioReg d)
  else if a < 0x20000000 then none
  else if a < 0x21000000 then some .cdReg
  else if a < 0x21600000 then (toGal ((a - 0x21000000) / 0x100000)).map .galReg
  else if a < 0x22000000 then none
  else if a < 0x22100000 then some .hostReg
  else if a < 0x23000000 then none
  else if a < 0x23100000 then some .hostDbg
  else if a < 0x24000000 then none
  else if a < 0x28000000 then some .plic
  else if a < 0x28100000 then some .cells
  else if a < 0x29000000 then none
  else if a < 0x29010000 then some .rings
  else if a < 0x40000000 then none
  else if a < 0x43000000 then some .atrium
  else if a < 0x80000000 then none
  else if a < 0x86000000 then (toGal ((a - 0x80000000) / 0x1000000)).map .store
  else if a < 0x100000000 then none
  else if a < 0x180000000 then some (.flash (Fin.ofNat 4 ((a - 0x100000000) / 0x20000000)))
  else if a < 0x800000000 then none
  else if a < 0x1000000000 then
    let k := (a - 0x800000000) / 0x200000000
    if h : k < 4 then some (.stack ⟨k, h⟩) else none
  else none

/-- Memory windows (R38 to R40 do not apply to them). -/
def Region.isMem : Region → Bool
  | .rom | .sram _ | .atrium | .store _ | .flash _ | .stack _ => true
  | _ => false

/-- I/O die and local port of a flash window (R500). -/
def flashDie (p : Fin 4) : Fin 2 := if p.val < 2 then 0 else 1

/-- Bytes of a flash window that are mapped (R501). -/
def Dev.flashCap (s : Dev) (p : Fin 4) : Nat :=
  let d := flashDie p
  let q := p.val % 2
  let sz := s.fld R.FL_CFG 19 16 d q
  if s.bt R.FL_CFG 31 d q && decide (1 ≤ sz) && decide (sz ≤ 10) then 2 ^ (sz - 1) * 0x100000 else 0

/-- Is the resource behind an address fitted and configured (R3, R37)? -/
def Dev.mapped (s : Dev) (a : Nat) : Bool :=
  match regionOf a with
  | none => false
  | some (.ioReg d) | some (.sram d) => s.fitted d.val
  | some (.flash p) =>
    s.fitted (flashDie p).val && decide (a - flashBase p.val < s.flashCap p)
  | some (.stack k) => decide (k.val < s.asm.stacks)
  | some _ => true

/-- Island of an I/O die that an offset of its window belongs to (R36). -/
def ioBlock (o : Nat) : Fin 7 :=
  if 0x60000 ≤ o ∧ o < 0x70000 then 1
  else if 0x100000 ≤ o ∧ o < 0x200000 then 2
  else if 0x200000 ≤ o ∧ o < 0x300000 then 3
  else if 0x300000 ≤ o ∧ o < 0x400000 then 4
  else if 0x400000 ≤ o ∧ o < 0x490000 then 5
  else if 0x500000 ≤ o ∧ o < 0x510000 then 6
  else 0

/-- A compute-die island accepts accesses. -/
def Dev.islUp (s : Dev) (i : Fin 13) : Bool := s.cdieOn && (vget s.isl i).on && !(vget s.isl i).held

/-- Index of a gallery's island. -/
def galIsl (g : Fin 6) : Fin 13 := ⟨g.val, by omega⟩

/-- The target island of an address accepts accesses (R42). -/
def Dev.targetUp (s : Dev) (a : Nat) : Bool :=
  match regionOf a with
  | none => true
  | some .rom => s.ioUp 0 0
  | some (.ioReg d) => s.ioUp d 0 && s.ioUp d (ioBlock (a % 0x1000000))
  | some (.sram d) => s.ioUp d 0
  | some .cdReg | some .cells | some .rings => s.islUp 8
  | some (.galReg g) | some (.store g) => s.islUp (galIsl g)
  | some .hostReg | some .hostDbg | some .plic => s.islUp 6
  | some .atrium => s.islUp 7
  | some (.flash p) => s.ioUp (flashDie p) 0 && s.ioUp (flashDie p) 6
  | some (.stack k) => s.islUp ⟨9 + k.val, by omega⟩

/-- The island that serves an initiator's access accepts it: the warden of I/O die 1 reads its own
copy of the ROM (R33). -/
def Dev.servedUp (s : Dev) (ini a : Nat) : Bool :=
  if ini = 0x19 ∧ a < 0x10000 then s.ioUp 1 0 else s.targetUp a

/-- The die of an initiator: `some d` for an agent of I/O die `d`, `none` for the compute die. JTAG
sits in I/O die 0 (R521). -/
def iniDie (ini : Nat) : Option (Fin 2) :=
  if ini = 0x3F then some 0
  else if 0x18 ≤ ini ∧ ini < 0x28 then some (toDie (ini % 2))
  else none

/-- Initiators a region accepts (R39, R262). -/
def Dev.iniOk (s : Dev) (ini : Nat) (a : Nat) : Bool :=
  let host := decide (ini ≤ 3)
  let cur := decide (8 ≤ ini) && decide (ini ≤ 0xD)
  let st := decide (0x10 ≤ ini) && decide (ini ≤ 0x15)
  let ward := ini == 0x18 || ini == 0x19
  let jtag := ini == 0x3F
  match regionOf a with
  | none => true
  | some (.store g) =>
    host || cur || st || jtag || ini == 5 || (ini == 4 && s.bt R.HOST_PMA 2)
      || (ini == 0x20 && s.fld R.RF_STAT 15 12 0 == 8 + g.val)
      || (ini == 0x21 && s.fld R.RF_STAT 15 12 1 == 8 + g.val)
  | some .atrium => ini != 0x24 && ini != 0x25
  | some (.stack _) =>
    host || ini == 4 || cur || st || ward || ini == 5 || (decide (0x20 ≤ ini) && decide (ini ≤ 0x23))
      || ini == 0x1C || ini == 0x1D || jtag
  | some (.flash _) => host || ini == 4 || cur || st || ward || jtag
  | some .rom => host || ini == 4 || cur || ward || jtag
  | some (.sram _) => host || cur || ward || jtag
  | some _ => !(st || (decide (0x20 ≤ ini) && decide (ini ≤ 0x25)))

/-- Width of the register word at an address: 0 reserved. -/
def regWidth (a : Nat) : Nat :=
  match regionOf a with
  | some .cells => if a % 16 < 8 then 32 else 0
  | some .hostDbg => if a % 0x100000 < 0x200 then 32 else 0
  | _ => match regAt a with | some r => r.r.w | none => 0

/-- Does an access of `n` bytes at `a` break the width rules of its window (R38, R39)? -/
def widthBad (a n : Nat) : Bool :=
  match regionOf a with
  | none => false
  | some r =>
    if a % n != 0 || !(n == 1 || n == 2 || n == 4 || n == 8) then true
    else if r.isMem then false
    else if n = 4 then false
    else if n = 8 then
      (regWidth a == 32 || regWidth (a + 4) == 32)
    else true

/-- The first cause that refuses an access, in the order of R41. -/
def Dev.refusal (s : Dev) (ini a n : Nat) (k : AccK) : Option Cause :=
  if !s.mapped a then some .unmapped
  else if !s.servedUp ini a then some .poweredDown
  else if !s.iniOk ini a then some .initiator
  else if k = .fetch ∧ ((regionOf a).map Region.isMem).getD false = false then some .fetch
  else if widthBad a n then some .width
  else if k = .wr ∧ (match regionOf a with | some .rom | some (.flash _) => true | _ => false) = true
    then some .readonly
  else none

/-- The die whose decoder refuses an access: `none` for the compute die (R41). An address that no
die decodes is refused on the initiator's die (log entry 18). -/
def targetDie (ini a : Nat) : Option (Fin 2) :=
  if a < 0x10000 then some 0
  else if 0x10000000 ≤ a ∧ a < 0x12000000 then
    some (toDie ((a - 0x10000000) / 0x1000000))
  else if 0x20000000 ≤ a ∧ a < 0x100000000 then none
  else if 0x100000000 ≤ a ∧ a < 0x180000000 then
    some (flashDie (Fin.ofNat 4 ((a - 0x100000000) / 0x20000000)))
  else if 0x800000000 ≤ a ∧ a < 0x1000000000 then none
  else iniDie ini

/-- log2 of an access size, as BERR_INFO.SIZE shows it. -/
def sizeCode (n : Nat) : Nat := if n = 1 then 0 else if n = 2 then 1 else if n = 4 then 2 else 3

/-- The die that logs a refusal (R41): the initiator's for TIMEOUT, and where the target die cannot
record. -/
def Dev.logDie (s : Dev) (ini a : Nat) (c : Cause) : Option (Fin 2) :=
  let t := if c = .timeout then iniDie ini else targetDie ini a
  match t with
  | some d => if s.fitted d.val then some d else iniDie ini
  | none => if s.cdieOn then none else iniDie ini

/-- ACCESS_REFUSED: count and log a refusal (R41). -/
def Dev.berr (s : Dev) (ini a n : Nat) (k : AccK) (c : Cause) : Dev :=
  let w := 2 ^ 31 + c.code * 2 ^ 24 + ini % 64 * 2 ^ 18 + b2n (k == .wr) * 2 ^ 17 + sizeCode n * 2 ^ 14
  match s.logDie ini a c with
  | some d =>
    let s := s.count R.IO_BERR_COUNT 1 d
    if s.bt R.IO_BERR_INFO 31 d then s.setB R.IO_BERR_INFO 30 true d
    else (s.wr R.IO_BERR_ADDR a d).wr R.IO_BERR_INFO w d
  | none =>
    if !s.cdieOn then s
    else
      let s := s.count R.BERR_COUNT
      if s.bt R.BERR_INFO 31 then s.setB R.BERR_INFO 30 true
      else (s.wr R.BERR_ADDR a).wr R.BERR_INFO w

/-- Target island of an address, for the HANG counters (R518). -/
def islandOf (a : Nat) : Option (Fin 13 ⊕ (Fin 2 × Fin 7)) :=
  match regionOf a with
  | none => none
  | some .rom => some (.inr (0, 0))
  | some (.ioReg d) => some (.inr (d, ioBlock (a % 0x1000000)))
  | some (.sram d) => some (.inr (d, 0))
  | some .cdReg | some .cells | some .rings => some (.inl 8)
  | some (.galReg g) | some (.store g) => some (.inl (galIsl g))
  | some .hostReg | some .hostDbg | some .plic => some (.inl 6)
  | some .atrium => some (.inl 7)
  | some (.flash p) => some (.inr (flashDie p, 6))
  | some (.stack k) => some (.inl ⟨9 + k.val, by omega⟩)

/-- A TIMEOUT completion counts against its target island (R518). -/
def Dev.hang (s : Dev) (a : Nat) : Dev :=
  match islandOf a with
  | none => s
  | some (.inl i) => (s.count R.HANG 1 0 i).orR R.FLT_STAT (2 ^ 26)
  | some (.inr (d, i)) => (s.count R.IO_HANG 1 d i).orR R.AOFLT_STAT 8 d

/-- A read of `n` bytes of memory for an initiator: refused, or performed with its errors met. -/
def Dev.memRead (s : Dev) (ini a n : Nat) : Option Cause × Dev :=
  match s.refusal ini a n .rd with
  | some c => (some c, s.berr ini a n .rd c)
  | none => (none, s.meet ini a n)

end Sys2Proof.Machine
end

