-- ==== Sys2Proof/Machine/FP.lean ====
section
/-!
DEFINITION. Floating arithmetic of R227 on FP32 words and on BF16 values held in bits 31:16, with
the activation functions of R236 and R237. Values are computed exactly and rounded once.
-/

namespace Sys2Proof.Machine

/-- A word with the flags its making set: bit 0 INF, bit 1 NAN, bit 2 SAT (R226, R227). -/
structure Fx where
  w : Nat
  fl : Nat
  deriving DecidableEq, Repr

/-- A floating value: a finite one is ±m × 2^e. -/
inductive Fv
  | nan
  | inf (neg : Bool)
  | fin (neg : Bool) (m : Nat) (e : Int)
  deriving DecidableEq, Repr

/-- Rounding directions the device uses. -/
inductive FRnd
  | even | up
  deriving DecidableEq, Repr

/-- The canonical NaN (R227). -/
def fNan : Nat := 0x7FC00000

/-- Infinity of a sign. -/
def fInf (neg : Bool) : Nat := 0x7F800000 + b2n neg * 2 ^ 31

/-- Zero of a sign. -/
def fZero (neg : Bool) : Nat := b2n neg * 2 ^ 31

/-- Value of a word; a subnormal operand is a zero of the same sign (R227). -/
def fdec (w : Nat) : Fv :=
  let n := bit w 31 == 1
  let ex := bits w 30 23
  if ex = 255 then (if bits w 22 0 = 0 then .inf n else .nan)
  else if ex = 0 then .fin n 0 0
  else .fin n (bits w 22 0 + 2 ^ 23) ((ex : Int) - 150)

/-- Is the word a NaN? -/
def fIsNan (w : Nat) : Bool := fdec w == .nan

/-- Is the word an infinity? -/
def fIsInf (w : Nat) : Bool := match fdec w with | .inf _ => true | _ => false

/-- Is the word a zero, a subnormal included? -/
def fIsZero (w : Nat) : Bool := match fdec w with | .fin _ 0 _ => true | _ => false

/-- Significand `q` (at most 24 bits, or 2^24) times 2^e as a word: flushed below 2^-126, an infinity
above the range (R227). -/
def fpack (neg : Bool) (q : Nat) (e : Int) : Nat :=
  if q = 0 then fZero neg
  else
    let l := q.log2
    let ex := e + l
    if ex < -126 then fZero neg
    else if 127 < ex then fInf neg
    else b2n neg * 2 ^ 31 + (ex + 127).toNat * 2 ^ 23 + (q * 2 ^ 24 / 2 ^ (l + 1) - 2 ^ 23)

/-- Round ±m × 2^e to a significand of `p` bits and pack it. -/
def fround (p : Nat) (r : FRnd) (neg : Bool) (m : Nat) (e : Int) : Nat :=
  let k := m.log2 + 1 - p
  let q := m / 2 ^ k
  let x := m % 2 ^ k
  let up := match r with
    | .even => decide (2 ^ k < 2 * x) || (decide (2 * x = 2 ^ k) && q % 2 == 1)
    | .up => x != 0 && !neg
  fpack neg (if up then q + 1 else q) (e + k)

/-- ±n / d × 2^e rounded, exactly. -/
def froundDiv (p : Nat) (r : FRnd) (neg : Bool) (n d : Nat) (e : Int) : Nat :=
  let k := d.log2 + p + 3
  let q := n * 2 ^ k / d
  fround p r neg (2 * q + (if n * 2 ^ k % d = 0 then 0 else 1)) (e - k - 1)

/-- A result with the flags of R227, given the operands' words. -/
def fmk (ops : List Nat) (fl r : Nat) : Fx :=
  let i := b2n (fIsInf r && !ops.any fIsInf)
  let n := b2n (fIsNan r && !ops.any fIsNan)
  ⟨r, fl ||| i ||| (2 * n)⟩

/-- A constant. -/
def fc (w : Nat) : Fx := ⟨w, 0⟩

/-- Signed mantissa. -/
def fsgn (neg : Bool) (m : Nat) : Int := if neg then -(m : Int) else m

/-- Sum word, rounded to `p` bits. -/
def faddW (p a b : Nat) : Nat :=
  match fdec a, fdec b with
  | .nan, _ | _, .nan => fNan
  | .inf x, .inf y => if x = y then fInf x else fNan
  | .inf x, .fin _ _ _ | .fin _ _ _, .inf x => fInf x
  | .fin n1 m1 e1, .fin n2 m2 e2 =>
    let e := min e1 e2
    let v := fsgn n1 (m1 * 2 ^ (e1 - e).toNat) + fsgn n2 (m2 * 2 ^ (e2 - e).toNat)
    if v = 0 then fZero (n1 && n2) else fround p .even (decide (v < 0)) v.natAbs e

/-- Product word. -/
def fmulW (p a b : Nat) : Nat :=
  match fdec a, fdec b with
  | .nan, _ | _, .nan => fNan
  | .inf x, .inf y => fInf (x != y)
  | .inf x, .fin y m _ | .fin y m _, .inf x => if m = 0 then fNan else fInf (x != y)
  | .fin n1 m1 e1, .fin n2 m2 e2 => fround p .even (n1 != n2) (m1 * m2) (e1 + e2)

/-- Quotient word. -/
def fdivW (p a b : Nat) : Nat :=
  match fdec a, fdec b with
  | .nan, _ | _, .nan => fNan
  | .inf _, .inf _ => fNan
  | .inf x, .fin y _ _ => fInf (x != y)
  | .fin x _ _, .inf y => fZero (x != y)
  | .fin n1 m1 e1, .fin n2 m2 e2 =>
    if m2 = 0 then (if m1 = 0 then fNan else fInf (n1 != n2))
    else froundDiv p .even (n1 != n2) m1 m2 (e1 - e2)

/-- Square root word (R236). -/
def fsqrtW (p a : Nat) : Nat :=
  match fdec a with
  | .nan => fNan
  | .inf n => if n then fNan else fInf false
  | .fin n m e =>
    if m = 0 then fZero n
    else if n then fNan
    else
      let m := if e % 2 = 0 then m else 2 * m
      let e := if e % 2 = 0 then e else e - 1
      let x := m * 2 ^ 64
      let q := Nat.sqrt x
      fround p .even false (2 * q + (if q * q = x then 0 else 1)) (e / 2 - 33)

/-- Change of sign. -/
def fnegW (a : Nat) : Nat := if bit a 31 = 1 then a - 2 ^ 31 else a + 2 ^ 31

/-- A word as an operation returns it: canonical NaN, no subnormals (R227). -/
def fcleanW (a : Nat) : Nat :=
  match fdec a with
  | .nan => fNan
  | .fin n 0 _ => fZero n
  | _ => a

def fadd (p : Nat) (a b : Fx) : Fx := fmk [a.w, b.w] (a.fl ||| b.fl) (faddW p a.w b.w)
def fsub (p : Nat) (a b : Fx) : Fx := fmk [a.w, b.w] (a.fl ||| b.fl) (faddW p a.w (fnegW b.w))
def fmul (p : Nat) (a b : Fx) : Fx := fmk [a.w, b.w] (a.fl ||| b.fl) (fmulW p a.w b.w)
def fdiv (p : Nat) (a b : Fx) : Fx := fmk [a.w, b.w] (a.fl ||| b.fl) (fdivW p a.w b.w)
def fsqrt (p : Nat) (a : Fx) : Fx := fmk [a.w] a.fl (fsqrtW p a.w)
def fneg (a : Fx) : Fx := ⟨fcleanW (fnegW a.w), a.fl⟩

/-- Round a word to the significand of BF16 or FP32. -/
def froundTo (p : Nat) (a : Fx) : Fx :=
  match fdec a.w with
  | .fin n m e => fmk [a.w] a.fl (fround p .even n m e)
  | _ => ⟨fcleanW a.w, a.fl⟩

/-- An integer as a word, rounded once. -/
def fOfInt (p : Nat) (x : Int) : Nat :=
  if x = 0 then 0 else fround p .even (decide (x < 0)) x.natAbs 0

/-- Exact ±m × 2^e rounded to the nearest integer, ties to even (R194). -/
def rintDy (neg : Bool) (m : Nat) (e : Int) : Int :=
  let x := fsgn neg m
  if 0 ≤ e then x * 2 ^ e.toNat else rhe x (2 ^ (-e).toNat)

/-- Order key of a word that is no NaN, with -0 below +0 (R228). -/
def fkey (w : Nat) : Int :=
  let w := fcleanW w
  if bit w 31 = 1 then -((w - 2 ^ 31 : Nat) : Int) - 1 else w

/-- Order key by value: both zeros alike. -/
def fval (w : Nat) : Int :=
  let w := fcleanW w
  if bit w 31 = 1 then -((w - 2 ^ 31 : Nat) : Int) else w

/-- MAX and MIN (R228). -/
def fmaxW (a b : Nat) : Nat :=
  if fIsNan a then fcleanW b else if fIsNan b then fcleanW a
  else if fkey b ≤ fkey a then fcleanW a else fcleanW b

def fminW (a b : Nat) : Nat :=
  if fIsNan a then fcleanW b else if fIsNan b then fcleanW a
  else if fkey a ≤ fkey b then fcleanW a else fcleanW b

/-! ### Activation functions (R236, R237) -/

/-- The polynomial of R237, coefficients from the innermost outward. -/
def fpoly (f : Fx) : List Nat → Fx → Fx
  | [], acc => acc
  | c :: cs, acc => fpoly f cs (fadd 24 (fc c) (fmul 24 f acc))

/-- Coefficients c5 down to c0 of R237: the FP32 values nearest the decimals of its table. -/
def expCoeffs : List Nat := [0x3AAEC3FF, 0x3C1D955B, 0x3D635847, 0x3E75FDF0, 0x3F317218, 0x3F800000]

/-- c6 of R237. -/
def expC6 : Nat := 0x39218489

/-- L of R237. -/
def expL : Nat := 0x3FB8AA3B

/-- EXP (R237). -/
def fexp (x : Fx) : Fx :=
  let y := fmul 24 x (fc expL)
  match fdec y.w with
  | .nan => y
  | .inf n => if n then ⟨0, y.fl⟩ else ⟨fInf false, y.fl⟩
  | .fin neg m e =>
    if 0x437F0000 < y.w ∧ y.w < 2 ^ 31 then fmk [y.w] y.fl (fInf false)
    else if 0xC37F0000 < y.w then ⟨0, y.fl⟩
    else
      let n := rintDy neg m e
      let f := fsub 24 ⟨y.w, y.fl⟩ (fc (fOfInt 24 n))
      let p := fpoly f expCoeffs (fc expC6)
      match fdec p.w with
      | .fin s m e => fmk [p.w] p.fl (fround 24 .even s m (e + n))
      | _ => p

/-- 1.0. -/
def fOne : Nat := 0x3F800000

/-- SIGMOID (R236). -/
def fsigmoid (x : Fx) : Fx := fdiv 24 (fc fOne) (fadd 24 (fc fOne) (fexp (fneg x)))

/-- TANH (R236). -/
def ftanh (x : Fx) : Fx :=
  fsub 24 (fmul 24 (fc 0x40000000) (fsigmoid (fmul 24 (fc 0x40000000) x))) (fc fOne)

/-- GELU (R236); the products are formed in the order written (log entry 16). -/
def fgelu (x : Fx) : Fx :=
  let c := fmul 24 (fmul 24 (fmul 24 (fc 0x3D372713) x) x) x
  let t := ftanh (fmul 24 (fc 0x3F4C422A) (fadd 24 x c))
  fmul 24 (fmul 24 (fc 0x3F000000) x) (fadd 24 (fc fOne) t)

/-- A floating function of VX.ACT in FP32, by its code. -/
def factF (code : Nat) (x : Fx) : Fx :=
  match code with
  | 0 => ⟨fcleanW x.w, x.fl⟩
  | 1 => if fIsNan x.w then ⟨fNan, x.fl⟩ else if fval x.w < 0 then ⟨0, x.fl⟩ else ⟨fcleanW x.w, x.fl⟩
  | 2 => ⟨fcleanW (x.w % 2 ^ 31), x.fl⟩
  | 3 => ⟨if fIsNan x.w then fNan else fcleanW (fnegW x.w), x.fl⟩
  | 4 => fexp x
  | 5 => fsigmoid x
  | 6 => ftanh x
  | 7 => fmul 24 x (fsigmoid x)
  | 8 => fgelu x
  | 9 => fdiv 24 (fc fOne) x
  | 10 => fdiv 24 (fc fOne) (fsqrt 24 x)
  | _ => fsqrt 24 x

end Sys2Proof.Machine
end

