-- ==== Sys2Proof/Machine/Legend.lean ====
section
/-!
DEFINITION. The legend: derivation, checked writes, history and the arithmetic of VX.RQ
(R194 to R207).
-/

namespace Sys2Proof.Machine

/-! ### Fields of an entry -/

/-- Zero point. -/
def Leg.zp (l : Leg) : Int := toS 16 l.ctl

/-- FMT: 0 INT8, 1 INT4, 2 INT16. -/
def Leg.fmt (l : Leg) : Nat := bits l.ctl 17 16

/-- SMODE. -/
def Leg.smode (l : Leg) : Nat := bits l.ctl 19 18

/-- K (R201). -/
def Leg.k (l : Leg) : Nat := bits l.ctl 22 20 + 1

/-- HEAD. -/
def Leg.head (l : Leg) : Nat := bits l.ctl 26 23

/-- Ends of the code range of a format (R194, R197). -/
def codeLo (fmt : Nat) : Int := if fmt = 0 then -128 else if fmt = 1 then -8 else -32768

def codeHi (fmt : Nat) : Int := if fmt = 0 then 127 else if fmt = 1 then 7 else 32767

/-- HMAX: largest value of the history, 0 while it is empty. -/
def Leg.hmax (l : Leg) : Nat := l.hist.foldl (fun m x => if fval m < fval x then x else m) 0

/-- LEG_CTL as read. -/
def Leg.ctlView (l : Leg) : Nat := l.ctl + b2n l.wide * 2 ^ 27

/-- LEG_DRV as read. -/
def Leg.drvView (l : Leg) : Nat :=
  b2n l.range * 2 ^ 31 + b2n l.zero * 2 ^ 30 + l.hist.length * 2 ^ 8 + l.shift

/-- Word of an entry by its offset. -/
def Leg.view (l : Leg) (word : Nat) : Nat :=
  match word with
  | 0 => l.scale
  | 1 => l.insc
  | 2 => l.ctlView
  | 3 => l.mult
  | 4 => l.drvView
  | 5 => l.recip
  | 6 => l.hmax
  | _ => 0

/-! ### Derivation (R196) -/

/-- M as significand and exponent: m × 2^(e - 23). -/
def mParts (w : Nat) : Nat × Int := (bits w 22 0 + 2 ^ 23, (bits w 30 23 : Int) - 127)

/-- RECIP, MULT and SHIFT from SCALE and IN_SCALE. With both 0 the entry is as at reset (log
entry 17). -/
def Leg.derive (l : Leg) : Leg :=
  let z := fIsZero l.scale
  let zi := fIsZero l.insc
  let recip := if z then fInf false else fdivW 24 fOne l.scale
  let m := fdivW 24 l.insc l.scale
  let l := { l with recip := recip }
  if zi || (!z && decide (fval m < 0x2F800000)) then
    { l with mult := 0, shift := 0, zero := true, range := false }
  else if z || decide (0x4F000000 ≤ fval m) then
    { l with mult := 0x7FFFFFFF, shift := 0, zero := false, range := true }
  else
    let (sg, e) := mParts m
    { l with mult := sg * 128, shift := (30 - e).toNat, zero := false, range := false }

/-! ### Checked writes (R197) -/

/-- Negative, NaN or infinite; -0 reads as 0 (log entry 17). -/
def badScale (w : Nat) : Bool :=
  match fdec w with
  | .nan | .inf _ => true
  | .fin n m _ => n && m != 0

/-- Would the entry break R197? -/
def Leg.bad (l : Leg) : Bool :=
  l.smode == 3 || l.fmt == 3 || decide (8 < l.head)
    || decide (l.zp < codeLo l.fmt) || decide (codeHi l.fmt < l.zp)
    || ((l.smode == 1 || l.smode == 2) && (decide (l.zp = codeLo l.fmt) || decide (l.zp = codeHi l.fmt)))
    || (l.smode == 2 && l.fmt != 0)
    || badScale l.scale || badScale l.insc

/-- The entry a write of word 0 (SCALE), 1 (IN_SCALE) or 2 (CTL) would produce. -/
def Leg.put (l : Leg) (word v : Nat) : Leg :=
  match word with
  | 0 => { l with scale := v % 2 ^ 32 }.derive
  | 1 => { l with insc := v % 2 ^ 32 }.derive
  | _ => { l with ctl := v % 2 ^ 27, hist := [], wide := false }

/-- An entry of a gallery as its own conversions see it. -/
def Dev.leg (s : Dev) (g : Fin 6) (i : Nat) : Leg := SMap.get .init (vget s.gal g).leg i

/-- Change an entry; with `both`, also what reads show and a squash restores (R207). -/
def Dev.modLeg (s : Dev) (g : Fin 6) (i : Nat) (both : Bool) (f : Leg → Leg) : Dev :=
  s.modGal g fun x => { x with
    leg := SMap.set .init x.leg i (f (SMap.get .init x.leg i))
    legCk := if both then x.legCk.map fun m => SMap.set .init m i (f (SMap.get .init m i))
      else x.legCk }

/-- EP_FLAGS event. -/
def Dev.epFlag (s : Dev) (g : Fin 6) (b : Nat) : Dev := s.orR R.EP_FLAGS (2 ^ b) g

/-- LEGEND_WRITE (R197, R199): a write that would break R197 is ignored and recorded. An accepted
write drops the entry's open step. -/
def legendWrite (g : Fin 6) (i word v : Nat) (s : Dev) : Dev :=
  let l := (s.leg g i).put word v
  if l.bad then
    let s := s.epFlag g 6
    if s.bt R.EP_LEGERR 31 g then s else s.wr R.EP_LEGERR (2 ^ 31 + i) g
  else
    let s := s.modLeg g i true fun l => { l.put word v with step := none, pend := [] }
    let s := s.modGal g fun x => { x with vec := { x.vec with
      rqDrop := x.vec.rqDrop || (match x.vec.exec with
        | some e => e.sub == .rq && e.x == i
        | none => false) } }
    if l.range then s.epFlag g 5 else s

/-! ### Scales -/

/-- Largest of two rounded scales. -/
def maxScale (a b : Nat) : Nat := if fval a < fval b then b else a

/-- |x| / d for a word, rounded to FP32 toward +∞. -/
def upDiv (w : Nat) (d : Nat) : Nat :=
  match fdec w with
  | .nan => 0
  | .inf _ => fInf false
  | .fin _ m e => if m = 0 then 0 else froundDiv 24 .up false m d e

/-- n × IN_SCALE / d rounded to FP32 toward +∞, for an integer source. -/
def upDivInt (n insc d : Nat) : Nat :=
  match fdec insc with
  | .fin _ m e => if n * m = 0 then 0 else froundDiv 24 .up false (n * m) d e
  | _ => 0

/-- Source values of a conversion: integers with their entry's IN_SCALE, or floating words. -/
inductive RqSrc
  | ints (l : List Int)
  | floats (l : List Nat)

/-- req(X) for zero point `zp` and code range `lo`..`hi` (R200). -/
def reqOf (src : RqSrc) (insc : Nat) (zp lo hi : Int) : Nat :=
  match src with
  | .ints l =>
    let mx := l.foldl max 0
    let mn := l.foldl min 0
    maxScale (upDivInt mx.toNat insc (hi - zp).toNat) (upDivInt (-mn).toNat insc (zp - lo).toNat)
  | .floats l =>
    let l := l.filter fun w => !fIsNan w
    let mx := l.foldl fmaxW 0
    let mn := l.foldl fminW 0
    maxScale (upDiv mx (hi - zp).toNat) (upDiv (fnegW mn) (zp - lo).toNat)

/-- The predicted scale S = HMAX × (8 + HEAD) / 8, rounded up (R201). -/
def Leg.predicted (l : Leg) : Nat :=
  match fdec l.hmax with
  | .fin n m e => if m = 0 then 0 else fround 24 .up n (m * (8 + l.head)) (e - 3)
  | _ => l.hmax

/-- A scale divided by 256, for the wide form (R202). -/
def scale256 (w : Nat) : Nat :=
  match fdec w with
  | .fin n m e => fround 24 .even n m (e - 8)
  | _ => w

/-- Push a value into a history of at most K values (R201). -/
def Leg.push (l : Leg) (v : Nat) : Leg :=
  let h := l.hist ++ [v]
  { l with hist := h.drop (h.length - l.k) }

/-- The end of a step with its push; a wide step clears WIDE (R202, R206). -/
def Leg.endStep (l : Leg) (st : Nat × Bool) : Leg :=
  let l := l.push st.1
  if st.2 then { l with wide := false } else l

/-! ### Conversion (R194, R195) -/

/-- Code and saturation of an unclamped code. -/
def clampCode (lo hi u : Int) : Int × Bool :=
  if u < lo then (lo, true) else if hi < u then (hi, true) else (u, false)

/-- An integer source value. -/
def rqInt (l : Leg) (zp lo hi : Int) (a : Int) : Int × Bool :=
  clampCode lo hi (zp + rhe (a * l.mult) (2 ^ l.shift))

/-- A floating source value: the exact product with RECIP. -/
def rqFloat (l : Leg) (zp lo hi : Int) (x : Nat) : Int × Bool :=
  match fdec x with
  | .nan => (zp, false)
  | .inf n => (if n then lo else hi, true)
  | .fin n m e =>
    if m = 0 then clampCode lo hi zp
    else
      match fdec l.recip with
      | .fin _ m2 e2 => clampCode lo hi (zp + rintDy n (m * m2) (e + e2))
      | _ => (if n then lo else hi, true)

/-- What a conversion uses: the entry with its scale in force, zero point, range and form. -/
structure RqPlan where
  leg : Leg
  zp : Int
  lo : Int
  hi : Int
  wide : Bool
  /-- req over the source for the INT8 range, for a running entry. -/
  req : Nat
  /-- The conversion is made as present mode makes it. -/
  present : Bool

/-- Scale, zero point and range of a conversion through an entry (R200, R202). -/
def Leg.plan (l : Leg) (src : RqSrc) : RqPlan :=
  let run := l.smode == 2
  let wide := run && l.wide
  let fmt := if wide then 2 else l.fmt
  let zp := if wide then l.zp * 256 else l.zp
  let r8 := reqOf src l.insc l.zp (-128) 127
  let own := reqOf src l.insc l.zp (codeLo l.fmt) (codeHi l.fmt)
  let keep := fun (r : Nat) => if !fIsZero r then r
    else if fIsZero l.scale then fOne else l.scale
  let present := l.smode == 1 || (run && l.hist.isEmpty)
  let sc :=
    if l.smode == 0 then l.scale
    else if l.smode == 1 then keep own
    else if l.hist.isEmpty then
      (if wide then (if fIsZero r8 then keep r8 else scale256 r8) else keep r8)
    else if l.step.isSome then l.scale
    else if wide then scale256 l.predicted
    else l.predicted
  ⟨{ l with scale := sc }.derive, zp, codeLo fmt, codeHi fmt, wide, r8, present⟩

/-- All codes of a conversion. -/
def RqPlan.codes (p : RqPlan) : RqSrc → List (Int × Bool)
  | .ints l => l.map (rqInt p.leg p.zp p.lo p.hi)
  | .floats l => l.map (rqFloat p.leg p.zp p.lo p.hi)

/-- The reset of R204 step 2: history emptied, the step's requirement pushed. -/
def Leg.histReset (l : Leg) (r : Option Nat) : Leg :=
  { l with hist := r.toList, step := none, pend := [] }

/-- What the conversion leaves in the legend once it completes (R200 to R206). `ep`: issued inside
the open epoch, `radio`: that epoch is the radio's, `sat`: some element saturated, `drop`: software
wrote the entry meanwhile. -/
def Dev.rqFinish (s : Dev) (g : Fin 6) (i : Nat) (p : RqPlan) (ep radio sat drop : Bool) : Dev :=
  let l0 := s.leg g i
  let run := p.leg.smode == 2
  let both := !ep
  let s := if p.leg.range && p.leg.smode != 0 && !drop then s.epFlag g 5 else s
  let s := if p.leg.smode == 0 || drop then s else s.modLeg g i both fun l =>
    { l with scale := p.leg.scale }.derive
  if !run then s
  else
    let sofar := match l0.step with | some (r, _) => maxScale r p.req | none => p.req
    let checked := ep && !radio && !p.present
    if sat && checked then
      let r := if drop then none else some sofar
      let s := s.modLeg g i true fun l => { l.histReset r with wide := true }
      let s := (s.count R.EP_HRESETS 1 g).epFlag g 2
      s.modGal g fun x => { x with ep := { x.ep with
        satidx := if x.ep.squash = 3 then min x.ep.satidx i else i
        squash := if x.ep.squash = 4 then 4 else 3 } }
    else if sat && (!ep || radio) then
      let r := if drop then none else some p.req
      let s := s.modLeg g i both fun l =>
        let l := l.histReset r
        if p.wide then { l with wide := false } else l
      let s := ((s.count R.EP_SATFINAL 1 g).count R.EP_HRESETS 1 g).epFlag g 4
      if p.wide && !drop then (s.count R.EP_RERUNS 1 g).epFlag g 3 else s
    else if drop then s
    else if ep && radio then
      s.modLeg g i false fun l => { l with pend := l.pend ++ [(p.req, p.wide)] }
    else if ep then s.modLeg g i false fun l => { l with step := some (sofar, p.wide) }
    else
      let s := s.modLeg g i true fun l => l.endStep (p.req, p.wide)
      if p.wide then (s.count R.EP_RERUNS 1 g).epFlag g 3 else s

/-- An entry after the commit of an epoch: its steps end with their pushes. -/
def Leg.commit (l : Leg) : Leg :=
  let l := match l.step with | some st => { l.endStep st with step := none } | none => l
  { l.pend.foldl Leg.endStep l with pend := [] }

/-- Wide steps that the commit of an entry ends. -/
def Leg.reruns (l : Leg) : Nat :=
  (match l.step with | some (_, true) => 1 | _ => 0) + (l.pend.filter (·.2)).length

/-- Commit of the legend (R215 steps 5 and 6). -/
def Dev.legCommit (s : Dev) (g : Fin 6) : Dev :=
  let m := (vget s.gal g).leg
  let n := (m.map fun p => p.2.reruns).sum
  let s := s.modGal g fun x => { x with
    leg := (x.leg.map fun p => (p.1, p.2.commit)).filter fun p => p.2 != .init, legCk := none }
  if n = 0 then s else (s.count R.EP_RERUNS n g).epFlag g 3

/-- Squash of the legend (R216 step 5): entries return, steps are dropped. -/
def Dev.legSquash (s : Dev) (g : Fin 6) : Dev :=
  s.modGal g fun x => { x with
    leg := (x.legCk.getD x.leg), legCk := none }

end Sys2Proof.Machine
end

