-- ==== Sys2Proof/Machine/VecMath.lean ====
section
/-!
DEFINITION. Tile arithmetic of the vector engine: containers, element-wise operations, reductions,
compress and expand, conversions and the min-sum operations (R220 to R239).
-/

namespace Sys2Proof.Machine

/-- Elements of a tile. -/
def tileLen : Nat := 16384

/-- The 16,384 containers of a tile, dense. -/
def Tile.dense (t : Tile) : Array Nat :=
  t.foldl (fun a p => a.set! p.1 p.2) (Array.replicate tileLen 0)

/-- A tile from its containers in row-major order. -/
def tileOf (l : List Nat) : Tile :=
  (l.zipIdx.filter fun p => p.1 != 0).map fun p => (p.2, p.1)

/-- Indices of a tile. -/
def tileIdx : List Nat := List.range tileLen

/-- Is the format floating? -/
def isFlt (f : Nat) : Bool := f == 3 || f == 4

/-- Bits of an integer format. -/
def intBits (f : Nat) : Nat := if f = 0 then 8 else if f = 1 then 16 else 32

/-- Significand bits of a floating format. -/
def fltBits (f : Nat) : Nat := if f = 3 then 8 else 24

/-- Value read from a container as an integer (R220). -/
def readInt (f w : Nat) : Int := toS (intBits f) w

/-- Value read from a container as a floating word (R220). -/
def readFlt (f w : Nat) : Nat := if f = 3 then w / 2 ^ 16 * 2 ^ 16 else w

/-- Container of an integer, sign-extended (R220). -/
def cont (x : Int) : Nat := ofS 32 x

/-- An exact integer result, saturated to its format (R226). -/
def satInt (f : Nat) (x : Int) : Fx :=
  let y := clampS (intBits f) x
  ⟨cont y, if y = x then 0 else 4⟩

/-- Flags, saturated elements and containers of a result. -/
structure VxOut where
  data : Tile
  fl : Nat
  sat : Nat

/-- A result from its elements. -/
def vxOut (l : List Fx) : VxOut where
  data := tileOf (l.map (·.w))
  fl := l.foldl (fun a x => a ||| x.fl) 0
  sat := (l.filter fun x => bit x.fl 2 == 1).length

/-- The two-operand operations of R228. -/
inductive VxBin
  | add | sub | mul | max | min
  deriving DecidableEq, Repr

/-- One element of an element-wise operation (R228). -/
def binElt (op : VxBin) (f a b : Nat) : Fx :=
  if isFlt f then
    let x := readFlt f a
    let y := readFlt f b
    match op with
    | .add => fadd (fltBits f) (fc x) (fc y)
    | .sub => fsub (fltBits f) (fc x) (fc y)
    | .mul => fmul (fltBits f) (fc x) (fc y)
    | .max => fc (fmaxW x y)
    | .min => fc (fminW x y)
  else
    let x := readInt f a
    let y := readInt f b
    satInt f (match op with
      | .add => x + y
      | .sub => x - y
      | .mul => x * y
      | .max => max x y
      | .min => min x y)

/-- VX.ADD, SUB, MUL, MAX and MIN. -/
def vxBin (op : VxBin) (f : Nat) (a b : Tile) : VxOut :=
  let x := a.dense
  let y := b.dense
  vxOut (tileIdx.map fun i => binElt op f (x.getD i 0) (y.getD i 0))

/-- One element of VX.CMP (R228). -/
def cmpElt (rel f a b : Nat) : Bool :=
  if isFlt f then
    let x := readFlt f a
    let y := readFlt f b
    let n := fIsNan x || fIsNan y
    match rel with
    | 0 => !n && fval x == fval y
    | 1 => n || fval x != fval y
    | 2 => !n && decide (fval x < fval y)
    | _ => !n && decide (fval y ≤ fval x)
  else
    let x := readInt f a
    let y := readInt f b
    match rel with
    | 0 => decide (x = y)
    | 1 => decide (x ≠ y)
    | 2 => decide (x < y)
    | _ => decide (y ≤ x)

/-- VX.CMP. -/
def vxCmp (rel f : Nat) (a b : Tile) : VxOut :=
  let x := a.dense
  let y := b.dense
  vxOut (tileIdx.map fun i => fc (if cmpElt rel f (x.getD i 0) (y.getD i 0) then 2 ^ 32 - 1 else 0))

/-- VX.BCST: the container of a scalar (R228). -/
def bcstWord (f x : Nat) : Nat :=
  if isFlt f then readFlt f x else cont (readInt f x)

/-- VX.BCST. -/
def vxBcst (f x : Nat) : VxOut := vxOut (tileIdx.map fun _ => fc (bcstWord f x))

/-! ### Reductions (R229 to R231) -/

/-- One level of the tree of R229. -/
def pairUp : List Fx → List Fx
  | a :: b :: l => fadd 24 a b :: pairUp l
  | l => l

/-- The tree of R229 over 2^k elements. -/
def treeSum : Nat → List Fx → Fx
  | 0, l => l.headD (fc 0)
  | k + 1, l => treeSum k (pairUp l)

/-- Sum of a list of containers: the tree rounded once to the format, or the exact integer sum
saturated to INT32. -/
def sumOf (f k : Nat) (l : List Nat) : Fx :=
  if isFlt f then
    let t := treeSum k (l.map fun w => fc (readFlt f w))
    if f = 3 then froundTo 8 t else t
  else satInt 2 ((l.map (readInt f)).foldl (· + ·) 0)

/-- Largest or smallest of a nonempty list of containers. -/
def extOf (mx : Bool) (f : Nat) (l : List Nat) : Nat :=
  match l with
  | [] => 0
  | a :: l =>
    if isFlt f then l.foldl (fun m w => if mx then fmaxW m (readFlt f w) else fminW m (readFlt f w))
      (fcleanW (readFlt f a))
    else cont (l.foldl (fun m w => if mx then max m (readInt f w) else min m (readInt f w))
      (readInt f a))

/-- One reduction of VX.RED by its operation code. -/
def redOf (op f k : Nat) (l : List Nat) : Fx :=
  if op = 0 then sumOf f k l else fc (extOf (op == 1) f l)

/-- VX.RED (R230). -/
def vxRed (op f : Nat) (cols : Bool) (a : Tile) : VxOut :=
  let x := a.dense
  if cols then
    let r := (List.range 32).map fun r =>
      redOf op f 9 ((List.range 512).map fun e => x.getD (512 * r + e) 0)
    let o := vxOut r
    { o with data := (r.zipIdx.filter fun p => p.1.w != 0).map fun p => (512 * p.2, p.1.w) }
  else
    vxOut ((List.range 512).map fun e =>
      redOf op f 5 ((List.range 32).map fun r => x.getD (512 * r + e) 0))

/-- Lowest index of the maximum, NaNs ignored (R231). -/
def argMax (f : Nat) (l : List Nat) : Nat :=
  let key : Nat → Int := fun w => if isFlt f then fkey (readFlt f w) else readInt f w
  let ok : Nat → Bool := fun w => !(isFlt f && fIsNan (readFlt f w))
  let r := l.zipIdx.foldl (fun (b : Option (Nat × Int)) p =>
    if !ok p.1 then b
    else match b with
      | none => some (p.2, key p.1)
      | some (_, m) => if m < key p.1 then some (p.2, key p.1) else b) none
  match r with
  | some (i, _) => i
  | none => 2 ^ 32 - 1

/-- VX.SUM: the scalar summary of a tile (R231). -/
def vxSum (kind f : Nat) (a : Tile) : Fx :=
  let l := a.dense.toList
  match kind with
  | 0 => fc (extOf true f l)
  | 1 => fc (extOf false f l)
  | 2 => sumOf f 14 l
  | 3 => fc (l.filter fun w => if isFlt f then !fIsZero (readFlt f w) else readInt f w != 0).length
  | _ => fc (argMax f l)

/-! ### Compress, expand and conversion (R233, R234) -/

/-- Containers of `a` at the active positions of the mask. -/
def cprList (a m : Array Nat) : List Nat :=
  (tileIdx.filter fun i => m.getD i 0 != 0).map fun i => a.getD i 0

/-- VX.EXP: containers spread over the active positions. -/
def expList (a m : Array Nat) : List Nat → Nat → List Nat
  | [], _ => []
  | i :: l, n =>
    if m.getD i 0 != 0 then a.getD n 0 :: expList a m l (n + 1) else 0 :: expList a m l n

/-- Active elements of a mask. -/
def actives (b : Tile) : Nat := b.length

/-- VX.CPR. -/
def vxCpr (a b : Tile) : Tile := tileOf (cprList a.dense b.dense)

/-- VX.EXP. -/
def vxExp (a b : Tile) : Tile := tileOf (expList a.dense b.dense tileIdx 0)

/-- One element of VX.CVT (R234). -/
def cvtElt (src dst w : Nat) : Fx :=
  if isFlt src then
    let x := readFlt src w
    if isFlt dst then
      if src = dst then fc x
      else if dst = 3 then froundTo 8 (fc x)
      else fc (fcleanW x)
    else
      match fdec x with
      | .nan => fc 0
      | .inf n => ⟨cont (if n then -(2 ^ (intBits dst - 1)) else 2 ^ (intBits dst - 1) - 1), 4⟩
      | .fin n m e => satInt dst (rintDy n m e)
  else if isFlt dst then fc (fOfInt (fltBits dst) (readInt src w))
  else satInt dst (readInt src w)

/-- VX.CVT. -/
def vxCvt (src dst : Nat) (a : Tile) : VxOut :=
  let x := a.dense
  vxOut (tileIdx.map fun i => cvtElt src dst (x.getD i 0))

/-- One element of VX.ACT in the tag format `f` (R236). -/
def actElt (code f w : Nat) : Fx :=
  if isFlt f then
    let r := factF code (fc (readFlt f w))
    if f = 3 then froundTo 8 r else r
  else
    let x := readInt f w
    match code with
    | 0 => fc (cont x)
    | 1 => fc (cont (max x 0))
    | 2 => satInt f (if x < 0 then -x else x)
    | _ => satInt f (-x)

/-- VX.ACT. -/
def vxAct (code f : Nat) (a : Tile) : VxOut :=
  let x := a.dense
  vxOut (tileIdx.map fun i => actElt code f (x.getD i 0))

/-! ### VX.RQ (R235) -/

/-- The 48-bit accumulator of column `c` in row `r` of a W48 tile (R172). -/
def w48At (a : Array Nat) (r c : Nat) : Int :=
  toS 48 (a.getD (512 * r + 2 * c) 0 + a.getD (512 * r + 2 * c + 1) 0 % 2 ^ 16 * 2 ^ 32)

/-- Source values of a conversion by the tag's format. -/
def rqSrc (fmt : Nat) (a : Array Nat) : RqSrc :=
  if fmt = 5 then
    .ints ((List.range 32).flatMap fun r => (List.range 256).map fun c => w48At a r c)
  else if isFlt fmt then .floats (tileIdx.map fun i => readFlt fmt (a.getD i 0))
  else .ints (tileIdx.map fun i => readInt fmt (a.getD i 0))

/-- The destination after a conversion: in place, or the half of a W48 row block. -/
def rqDest (fmt half : Nat) (old : Tile) (codes : List (Int × Bool)) : Tile :=
  if fmt = 5 then
    let o := old.dense
    let c := codes.toArray
    tileOf (tileIdx.map fun i =>
      let e := i % 512
      if e / 256 = half then cont ((c.getD (256 * (i / 512) + e % 256) (0, false)).1)
      else o.getD i 0)
  else tileOf (codes.map fun p => cont p.1)

/-! ### Min-sum (R238, R239) -/

/-- The absent code of a format. -/
def absent (f : Nat) : Int := -(2 ^ (intBits f - 1))

/-- VX.MIN2 of one row: min1, min2, idx and the count. -/
def min2Row (f : Nat) (l : List Nat) : Int × Int × Nat × Nat :=
  let mx : Int := 2 ^ (intBits f - 1) - 1
  let es := (l.zipIdx.map fun p => (readInt f p.1, p.2)).filter fun p => p.1 != absent f
  let mags := es.map fun p => ((p.1.natAbs : Int), p.2)
  let r := mags.foldl (fun (b : Int × Int × Nat) p =>
    if p.1 < b.1 then (p.1, b.1, p.2) else if p.1 < b.2.1 then (b.1, p.1, b.2.2) else b)
    (2 ^ 40, 2 ^ 40, 0)
  if mags.isEmpty then (mx, mx, 0, 0)
  else (r.1, if mags.length = 1 then mx else r.2.1, r.2.2, mags.length)

/-- VX.MIN2. -/
def vxMin2 (f : Nat) (a : Tile) : VxOut :=
  let x := a.dense
  vxOut ((List.range 32).flatMap fun r =>
    let m := min2Row f ((List.range 512).map fun e => x.getD (512 * r + e) 0)
    [fc (cont m.1), fc (cont m.2.1), fc m.2.2.1, fc m.2.2.2] ++ List.replicate 508 (fc 0))

/-- VX.SGNX of one row, given the row of the VX.MIN2 results. -/
def sgnxRow (f : Nat) (l m : List Nat) : List Nat :=
  let m1 := readInt f (m.getD 0 0)
  let m2 := readInt f (m.getD 1 0)
  let idx := m.getD 2 0
  let es := l.map (readInt f)
  let neg := ((es.filter fun x => x != absent f && decide (x < 0)).length) % 2
  es.zipIdx.map fun p =>
    if p.1 = absent f then cont (absent f)
    else
      let mag := if p.2 = idx then m2 else m1
      let n := (neg + (if p.1 < 0 then 1 else 0)) % 2
      cont (if n = 1 then -mag else mag)

/-- VX.SGNX. -/
def vxSgnx (f : Nat) (a b : Tile) : VxOut :=
  let x := a.dense
  let y := b.dense
  vxOut ((List.range 32).flatMap fun r =>
    (sgnxRow f ((List.range 512).map fun e => x.getD (512 * r + e) 0)
      ((List.range 512).map fun e => y.getD (512 * r + e) 0)).map fc)

end Sys2Proof.Machine
end

