-- ==== Sys2Proof/Machine/Array.lean ====
section
/-!
DEFINITION. The array and the vitrine: layouts, issue checks, dispatch, tiles and what an epoch does
to them (R169 to R193).
-/

namespace Sys2Proof.Machine

/-- Change of a gallery's array. -/
def Dev.modArr (s : Dev) (g : Fin 6) (f : ArraySt → ArraySt) : Dev :=
  s.modGal g fun x => { x with arr := f x.arr }

/-- The array of a gallery. -/
def Dev.arr (s : Dev) (g : Fin 6) : ArraySt := (vget s.gal g).arr

/-- The epoch of a gallery. -/
def Dev.ep (s : Dev) (g : Fin 6) : EpochSt := (vget s.gal g).ep

/-- The curator of a gallery. -/
def Dev.cur (s : Dev) (g : Fin 6) : CoreSt := vget s.core (curator g)

/-- A core's 32-bit address as a device address (R35). -/
def CoreSt.toDev (c : CoreSt) (a : Nat) : Nat :=
  if 0xC0000000 ≤ a then c.farbase * 0x40000000 + (a - 0xC0000000) else a

/-- A span lies wholly in a gallery's own store. -/
def inStore (g : Fin 6) (a n : Nat) : Bool :=
  decide (galStore g.val ≤ a) && decide (a + n ≤ galStore g.val + 0x1000000)

/-! ### Modes and layouts (R169 to R172) -/

/-- Columns of a mode. -/
def modeCols (m : Nat) : Nat := if m = 1 then 1024 else if m = 3 then 256 else 512

/-- Cycles per row. -/
def modeCyc (m : Nat) : Nat := if m ≤ 1 then 1 else 2

/-- Tiles per 32-row block. -/
def modeH (m : Nat) : Nat := if m = 1 ∨ m = 2 then 2 else 1

/-- Weight format of a mode, coded as FMT of the legend. -/
def modeW (m : Nat) : Nat := if m = 1 then 1 else if m = 3 then 2 else 0

/-- Activation format of a mode. -/
def modeA (m : Nat) : Nat := if m ≤ 1 then 0 else 2

/-- Bytes of an activation row (R171). -/
def rowBytes (m : Nat) : Nat := if m ≤ 1 then 512 else 1024

/-- Accumulator bits. -/
def accBits (m : Nat) : Nat := if m ≤ 1 then 32 else 48

/-- The 262,144 bytes of a plane, dense. -/
def Plane.dense (p : Plane) : Array Nat :=
  p.data.foldl (fun a q => a.set! q.1 q.2.toNat) (Array.replicate 262144 0)

/-- Weight (k, c) of a plane (R170). -/
def weightAt (fmt : Nat) (p : Array Nat) (k c : Nat) : Int :=
  match fmt with
  | 0 => toS 8 (p.getD (512 * k + c) 0)
  | 1 => toS 4 (p.getD (512 * k + c / 2) 0 / 16 ^ (c % 2))
  | _ => toS 16 (p.getD (512 * k + 2 * c) 0 + 256 * p.getD (512 * k + 2 * c + 1) 0)

/-! ### Run word (R176) -/

def RunCmd.wpc (r : RunCmd) : Bool := bit r.word 31 == 1
def RunCmd.treg (r : RunCmd) : Fin 8 := Fin.ofNat 8 (bits r.word 25 23)
def RunCmd.tsrc (r : RunCmd) : Bool := bit r.word 22 == 1
def RunCmd.chain (r : RunCmd) : Nat := bits r.word 21 20
def RunCmd.widx (r : RunCmd) : Nat := bits r.word 19 10
def RunCmd.aidx (r : RunCmd) : Nat := bits r.word 9 0

/-- Bytes of the rows of a run in memory. -/
def RunCmd.bytes (r : RunCmd) : Nat := r.n * rowBytes r.mode

/-- Weight zero point of column `c`. -/
def Dev.runZw (s : Dev) (g : Fin 6) (r : RunCmd) (c : Nat) : Int :=
  (s.leg g (if r.wpc then r.widx + c else r.widx)).zp

/-- Legend entries of the weight zero points of a run. -/
def RunCmd.wEntries (r : RunCmd) : List Nat :=
  if r.wpc then (List.range (modeCols r.mode)).map (r.widx + ·) else [r.widx]

/-- Outcome of an issue check. -/
inductive IssueErr
  | operand | epochState
  deriving DecidableEq, Repr

/-- The checks of MX.RUN (R174, R176, R177, R181, R188). -/
def Dev.runCheck (s : Dev) (g : Fin 6) (r : RunCmd) : Option IssueErr :=
  let i := (s.arr g).iss
  let act : Fin 2 := if i.active then 1 else 0
  let zpIn := fun (e fmt : Nat) =>
    decide (codeLo fmt ≤ (s.leg g e).zp) && decide ((s.leg g e).zp ≤ codeHi fmt)
  let lay := bits r.word 30 26 == 0 && (r.tsrc || bits r.word 25 23 == 0)
    && (!r.wpc || decide (r.widx + modeCols r.mode - 1 ≤ 1023))
  let cnt := decide (1 ≤ r.n) && decide (r.n ≤ if r.tsrc then 32 else 32768)
    && (r.chain == 0 || decide ((r.n + 31) / 32 * modeH r.mode ≤ 4))
  let mem := r.tsrc || (r.addr % 64 == 0 && inStore g r.addr r.bytes)
  let pl := vget i.valid act && vget i.fmt act == modeW r.mode
  let ch := match i.chain with
    | none => r.chain == 0 || r.chain == 1
    | some c => (r.chain == 2 || r.chain == 3) && c.n == r.n
  if !(lay && cnt && mem && pl && ch) then some .operand
  else if !(zpIn r.aidx (modeA r.mode) && r.wEntries.all fun e => zpIn e (modeW r.mode)) then
    some .operand
  else
    match i.chain with
    | some c => if (s.ep g).isOpen && !c.ep then some .epochState else none
    | none => none

/-- The check of MX.WLD (R174): `a` after translation. -/
def wldOk (g : Fin 6) (a : Nat) : Bool := a % 2048 == 0 && inStore g a 262144

/-- A queued command at issue. -/
def Dev.mxPush (s : Dev) (g : Fin 6) (k : ArrKind) (f : ArrIssue → ArrIssue) : Dev :=
  s.modGal g fun x => { x with
    iseq := x.iseq + 1
    arr := { x.arr with
      queue := x.arr.queue ++ [⟨k, x.ep.isOpen, x.iseq⟩]
      iss := f x.arr.iss } }

/-- Issue of MX.CFG. -/
def Dev.mxCfg (s : Dev) (g : Fin 6) (m : Nat) : Dev :=
  s.mxPush g (.cfg m) fun i => { i with mode := m }

/-- Issue of MX.WLD: the issue-order shadow plane is valid at once (R174). -/
def Dev.mxWld (s : Dev) (g : Fin 6) (a : Nat) : Dev :=
  let i := (s.arr g).iss
  let sh : Fin 2 := if i.active then 0 else 1
  s.mxPush g (.wld a (!i.active) (modeW i.mode)) fun i => { i with
    valid := vset i.valid sh true, fmt := vset i.fmt sh (modeW i.mode) }

/-- Issue of MX.SWAP. -/
def Dev.mxSwap (s : Dev) (g : Fin 6) : Dev :=
  s.mxPush g .swap fun i => { i with active := !i.active }

/-- Issue of MX.RUN. -/
def Dev.mxRun (s : Dev) (g : Fin 6) (r : RunCmd) : Dev :=
  s.mxPush g (.run r) fun i => { i with
    chain := if r.chain = 1 then some ⟨r.n, (s.ep g).isOpen⟩
      else if r.chain = 3 then none else i.chain }

/-- Nothing is queued, loading or in the pipeline (R173). -/
def ArraySt.idle (a : ArraySt) : Bool :=
  a.queue.isEmpty && a.loader.isNone && a.flight.isEmpty && a.vit.all fun t => t.st != .filling

/-- ARR_STAT (R173). -/
def ArraySt.stat (a : ArraySt) (open_ : Bool) : Nat :=
  let cnt := fun (p : VSlot → Bool) => (a.vit.filter p).length
  let busy := !a.queue.isEmpty || !a.flight.isEmpty || a.vit.any fun t => t.st == .filling
  let prov := a.queue.any (·.ep) || a.flight.any (·.prov)
    || a.vit.any (fun t => t.prov && t.st == .filling)
    || (open_ && (match a.iss.chain with | some c => c.ep | none => false))
    || (match a.loader with | some l => l.ep && open_ | none => false)
  b2n busy * 2 ^ 31 + b2n a.loader.isSome * 2 ^ 30 + b2n (a.frozen != 0) * 2 ^ 29 + b2n prov * 2 ^ 28
    + b2n a.iss.chain.isSome * 2 ^ 27 + a.iss.mode * 2 ^ 25 + b2n a.iss.active * 2 ^ 24
    + b2n (vget a.iss.valid 0) * 2 ^ 23 + b2n (vget a.iss.valid 1) * 2 ^ 22
    + a.queue.length * 2 ^ 19 + a.vit.length * 2 ^ 15 + cnt (·.st == .ready) * 2 ^ 11
    + cnt (·.st == .held) * 2 ^ 7 + cnt (·.prov) * 2 ^ 3

/-- ARR_PLANE: the planes as dispatched. -/
def ArraySt.planeView (a : ArraySt) : Nat :=
  let v := fun (p : Plane) => b2n p.valid + p.fmt * 2 + b2n p.poison * 8
  v (vget a.planes 0) + 16 * v (vget a.planes 1)

/-- Header word of a slot, as VIT_HEAD and VIT_LAST show it. -/
def VSlot.view (t : VSlot) : Nat :=
  let st := match t.st with | .filling => 1 | .ready => 2 | .held => 3
  st * 2 ^ 30 + b2n t.prov * 2 ^ 29 + b2n t.sat * 2 ^ 28 + b2n t.poison * 2 ^ 27 + t.mode * 2 ^ 25
    + t.half * 2 ^ 24 + t.valid * 2 ^ 8 + t.seq

/-- The oldest READY slot. -/
def ArraySt.head (a : ArraySt) : Option VSlot := a.vit.find? (·.st == .ready)

/-- VIT_HEAD: the oldest slot that is not HELD. -/
def ArraySt.headView (a : ArraySt) : Nat :=
  match a.vit.find? (·.st != .held) with
  | some t => t.view
  | none => 0

/-- VIT_LAST. -/
def ArraySt.lastView (a : ArraySt) : Nat := match a.last with | some t => t.view | none => 0

/-! ### Compute (R180 to R182) -/

/-- Activations of row `i` of a run. -/
def Dev.actRow (s : Dev) (g : Fin 6) (r : RunCmd) (i : Nat) : List Int :=
  let b := 8 * (rowBytes r.mode / 512)
  if r.tsrc then
    let t := (vget (vget s.gal g).vec.t r.treg).data
    (List.range 512).map fun k => toS b (SMap.get 0 t (512 * i + k))
  else
    let a := r.addr + i * rowBytes r.mode
    (List.range 512).map fun k => toS b (s.rdN (a + k * (b / 8)) (b / 8))

/-- The exact accumulator of a row and a column (R180). -/
def accOf (a : List Int) (za : Int) (w : Nat → Int) (zw : Int) : Int :=
  (a.zipIdx.map fun p => (p.1 - za) * (w p.2 - zw)).foldl (· + ·) 0

/-- All accumulators of a run: row `i`, column `c` at key 1024 i + c. -/
def Dev.runAcc (s : Dev) (g : Fin 6) (r : RunCmd) (p : Plane) : List (Nat × Int) :=
  let w := p.dense
  let za := (s.leg g r.aidx).zp
  let zws := ((List.range (modeCols r.mode)).map (s.runZw g r)).toArray
  (List.range r.n).flatMap fun i =>
    let a := s.actRow g r i
    (List.range (modeCols r.mode)).map fun c =>
      (1024 * i + c, accOf a za (fun k => weightAt p.fmt w k c) (zws.getD c 0))

/-- Output tile index of an accumulator: row block and half (R172). -/
def accTile (m key : Nat) : Nat :=
  let c := key % 1024
  let h := if m = 1 then c / 512 else if m = 2 then c / 256 else 0
  key / 1024 / 32 * modeH m + h

/-- Containers of an accumulator inside its tile (R172). -/
def accConts (m key : Nat) (v : Int) : List (Nat × Nat) :=
  let i := key / 1024 % 32
  let c := key % 1024
  if m ≤ 1 then [(512 * i + c % 512, ofS 32 v)]
  else
    let e := 512 * i + 2 * (c % 256)
    [(e, ofS 32 v), (e + 1, ofS 32 (v / 2 ^ 32))]

/-- Saturated sum of a chain (R182). -/
def chainAdd (m : Nat) (x y : Int) : Int × Bool :=
  let v := clampS (accBits m) (x + y)
  (v, decide (v ≠ x + y))

/-- The tiles of finished sums, in delivery order (R172, R184). -/
def mkTiles (r : RunCmd) (sums : List (Nat × Int)) (sat : List Nat) (prov : Bool)
    (poison : Nat → Bool) : List VSlot :=
  (List.range ((r.n + 31) / 32 * modeH r.mode)).map fun t =>
    let j := t / modeH r.mode
    let n := (sat.filter (· == t)).length
    let cs := (sums.filter fun p => accTile r.mode p.1 == t).flatMap fun p => accConts r.mode p.1 p.2
    { st := .filling, seq := 0, valid := min 32 (r.n - 32 * j), half := t % modeH r.mode,
      mode := r.mode, prov := prov, sat := n != 0, poison := poison j, satN := n,
      data := cs.filter fun p => p.2 != 0 }

/-- Poison of row block `j` of a run's activations (R191). -/
def Dev.actPoison (s : Dev) (g : Fin 6) (r : RunCmd) (j : Nat) : Bool :=
  if r.tsrc then (vget (vget s.gal g).vec.t r.treg).tag.poison
  else
    let a := r.addr + 32 * j * rowBytes r.mode
    s.poisoned a (min 32 (r.n - 32 * j) * rowBytes r.mode)

/-- Events for the ledger's activity estimate (R70): MAC, lane, stream byte or store access. -/
def Dev.activity (s : Dev) (g : Fin 6) (k : Fin 4) (n : Nat) : Dev :=
  { s with ldg := { s.ldg with act := vmod s.ldg.act g fun v => vmod v k (· + n) } }

/-- The rows of a run enter: its sums join the chain or become tiles in flight. -/
def Dev.runEnter (s : Dev) (g : Fin 6) (r : RunCmd) : Dev :=
  let s := if r.tsrc then s else s.meet (8 + g.val) r.addr r.bytes
  let a := s.arr g
  let p := vget a.planes (if a.active then 1 else 0)
  let prov := (s.ep g).isOpen
  let v := s.runAcc g r p
  let blocks := List.range ((r.n + 31) / 32)
  let anyP := p.poison || blocks.any (s.actPoison g r)
  let s0 := s
  let s := (s.count R.ARR_ROWS r.n g).activity g 0 (262144 * r.n * modeCyc r.mode)
  let s := if blocks.any (s0.actPoison g r) then s.consume g else s
  if r.chain = 0 then
    s.modArr g fun a => { a with
      flight := a.flight ++ mkTiles r v [] prov fun j => p.poison || s0.actPoison g r j }
  else if r.chain = 1 then
    s.modArr g fun a => { a with
      acc := v.filter fun q => q.2 != 0, accSat := [], accPoison := anyP }
  else
    let w := v.map fun q => (q.1, chainAdd r.mode (SMap.get 0 a.acc q.1) q.2)
    let sums := w.map fun q => (q.1, q.2.1)
    let sat := a.accSat ++ ((w.filter (·.2.2)).map fun q => accTile r.mode q.1)
    if r.chain = 2 then
      s.modArr g fun a => { a with
        acc := sums.filter fun q => q.2 != 0, accSat := sat, accPoison := a.accPoison || anyP }
    else
      s.modArr g fun b => { b with
        flight := b.flight ++ mkTiles r sums sat prov fun _ => a.accPoison || anyP
        acc := [], accSat := [], accPoison := false }

/-! ### Dispatch (R175, R187) -/

/-- The core has no buffered store that is not held (R163). -/
def CoreSt.drained (c : CoreSt) : Bool := c.sb.all (·.held)

/-- Memory a VX.ST writes. -/
def VxInstr.bytes (v : VxInstr) : Nat :=
  16384 * (if v.d % 8 = 0 then 1 else if v.d % 8 = 1 ∨ v.d % 8 = 3 then 2 else 4)

/-- The instruction writes a tile register. -/
def VxInstr.writes (v : VxInstr) (t : Fin 8) : Bool :=
  v.sub != .st && v.sub != .sum && v.td == t

/-- Overlap of two spans. -/
def overlap (a n b m : Nat) : Bool := decide (a < b + m) && decide (b < a + n)

/-- A VX instruction older than number `n` that has not ended. -/
def VecSt.older (v : VecSt) (n : Nat) : List VxInstr :=
  (v.exec.toList ++ v.waiting).filter fun i => decide (i.n < n)

/-- No earlier VX instruction stands in the way of a command's reads (R187). -/
def Dev.mxClear (s : Dev) (g : Fin 6) (c : ArrCmd) : Bool :=
  (s.cur g).charted ||
    ((vget s.gal g).vec.older c.n).all fun v =>
      match c.kind with
      | .wld a _ _ => !(v.sub == .st && overlap v.x v.bytes a 262144)
      | .run r =>
        if r.tsrc then !v.writes r.treg else !(v.sub == .st && overlap v.x v.bytes r.addr r.bytes)
      | _ => true

/-- The head of the command queue, if it may be dispatched. -/
def Dev.mxHead (s : Dev) (g : Fin 6) : Option ArrCmd :=
  let a := s.arr g
  if !s.galUp g then none
  else match a.queue with
    | [] => none
    | c :: _ => if a.frozen == 0 then some c else
      match c.kind with
      | .wld _ _ _ => some c
      | _ => none

/-- Take the head off the queue. -/
def Dev.mxTake (s : Dev) (g : Fin 6) : Dev := s.modArr g fun a => { a with queue := a.queue.tail }

/-- MX_CFG_DISPATCH. -/
def Dev.cfgDispatch (s : Dev) (g : Fin 6) : Dev :=
  match s.mxHead g with
  | some ⟨.cfg m, _, _⟩ => (s.mxTake g).modArr g fun a => { a with mode := m }
  | _ => s

/-- MX_WLD_DISPATCH: the loader starts. The plane is not valid until the load is done. -/
def Dev.wldDispatch (s : Dev) (g : Fin 6) : Dev :=
  match s.mxHead g with
  | some ⟨.wld addr pl fmt, ep, n⟩ =>
    if (s.arr g).loader.isSome || !(s.cur g).drained || !s.mxClear g ⟨.wld addr pl fmt, ep, n⟩ then s
    else
      let i : Fin 2 := if pl then 1 else 0
      (s.mxTake g).modArr g fun a => { a with
        loader := some ⟨addr, pl, fmt, ep⟩
        planes := vmod a.planes i fun p => { p with valid := false }
        epLoads := if ep then vset a.epLoads i true else a.epLoads }
  | _ => s

/-- MX_SWAP_DISPATCH: every earlier MX.WLD has completed. -/
def Dev.swapDispatch (s : Dev) (g : Fin 6) : Dev :=
  match s.mxHead g with
  | some ⟨.swap, _, _⟩ =>
    if (s.arr g).loader.isSome then s
    else (s.mxTake g).modArr g fun a => { a with active := !a.active }
  | _ => s

/-- MX_RUN_DISPATCH: the rows enter and the zero points are latched (R175, R178). -/
def Dev.runDispatch (s : Dev) (g : Fin 6) : Dev :=
  match s.mxHead g with
  | some ⟨.run r, ep, n⟩ =>
    let a := s.arr g
    if !(vget a.planes (if a.active then 1 else 0)).valid || !s.mxClear g ⟨.run r, ep, n⟩
      || (!r.tsrc && !(s.cur g).drained) then s
    else (s.mxTake g).runEnter g r
  | _ => s

/-- PLANE_LOAD_DONE (R175, R191). -/
def Dev.planeLoadDone (s : Dev) (g : Fin 6) : Dev :=
  match (s.arr g).loader with
  | none => s
  | some l =>
    let s := s.meet (8 + g.val) l.addr 262144
    let p := s.poisoned l.addr 262144
    let data := (s.mem.filter fun c => decide (l.addr ≤ c.1) && decide (c.1 < l.addr + 262144)).map
      fun c => (c.1 - l.addr, c.2)
    let s := s.modArr g fun a => { a with
      loader := none
      planes := vset a.planes (if l.plane then 1 else 0) ⟨true, l.fmt, p, data⟩ }
    let s := s.activity g 3 4096
    if p then s.consume g else s

/-! ### Vitrine (R183 to R186, R190) -/

/-- Provisional tiles that have taken a slot in the open epoch. -/
def Dev.provTiles (s : Dev) (g : Fin 6) : Nat :=
  (s.ep g).tiles + ((s.arr g).vit.filter fun t => t.prov && t.st == .filling).length

/-- An epoch reaches a bound (R213): once per epoch. -/
def Dev.epBound (s : Dev) (g : Fin 6) (code : Nat) : Dev :=
  let e := s.ep g
  if !e.isOpen || e.bound != 0 then s
  else
    let s := (s.count R.EP_BOUNDS 1 g).epFlag g 1
    s.modGal g fun x => { x with ep := { x.ep with ending := true, bound := code } }

/-- A slip of charted mode: a free number of cycles (R187). -/
def Dev.slip (s : Dev) (g : Fin 6) : Dev :=
  let (n, s) := s.draw
  (s.orR R.ARR_FLAGS 4 g).count R.ARR_SLIP n g

/-- The pipeline freezes; in charted mode that is a slip (R187). -/
def Dev.freeze (s : Dev) (g : Fin 6) (why : Nat) : Dev :=
  let s := s.modArr g fun a => { a with frozen := why }
  if (s.cur g).charted then s.orR R.ARR_FLAGS 4 g else s

/-- VITRINE_SLOT_RESERVE: the first row of the next tile leaves the pipeline (R185, R190). -/
def Dev.slotReserve (s : Dev) (g : Fin 6) : Dev :=
  let a := s.arr g
  match a.flight with
  | [] => s
  | t :: ts =>
    if !s.galUp g then s
    else if t.prov && (s.ep g).isOpen && decide (8 ≤ s.provTiles g) then (s.freeze g 2).epBound g 1
    else if 8 ≤ a.vit.length then s.freeze g 1
    else
      let n := (a.vit.filter fun t => t.st == .filling).length
      s.modArr g fun a => { a with
        flight := ts, frozen := 0, vit := a.vit ++ [{ t with seq := (a.seq + n) % 256 }] }

/-- The oldest FILLING slot becomes READY. -/
def readyFirst : List VSlot → List VSlot
  | [] => []
  | t :: l => if t.st = .filling then { t with st := .ready } :: l else t :: readyFirst l

/-- TILE_READY (R179). -/
def Dev.tileReady (s : Dev) (g : Fin 6) : Dev :=
  let a := s.arr g
  match a.vit.find? (·.st == .filling) with
  | none => s
  | some t =>
    if !s.galUp g then s
    else
      let s := s.modArr g fun a => { a with vit := readyFirst a.vit, seq := (a.seq + 1) % 256 }
      let s := if (s.ep g).isOpen then
          s.modGal g fun x => { x with ep := { x.ep with
            tiles := if t.prov then x.ep.tiles + 1 else x.ep.tiles } }
        else s
      let s := s.count R.ARR_TILES 1 g
      let s := if t.sat then (s.count R.ARR_SATCNT t.satN g).orR R.ARR_FLAGS 1 g else s
      if t.poison then s.orR R.ARR_FLAGS 8 g else s

/-- Take the head out of the vitrine: FREE outside an epoch, HELD inside (R184, R189). -/
def popFirst (hold : Bool) : List VSlot → List VSlot
  | [] => []
  | t :: l => if t.st = .ready then (if hold then { t with st := .held } :: l else l)
    else t :: popFirst hold l

/-- A pop takes the head; the vitrine-full freeze ends when a slot is free. -/
def Dev.vitPop (s : Dev) (g : Fin 6) (t : VSlot) : Dev :=
  let hold := (s.ep g).isOpen
  s.modArr g fun a => { a with
    vit := popFirst hold a.vit
    last := some { t with st := if hold then .held else .ready }
    frozen := if a.frozen = 1 && !hold then 0 else a.frozen }

/-! ### Epochs (R188, R189) -/

/-- The array at the opening of an epoch. -/
def ArraySt.epOpen (a : ArraySt) : ArraySt :=
  { a with ck := some a.iss, epLoads := Vector.replicate 2 false }

/-- The array and the vitrine at a commit. -/
def ArraySt.commit (a : ArraySt) : ArraySt :=
  { a with
    vit := (a.vit.filter fun t => t.st != .held).map fun t => { t with prov := false }
    flight := a.flight.map fun t => { t with prov := false }
    queue := a.queue.map fun c => { c with ep := false }
    iss := { a.iss with chain := a.iss.chain.map fun c => { c with ep := false } }
    loader := a.loader.map fun l => { l with ep := false }
    frozen := 0
    ck := none
    epLoads := Vector.replicate 2 false }

/-- Tiles that a squash discards. -/
def ArraySt.discards (a : ArraySt) : Nat :=
  (a.vit.filter (·.prov)).length + (a.flight.filter (·.prov)).length

/-- The array and the vitrine at a squash. A load of the epoch that has begun leaves its plane not
valid, whether it has completed or not. -/
def ArraySt.squash (a : ArraySt) : ArraySt :=
  let q := a.queue.filter fun c => !c.ep
  let i := a.ck.getD a.iss
  let v := Vector.ofFn fun k : Fin 2 => vget i.valid k && !vget a.epLoads k
  let ownChain := match a.iss.chain with | some c => c.ep | none => false
  let vit := a.vit.filter fun t => !t.prov
  { a with
    vit := (vit.filter (·.st == .held)).map (fun t => { t with st := .ready })
      ++ vit.filter fun t => t.st != .held
    flight := a.flight.filter fun t => !t.prov
    queue := q
    iss := { i with valid := v }
    mode := if q.isEmpty then i.mode else a.mode
    active := if q.isEmpty then i.active else a.active
    acc := if ownChain then [] else a.acc
    accSat := if ownChain then [] else a.accSat
    accPoison := if ownChain then false else a.accPoison
    loader := match a.loader with | some l => if l.ep then none else some l | none => none
    planes := Vector.ofFn fun k : Fin 2 =>
      { vget a.planes k with valid := (vget a.planes k).valid && !vget a.epLoads k }
    frozen := 0
    ck := none
    epLoads := Vector.replicate 2 false }

end Sys2Proof.Machine
end

