-- ==== Sys2Proof/Machine/Stream.lean ====
section
/-!
DEFINITION. Stream units and the carousel (R269 to R284).
-/

namespace Sys2Proof.Machine

/-- A stream of a gallery. -/
def Dev.stream (s : Dev) (g : Fin 6) (n : Fin 16) : Option StreamSt := vget (vget s.gal g).streams n

/-- Put a stream. -/
def Dev.setStream (s : Dev) (g : Fin 6) (n : Fin 16) (t : Option StreamSt) : Dev :=
  s.modGal g fun x => { x with streams := vset x.streams n t }

/-- Initiator ID of a stream unit (R46). -/
def streamIni (g : Fin 6) : Nat := 0x10 + g.val

/-- Bytes of a tile. -/
def StDesc.tb (d : StDesc) : Nat := d.rows * d.rowbytes

/-- Tiles of a stream when no sentinel ends it. -/
def StDesc.full (d : StDesc) : Nat := if d.kind then (d.n + d.rows - 1) / d.rows else d.n

/-! ### Addresses of rows (R271) -/

/-- Bytes of an index. -/
def StDesc.iw (d : StDesc) : Nat := if d.idx32 then 4 else 2

/-- Index `m` of an index-driven stream, as memory holds it. -/
def Dev.stIndex (s : Dev) (d : StDesc) (m : Nat) : Nat := s.rdN (d.idxbase + d.iw * m) d.iw

/-- Is index `m` the sentinel? -/
def Dev.stSentinel (s : Dev) (d : StDesc) (m : Nat) : Bool :=
  d.sent && s.stIndex d m == 2 ^ (8 * d.iw) - 1

/-- Rows of tile `t`: 0 when the stream has no such tile. -/
def Dev.stRows (s : Dev) (st : StreamSt) (t : Nat) : Nat :=
  let d := st.desc
  if st.tiles ≤ t then 0
  else if !d.kind then d.rows
  else
    let ms := ((List.range d.rows).map (t * d.rows + ·)).filter fun m => decide (m < d.n)
    (ms.takeWhile fun m => !s.stSentinel d m).length

/-- Address of row `r` of tile `t`. -/
def Dev.stRowAddr (s : Dev) (d : StDesc) (t r : Nat) : Nat :=
  if d.kind then d.base + s.stIndex d (t * d.rows + r) * d.rstride.toNat
  else ((d.base : Int) + t * d.tstride + r * d.rstride).toNat

/-- Slot address of tile `t`. -/
def StreamSt.slotAddr (st : StreamSt) (t : Nat) : Nat :=
  st.desc.slot + t % (st.depth + 1) * st.desc.tb

/-! ### Grant regions (R268, R272, R276) -/

/-- A span lies wholly in one valid grant region, writable if asked. -/
def Dev.granted (s : Dev) (g : Fin 6) (a n : Nat) (wr : Bool) : Bool :=
  (List.range 16).any fun k =>
    let b := s.rg R.GR_BASE g k
    let l := s.rg R.GR_LIM g k
    bit b 63 == 1 && decide (bits b 39 6 * 64 ≤ a)
      && decide (a + n ≤ bits b 39 6 * 64 + bits l 39 6 * 64) && (!wr || bit l 63 == 1)

/-! ### ST.OPEN (R269 to R272) -/

/-- The descriptor at an address, its SLOTBASE translated. -/
def Dev.stDesc (s : Dev) (c : CoreSt) (a : Nat) : StDesc where
  kind := bit (s.rdN a 4) 0 == 1
  dirW := bit (s.rdN a 4) 1 == 1
  idx32 := bit (s.rdN a 4) 2 == 1
  sent := bit (s.rdN a 4) 3 == 1
  cell := bit (s.rdN a 4) 4 == 1
  notify := bit (s.rdN a 4) 5 == 1
  n := s.rdN (a + 4) 4
  base := s.rdN (a + 8) 8
  rowbytes := s.rdN (a + 0x10) 4
  rows := s.rdN (a + 0x14) 4
  rstride := if bit (s.rdN a 4) 0 = 1 then s.rdN (a + 0x18) 8 else toS 64 (s.rdN (a + 0x18) 8)
  tstride := if bit (s.rdN a 4) 0 = 1 then 0 else toS 64 (s.rdN (a + 0x20) 8)
  idxbase := if bit (s.rdN a 4) 0 = 1 then s.rdN (a + 0x20) 8 else 0
  slot := c.toDev (s.rdN (a + 0x28) 4)
  donecell := s.rdN (a + 0x2C) 4

/-- The layout conditions of R270. -/
def Dev.stLayoutOk (s : Dev) (a : Nat) (d : StDesc) : Bool :=
  let ctl := s.rdN a 4
  let small := fun (x : Int) => decide (x.natAbs < 2 ^ 40) && x % 64 == 0
  bits ctl 31 6 == 0 && (d.kind || (!d.idx32 && !d.sent))
    && decide (1 ≤ d.n) && decide (d.n ≤ 16777215)
    && d.rowbytes % 64 == 0 && decide (64 ≤ d.rowbytes) && decide (d.rowbytes ≤ 262144)
    && decide (1 ≤ d.rows) && decide (d.rows ≤ 4096) && decide (d.tb ≤ 262144)
    && small d.rstride && small d.tstride
    && d.idxbase % d.iw == 0 && s.rdN (a + 0x28) 4 % 64 == 0
    && idOkCell d.donecell && s.rdN (a + 0x30) 16 == 0

/-- A span lies wholly in one mapped memory window. -/
def Dev.inWindow (s : Dev) (a n : Nat) : Bool :=
  decide (0 < n) && s.mapped a && s.mapped (a + n - 1)
    && (match regionOf a, regionOf (a + n - 1) with
      | some x, some y => x == y && x.isMem
      | _, _ => false)

/-- Ranges that RANGE checks: start, bytes, and whether the stream writes there. -/
def StDesc.ranges (d : StDesc) : List (Int × Nat × Bool) :=
  if d.kind then [((d.base : Int), 1, d.dirW), ((d.idxbase : Int), d.iw * d.n, false)]
  else [0, d.n - 1].flatMap fun t => [0, d.rows - 1].map fun r =>
    ((d.base : Int) + t * d.tstride + r * d.rstride, d.rowbytes, d.dirW)

/-- Windows that no stream may write. -/
def readOnlyWin (a : Nat) : Bool :=
  match regionOf a with | some .rom | some (.flash _) => true | _ => false

/-- Status code of ST.OPEN on stream `n` from the descriptor at device address `a` (R272). -/
def Dev.stOpenCode (s : Dev) (g : Fin 6) (n : Fin 16) (a depth : Nat) : Nat :=
  let c := s.cur g
  let d := s.stDesc c a
  let task := bit c.status 0 == 0
  if (s.stream g n).isSome then 1
  else if (s.refusal (streamIni g) a 8 .rd).isSome || s.poisoned a 64 then 6
  else if !s.stLayoutOk a d then 2
  else if d.ranges.any (fun r => decide (r.1 < 0) || !s.inWindow r.1.toNat r.2.1
      || (r.2.2 && readOnlyWin r.1.toNat)) then 3
  else if task && d.ranges.any (fun r => !s.granted g r.1.toNat r.2.1 r.2.2) then 4
  else if !inStore g d.slot ((depth + 1) * d.tb)
      || (List.finRange 16).any (fun m => match s.stream g m with
        | some t => overlap d.slot ((depth + 1) * d.tb) t.desc.slot ((t.depth + 1) * t.desc.tb)
        | none => false) then 5
  else 0

/-- ST.OPEN: the status code and the device after it. -/
def Dev.stOpen (s : Dev) (g : Fin 6) (n : Fin 16) (a depth : Nat) : Nat × Dev :=
  let s := s.meet (streamIni g) a 64
  let code := s.stOpenCode g n a depth
  let s := if code = 6 && s.poisoned a 64 then s.consume g else s
  if code ≠ 0 then (code, s)
  else
    let d := s.stDesc (s.cur g) a
    let lr := if d.kind then (d.n - 1) % d.rows + 1 else d.rows
    (0, s.setStream g n (some {
      desc := d, depth := depth, task := bit (s.cur g).status 0 == 0, prov := (s.ep g).isOpen
      taken := 0, released := 0, moved := 0, tiles := d.full, lastRows := lr, ended := false
      err := false, heldDone := 0, heldClose := false, heldCell := false
      ck := if (s.ep g).isOpen then some (0, 0) else none }))

/-! ### Tiles -/

/-- Tiles taken and not released, as software sees it: a held release counts. -/
def StreamSt.out (t : StreamSt) : Nat := t.taken - t.released - t.heldDone

/-- The next tile is ready to be taken (R273, R274). -/
def StreamSt.nextReady (t : StreamSt) : Bool :=
  if t.desc.dirW then decide (t.taken < t.moved + t.depth + 1) else decide (t.taken < t.moved)

/-- Ready tiles not taken. -/
def StreamSt.nReady (t : StreamSt) : Nat :=
  if t.desc.dirW then min t.tiles (t.moved + t.depth + 1) - t.taken else t.moved - t.taken

/-- ST_STAT of a stream (R273). -/
def streamStat (o : Option StreamSt) : Nat :=
  match o with
  | none => 0
  | some t =>
    2 ^ 31 + b2n t.ended * 2 ^ 30 + b2n t.err * 2 ^ 29 + b2n t.prov * 2 ^ 28 + (t.depth - 1) * 2 ^ 26
      + b2n t.desc.dirW * 2 ^ 25 + t.nReady * 2 ^ 22 + t.out * 2 ^ 19 + t.taken % 2 ^ 19

/-- ST_INFO of a stream. -/
def streamInfo (o : Option StreamSt) : Nat :=
  match o with
  | none => 0
  | some t =>
    let k := !t.desc.kind || t.ended
    (if k then t.tiles % 2 ^ 19 * 2 ^ 13 else 0) + (if k then t.lastRows else 0)

/-- Outcomes of ST.NEXT. -/
inductive NextRes
  | operand | stall | none | tile (addr : Nat)
  deriving DecidableEq, Repr

/-- What ST.NEXT finds (R273, R274). -/
def Dev.stNextRes (s : Dev) (g : Fin 6) (n : Fin 16) : NextRes :=
  match s.stream g n with
  | none => .operand
  | some t =>
    if t.heldClose then .operand
    else if s.stRows t t.taken = 0 then .none
    else if t.depth + 1 ≤ t.out then .operand
    else if t.nextReady then .tile (t.slotAddr t.taken)
    else .stall

/-- Take the next tile. -/
def Dev.stTake (s : Dev) (g : Fin 6) (n : Fin 16) : Dev :=
  s.modGal g fun x => { x with
    streams := vmod x.streams n fun o => o.map fun t => { t with taken := t.taken + 1 } }

/-- May ST.DONE release a tile? -/
def Dev.stDoneOk (s : Dev) (g : Fin 6) (n : Fin 16) : Bool :=
  match s.stream g n with
  | some t => !t.heldClose && decide (0 < t.out)
  | none => false

/-- ST.DONE: the release, held inside an epoch (R273, R278). -/
def Dev.stDone (s : Dev) (g : Fin 6) (n : Fin 16) : Dev :=
  let h := (s.ep g).isOpen
  s.modGal g fun x => { x with streams := vmod x.streams n fun o => o.map fun t =>
    if h then { t with heldDone := t.heldDone + 1 } else { t with released := t.released + 1 } }

/-- The target of a write stream lies outside the own store. -/
def StreamSt.outside (t : StreamSt) (g : Fin 6) : Bool := !inStore g t.desc.base 1

/-- The stream has writes that the open epoch holds (R211). -/
def Dev.stHeldWrites (s : Dev) (g : Fin 6) (n : Fin 16) : Bool :=
  match s.stream g n with
  | some t => (s.ep g).isOpen && t.desc.dirW
      && (t.heldDone != 0 || (t.outside g && decide (t.moved < t.released)))
  | none => false

/-- Every transfer the stream has started has been performed: the unit starts a transfer when its
tile's slot is free, and no transfer of a held write has started (R275). -/
def Dev.stQuiet (s : Dev) (g : Fin 6) (t : StreamSt) : Bool :=
  if t.desc.dirW then decide (t.released ≤ t.moved) || (s.ep g).isOpen && t.outside g
  else decide (s.stRows t t.moved = 0) || decide (t.released + t.depth + 1 ≤ t.moved)

/-- The unit has no transfer in flight (R124, R279). -/
def Dev.streamsQuiet (s : Dev) (g : Fin 6) : Bool :=
  (List.finRange 16).all fun n => match s.stream g n with | some t => s.stQuiet g t | none => true

/-- ST.CLOSE may complete: every released tile of a write stream has been written. -/
def StreamSt.closable (t : StreamSt) : Bool := !t.desc.dirW || decide (t.released ≤ t.moved)

/-- Close a stream: its number and its staging area are free (R275). -/
def Dev.stClose (s : Dev) (g : Fin 6) (n : Fin 16) : Dev := s.setStream g n none

/-- Cause that refuses a row of a transfer: 8 for GRANT (R276). -/
def Dev.rowCause (s : Dev) (g : Fin 6) (t : StreamSt) (a : Nat) (wr : Bool) : Option Nat :=
  if t.task && !s.granted g a t.desc.rowbytes wr then some 8
  else
    (List.range (t.desc.rowbytes / 64)).findSome? fun i =>
      (s.refusal (streamIni g) (a + 64 * i) 8 (if wr then .wr else .rd)).map Cause.code

/-- A refused row: recorded, and in the bus error log where the bus refused it (R276, R41). -/
def Dev.rowRefused (s : Dev) (g : Fin 6) (n : Fin 16) (a : Nat) (wr : Bool) (cause : Nat) : Dev :=
  let s := s.stErr g n cause a wr
  match s.refusal (streamIni g) a 8 (if wr then .wr else .rd) with
  | some c => if cause = 8 then s else s.berr (streamIni g) a 8 (if wr then .wr else .rd) c
  | none => s

/-- Zero a row of a slot, poisoned when it was refused. -/
def Dev.zeroRow (s : Dev) (a n : Nat) (p : Bool) : Dev := s.putPoison a (List.replicate n 0) p

/-- Fetch one row into its place in the slot. -/
def Dev.fetchRow (s : Dev) (g : Fin 6) (n : Fin 16) (t : StreamSt) (tile rows r : Nat) : Dev :=
  let dst := t.slotAddr tile + r * t.desc.rowbytes
  if rows ≤ r then s.zeroRow dst t.desc.rowbytes false
  else
    let src := s.stRowAddr t.desc tile r
    match s.rowCause g t src false with
    | some c => (s.rowRefused g n src false c).zeroRow dst t.desc.rowbytes true
    | none => copyGranules (streamIni g) (t.desc.rowbytes / 64) src dst s

/-- Note the end of an index-driven stream once its sentinel has been met. -/
def Dev.noteEnd (s : Dev) (g : Fin 6) (n : Fin 16) (tile rows full : Nat) : Dev :=
  if rows < full then
    s.modGal g fun x => { x with streams := vmod x.streams n fun o => o.map fun t =>
      { t with
        tiles := if rows = 0 then tile else tile + 1
        lastRows := if rows = 0 then t.desc.rows else rows } }
  else s

/-- Rows tile `t` has when no sentinel cuts it. -/
def StreamSt.fullRows (t : StreamSt) (tile : Nat) : Nat :=
  if t.desc.kind then min t.desc.rows (t.desc.n - tile * t.desc.rows) else t.desc.rows

/-- TILE_FETCH_DONE: the next tile of a read stream is in its slot (R271, R273, R276). -/
def Dev.tileFetchDone (s : Dev) (g : Fin 6) (n : Fin 16) : Dev :=
  match s.stream g n with
  | none => s
  | some t =>
    if !s.galUp g || t.desc.dirW || decide (t.tiles ≤ t.moved)
      || decide (t.released + t.depth + 1 ≤ t.moved) then s
    else
      let k := t.moved
      let s := if t.desc.kind then s.meet (streamIni g) (t.desc.idxbase + t.desc.iw * (k * t.desc.rows))
        (t.desc.iw * t.desc.rows) else s
      let rows := s.stRows t k
      let s := s.noteEnd g n k rows (t.fullRows k)
      if rows = 0 then s
      else
        let s := (List.range t.desc.rows).foldl (fun s r => s.fetchRow g n t k rows r) s
        let s := s.modGal g fun x => { x with
          streams := vmod x.streams n fun o => o.map fun t => { t with moved := t.moved + 1 } }
        (s.count R.ST_RDBYTES t.desc.tb g).activity g 2 t.desc.tb

/-- Write one row of a slot to its target. -/
def Dev.writeRow (s : Dev) (g : Fin 6) (n : Fin 16) (t : StreamSt) (tile r : Nat) : Dev :=
  let src := t.slotAddr tile + r * t.desc.rowbytes
  let dst := s.stRowAddr t.desc tile r
  match s.rowCause g t dst true with
  | some c => s.rowRefused g n dst true c
  | none =>
    (copyGranules (streamIni g) (t.desc.rowbytes / 64) src dst s).count R.ST_WRBYTES t.desc.rowbytes g

/-- TILE_WRITE_DONE: the oldest released tile of a write stream has been written (R274, R276). -/
def Dev.tileWriteDone (s : Dev) (g : Fin 6) (n : Fin 16) : Dev :=
  match s.stream g n with
  | none => s
  | some t =>
    if !s.galUp g || !t.desc.dirW || decide (t.released ≤ t.moved) || !(s.cur g).drained
      || ((s.ep g).isOpen && t.outside g) then s
    else
      let k := t.moved
      let s := if t.desc.kind then s.meet (streamIni g) (t.desc.idxbase + t.desc.iw * (k * t.desc.rows))
        (t.desc.iw * t.desc.rows) else s
      let rows := s.stRows t k
      let s := s.noteEnd g n k rows (t.fullRows k)
      let s := (List.range rows).foldl (fun s r => s.writeRow g n t k r) s
      let s := s.modGal g fun x => { x with
        streams := vmod x.streams n fun o => o.map fun t => { t with moved := t.moved + 1 } }
      s.activity g 2 (rows * t.desc.rowbytes)

/-- The add of 1 that a stream or the carousel makes on a cell as a release (R275, R282). -/
def Dev.unitAdd (s : Dev) (who : Issuer) (ini id : Nat) : Dev :=
  if s.foreign id then s.sendRemote who .add id 1 none []
  else s.cellAdd (bits id 15 0) 1 ini

/-- STREAM_END (R275); the add is held inside an epoch (R278). -/
def Dev.streamEnd (s : Dev) (g : Fin 6) (n : Fin 16) : Dev :=
  match s.stream g n with
  | none => s
  | some t =>
    let done := if t.desc.dirW then t.released == t.moved && s.stRows t t.moved == 0
      else s.stRows t t.moved == 0
    if t.ended || !done || !s.galUp g then s
    else
      let s := s.noteEnd g n t.moved (s.stRows t t.moved) (if t.tiles ≤ t.moved then 0 else t.fullRows t.moved)
      let hold := (s.ep g).isOpen && t.desc.cell
      let s := s.modGal g fun x => { x with streams := vmod x.streams n fun o => o.map fun t =>
        { t with ended := true, heldCell := hold } }
      let s := if t.desc.notify then s.orR R.ST_FLAGS 1 g else s
      if t.desc.cell && !hold then s.unitAdd (.stream g n) (streamIni g) t.desc.donecell else s

/-! ### Epochs (R278) -/

/-- A stream at the opening of an epoch. -/
def StreamSt.epOpen (t : StreamSt) : StreamSt := { t with ck := some (t.taken, t.released) }

/-- Streams of a gallery at the opening. -/
def streamsOpen (v : Vector (Option StreamSt) 16) : Vector (Option StreamSt) 16 :=
  v.map fun o => o.map StreamSt.epOpen

/-- One stream at a commit. -/
def Dev.stCommit (s : Dev) (g : Fin 6) (n : Fin 16) : Dev :=
  match s.stream g n with
  | none => s
  | some t =>
    let s := s.setStream g n (if t.heldClose then none else some { t with
      prov := false, released := t.released + t.heldDone, heldDone := 0, heldCell := false, ck := none })
    if t.heldCell then s.unitAdd (.stream g n) (streamIni g) t.desc.donecell else s

/-- Streams at a commit. -/
def Dev.streamsCommit (s : Dev) (g : Fin 6) : Dev := (List.finRange 16).foldl (fun s n => s.stCommit g n) s

/-- One stream at a squash. -/
def Dev.stSquash (s : Dev) (g : Fin 6) (n : Fin 16) : Dev :=
  match s.stream g n with
  | none => s
  | some t =>
    if t.prov then s.setStream g n none
    else
      let (a, b) := t.ck.getD (t.taken, t.released)
      let s := s.setStream g n (some { t with
        taken := a, released := b, heldDone := 0, heldClose := false, heldCell := false, ck := none })
      if t.heldCell then s.unitAdd (.stream g n) (streamIni g) t.desc.donecell else s

/-- Streams at a squash. -/
def Dev.streamsSquash (s : Dev) (g : Fin 6) : Dev := (List.finRange 16).foldl (fun s n => s.stSquash g n) s

/-! ### Carousel (R280 to R284) -/

/-- Change of a gallery's carousel link. -/
def Dev.modCar (s : Dev) (g : Fin 6) (f : CarSt → CarSt) : Dev := s.modGal g fun x => { x with car := f x.car }

/-- The carousel link of a gallery. -/
def Dev.car (s : Dev) (g : Fin 6) : CarSt := (vget s.gal g).car

/-- GROUP of a gallery. -/
def Dev.carGroup (s : Dev) (g : Fin 6) : Nat := s.fld R.CAR_CFG 5 0 g

/-- Galleries of a group word. -/
def groupOf (w : Nat) : List (Fin 6) := (List.finRange 6).filter fun g => bit w g.val == 1

/-- Members of the group that runs. -/
def Dev.carMembers (s : Dev) : List (Fin 6) :=
  (List.finRange 6).filter fun g => (s.car g).st == .running

/-- SHARD in bytes. -/
def Dev.shard (s : Dev) (g : Fin 6) : Nat := s.fld R.CAR_SHARD 17 0 g * 64

/-- The successor of a member: the next member in ascending order, with wrap. -/
def succOf (ms : List (Fin 6)) (g : Fin 6) : Fin 6 :=
  match ms.find? fun m => decide (g.val < m.val) with
  | some m => m
  | none => ms.headD g

/-- Members fall into ERROR. -/
def Dev.carError (s : Dev) (ms : List (Fin 6)) (code : Nat) : Dev :=
  ms.foldl (fun s g => (s.modCar g fun c => { c with st := .error, errc := code, sending := false }).orR
    R.CAR_FLAGS 2 g) s

/-- The power of a gallery is on. -/
def Dev.galOn (s : Dev) (g : Fin 6) : Bool := vget s.pwr.gal g != .gated

/-- CAROUSEL_START (R281). -/
def Dev.carStart (s : Dev) (g : Fin 6) : Dev :=
  let c := s.cur g
  if (s.car g).st = .running then s
  else s.modCar g fun x => { x with
    st := .starting, errc := 0, cur := false, passed := false, indone := false, outdone := false
    step := 0, sending := false
    buf := #v[c.toDev (s.rg R.CAR_BUF0 g), c.toDev (s.rg R.CAR_BUF1 g)] }

/-- The configuration of a group whose members have all started is good (R281). -/
def Dev.carCfgOk (s : Dev) (ms : List (Fin 6)) : Bool :=
  match ms with
  | [] => false
  | m :: _ =>
    decide (2 ≤ ms.length) && groupOf (s.carGroup m) == ms
      && ms.all fun g => s.carGroup g == s.carGroup m && s.shard g == s.shard m
        && s.bt R.CAR_CFG 31 g && decide (1 ≤ s.shard g) && decide (s.shard g ≤ 131072 * 64)
        && inStore g (vget (s.car g).buf 0) (s.shard g) && inStore g (vget (s.car g).buf 1) (s.shard g)

/-- CAROUSEL_GROUP_START: every gallery that a started member's GROUP names has been started
(R281). The links of every group cross the whole ring, so every gallery must be powered. -/
def carGroupStart (s : Dev) : Dev :=
  let ms := (List.finRange 6).filter fun g => (s.car g).st == .starting
  let named := ms.flatMap fun g => groupOf (s.carGroup g)
  if ms.isEmpty || !(named.all fun g => g ∈ ms) || !s.carMembers.isEmpty then s
  else if !(List.finRange 6).all s.galOn then s.carError ms 2
  else if !s.carCfgOk ms then s.carError ms 1
  else ms.foldl (fun s g => s.modCar g fun c => { c with st := .running }) s

/-- CAROUSEL_PASS (R282). -/
def Dev.carPass (s : Dev) (g : Fin 6) : Dev :=
  if (s.car g).st = .running then s.modCar g fun c => { c with passed := true } else s

/-- Undefined contents: free bytes. -/
def Dev.freeMem (s : Dev) (a n : Nat) : Dev :=
  let s := s.wrBytes a ((List.range n).map fun i => BitVec.ofNat 8 (Config.free (s.free + i)))
  { s with free := s.free + n }

/-- CAROUSEL_STOP (R284): transfers are abandoned and the receiving buffers hold no defined
contents. -/
def Dev.carStop (s : Dev) (g : Fin 6) : Dev :=
  let ms := s.carMembers
  if g ∈ ms then
    ms.foldl (fun s m =>
      let c := s.car m
      let s := s.freeMem (vget c.buf (if c.cur then 0 else 1)) (s.shard m)
      s.modCar m fun _ => CarSt.init) s
  else s.modCar g fun c => if c.st = .starting ∨ c.st = .error then CarSt.init else c

/-- CAROUSEL_TRANSFER_START (R282): both ends have entered the step; held inside an epoch of the
sender (R284). -/
def Dev.carTransferStart (s : Dev) (g : Fin 6) : Dev :=
  let ms := s.carMembers
  let r := succOf ms g
  let c := s.car g
  if g ∈ ms ∧ c.sending = false ∧ c.outdone = false ∧ (s.car r).step = c.step ∧ (s.ep g).isOpen = false
  then s.modCar g fun c => { c with sending := true }
  else s

/-- Galleries that forward a transfer from `g` to `r`. -/
def forwarders (g r : Fin 6) : List (Fin 6) :=
  (List.finRange 6).filter fun x =>
    let d := (x.val + 6 - g.val) % 6
    decide (0 < d) && decide (d < (r.val + 6 - g.val) % 6)

/-- CAROUSEL_TRANSFER_DONE (R282, R283). -/
def Dev.carTransferDone (s : Dev) (g : Fin 6) : Dev :=
  let ms := s.carMembers
  let c := s.car g
  if g ∈ ms ∧ c.sending = true then
    let r := succOf ms g
    let n := s.shard g
    let d := s.car r
    let src := vget c.buf (if c.cur then 1 else 0)
    let dst := vget d.buf (if c.cur then 0 else 1)
    let s := copyGranules (streamIni g) (n / 64) src dst s
    let s := s.modCar g fun c => { c with sending := false, outdone := true }
    let s := s.modCar r fun c => { c with indone := true }
    let s := (s.count R.CAR_TXBYTES n g).count R.CAR_RXBYTES n r
    (forwarders g r).foldl (fun s x => s.count R.CAR_FWDBYTES n x) s
  else s

/-- CAROUSEL_STEP_ENTRY (R282). -/
def Dev.carStepEntry (s : Dev) (g : Fin 6) : Dev :=
  let c := s.car g
  if c.st = .running ∧ c.passed = true ∧ c.indone = true ∧ c.outdone = true then
    let s := s.modCar g fun c => { c with
      cur := !c.cur, step := (c.step + 1) % 2 ^ 16, passed := false, indone := false, outdone := false }
    let s := s.orR R.CAR_FLAGS 1 g
    if s.bt R.CAR_CFG 30 g then s.unitAdd (.carousel g) (streamIni g) (s.rg R.CAR_CELL g) else s
  else s

/-- A reset or a gating of gallery `g` takes the running group, or its path, down (R281, R284). A
reset without gating counts for a member only. -/
def Dev.carLost (s : Dev) (g : Fin 6) (gated : Bool) : Dev :=
  let ms := s.carMembers
  let s := if gated || decide (g ∈ ms) then s.carError (ms.filter (· != g)) 2 else s
  s.modCar g fun _ => CarSt.init

/-- CAR_STAT. -/
def CarSt.view (c : CarSt) : Nat :=
  let st := match c.st with | .idle => 0 | .starting => 1 | .running => 2 | .error => 3
  st * 2 ^ 30 + b2n c.cur * 2 ^ 29 + b2n c.passed * 2 ^ 28 + b2n c.indone * 2 ^ 27
    + b2n c.outdone * 2 ^ 26 + c.errc * 2 ^ 20 + c.step

end Sys2Proof.Machine
end

