-- ==== Sys2Proof/Machine/Operands.lean ====
section
/-!
DEFINITION. Operand forms of the curator instruction set (R105, R108, R113, R114, R116, R125, R129,
R131) and the registers of a core.
-/

namespace Sys2Proof.Machine

/-- Scalar register: s0 reads 0 (R105). -/
def CoreSt.reg (x : CoreSt) (i : Fin 32) : Word := if i = 0 then 0 else vget x.sr i

/-- Write of a scalar register: a write of s0 is discarded (R105). -/
def CoreSt.setReg (x : CoreSt) (i : Fin 32) (v : Word) : CoreSt :=
  if i = 0 then x else { x with sr := vset x.sr i v }

/-- IMM16 or OFF16, sign-extended (R113, R114). -/
def sext16 (i : BitVec 16) : Word := i.signExtend 32

/-- IMM16, zero-extended (R113). -/
def zext16 (i : BitVec 16) : Word := i.zeroExtend 32

/-- Effective address of a load or store (R114). -/
def CoreSt.ea (x : CoreSt) (sa : Fin 32) (i : BitVec 16) : Nat := (x.reg sa + sext16 i).toNat

/-- Target of a conditional branch (R116). -/
def CoreSt.brTarget (x : CoreSt) (off : BitVec 16) : Word := x.pc + 4 + sext16 off * 4

/-- Target of J and JAL (R116). -/
def CoreSt.jTarget (x : CoreSt) (off : BitVec 26) : Word := x.pc + 4 + off.signExtend 32 * 4

/-- A scalar register as a natural number. -/
def CoreSt.nat (x : CoreSt) (i : Fin 32) : Nat := (x.reg i).toNat

/-- A field that names a tile register: 8 to 31 are outside the range (R125). -/
def tileField (f : Fin 32) : Option (Fin 8) := if h : f.val < 8 then some ⟨f.val, h⟩ else none

/-- A field that names a stream: bit 4 must be 0 (R130). -/
def streamField (f : Fin 32) : Option (Fin 16) := if h : f.val < 16 then some ⟨f.val, h⟩ else none

/-- A D field that names a timeout register: bit 5 must be 0 (R132). -/
def timeoutField (d : Fin 64) : Option (Fin 32) := if h : d.val < 32 then some ⟨d.val, h⟩ else none

/-- The element-format field F: 5 to 7 are outside the range (R129). -/
def fmtField (d : Nat) : Option Nat := if d % 8 ≤ 4 then some (d % 8) else none

/-- Bytes of an element in memory (R225). -/
def fmtBytes (f : Nat) : Nat := if f = 0 then 1 else if f = 1 ∨ f = 3 then 2 else 4

/-- Device address of a 32-bit address of a core (R35). -/
def CoreSt.da (x : CoreSt) (a : Nat) : Nat := x.toDev a

/-- The work that holds a gallery (R295). -/
def Dev.workOf (s : Dev) (g : Fin 6) : Option Work := s.hub.works.find? fun w => g.val ∈ w.gals

/-- Number of that work, 0 if none (R291). -/
def Dev.workId (s : Dev) (g : Fin 6) : Nat := match s.workOf g with | some w => w.id | none => 0

end Sys2Proof.Machine
end

