-- ==== Sys2Proof/Machine/Flags.lean ====
section
/-!
DEFINITION. Flags that follow from state: the interrupt sources of the cores (R155) and the status
words that units show.
-/

namespace Sys2Proof.Machine

/-- A status register AND its enables is nonzero. -/
def Dev.irq (s : Dev) (st en : RegDef) (k : Nat) (i : Nat := 0) : Bool :=
  (s.rg st k i &&& s.rg en k i) != 0

/-- A ring notifies a target while it holds an entry (R298). -/
def Dev.ringNotify (s : Dev) (t : Nat) : Bool :=
  s.hub.rings.any fun p => s.ringEn p.1 && s.fld R.RING_CFG 19 16 0 p.1 == t && decide (0 < s.ringOcc p.1)

/-- ECC source of a curator (R513, fault chapter). -/
def Dev.galEcc (s : Dev) (g : Nat) : Bool := (s.rg R.GFLT_STAT g &&& s.rg R.GFLT_CIEN g) % 8 != 0

/-- Sources of a curator, bits 1 to 7 of IPEND (R155). -/
def Dev.curatorSrc (s : Dev) (g : Nat) : Nat :=
  2 * b2n (s.ringNotify (g + 1))
  + 4 * b2n (s.bt R.TT_MARKST g 0 || (s.fitted 1 && s.bt R.TT_MARKST g 1))
  + 8 * b2n (s.irq R.ST_FLAGS R.ST_IEN g || s.irq R.CAR_FLAGS R.CAR_IEN g)
  + 16 * b2n (s.irq R.ARR_FLAGS R.ARR_IEN g || s.irq R.VEC_FLAGS R.VEC_IEN g
      || s.irq R.EP_FLAGS R.EP_IEN g)
  + 32 * b2n (s.irq R.AUD_FLAGS R.AUD_IEN g)
  + 64 * b2n (s.galEcc g)
  + 128 * b2n (s.bt R.GFLT_STAT 3 g && s.bt R.GFLT_CIEN 3 g)

/-- The SERIAL and FLASH source of a warden (R499). -/
def Dev.serialSrc (s : Dev) (d : Nat) : Bool :=
  ((List.range 4).any fun p => s.irq R.CSP_IRQ R.CSP_IEN d p) || s.irq R.GPIO_IRQ R.GPIO_IEN d
    || (List.range 2).any fun p => s.irq R.FL_IRQ R.FL_IEN d p

/-- Sources of a warden, bits 1 to 12 of IPEND (R155). -/
def Dev.wardenSrc (s : Dev) (d : Fin 2) : Nat :=
  2 * b2n (s.irq R.TT_IRQ R.TT_IEN d)
  + 4 * b2n (s.irq R.MER_STAT R.MER_IEN d)
  + 8 * b2n (s.irq R.MTR_IRQ R.MTR_IEN d)
  + 16 * b2n (d.val == 0 && s.irq R.LDG_IRQ R.LDG_IEN 0)
  + 32 * b2n (s.bt R.IO_BERR_INFO 31 d)
  + 64 * b2n (s.irq R.RF_IRQ R.RF_IEN d)
  + 128 * b2n (s.irq R.AC_IRQ R.AC_IEN d)
  + 256 * b2n (s.irq R.TRK_IRQ R.TRK_IEN d)
  + 512 * b2n (s.serialSrc d)
  + 1024 * b2n (vget s.die d).ended
  + 2048 * b2n ((s.rg R.AOFLT_STAT d &&& s.rg R.AOFLT_IEN d) % 4 != 0)
  + 4096 * b2n (s.bt R.AOFLT_STAT 2 d && s.bt R.AOFLT_IEN 2 d)

/-- IPEND of a core (R155). -/
def Dev.ipend (s : Dev) (c : Fin 8) : Nat :=
  b2n (vget s.core c).soft +
    (match CoreId.gal c with
    | some g => s.curatorSrc g.val
    | none => match CoreId.die c with | some d => s.wardenSrc d | none => 0)

/-- Pending sources that are enabled in IEN (R152). -/
def Dev.ipendEn (s : Dev) (c : Fin 8) : Nat := s.ipend c &&& (vget s.core c).ien

/-- Number of the lowest 1 bit of a word. -/
def lowBit : Nat → Nat → Nat
  | 0, _ => 0
  | n + 1, w => if w % 2 = 1 then 0 else 1 + lowBit n (w / 2)

/-- EP_STAT (R135). -/
def Dev.epStat (s : Dev) (g : Fin 6) : Nat :=
  let e := s.ep g
  let held := ((s.cur g).sb.filter (·.held)).length
  b2n e.isOpen * 2 ^ 31 + b2n e.radio * 2 ^ 30 + b2n e.defer.isSome * 2 ^ 29 + b2n (e.ending && e.bound != 0) * 2 ^ 28
    + e.last * 2 ^ 25 + held * 2 ^ 21 + e.tiles % 16 * 2 ^ 17 + e.bound * 2 ^ 14 + e.satidx

/-- DBG_STAT of a core (R166 to R168). -/
def Dev.dbgStat (s : Dev) (c : Fin 8) : Nat :=
  let x := vget s.core c
  let prov := match CoreId.gal c with | some g => (s.ep g).isOpen | none => false
  b2n (x.run == .halted) * 2 ^ 31 + b2n prov * 2 ^ 30 + s.rg R.DBG_STAT c.val % 2 ^ 30

/-- STATUS word of the vector engine. -/
def VecSt.stat (v : VecSt) (charted headReady : Bool) : Nat :=
  let code : VxSub → Nat := fun
    | .pop => 0 | .ld => 1 | .st => 2 | .add => 3 | .sub => 4 | .mul => 5 | .max => 6 | .min => 7
    | .red => 8 | .sum => 9 | .cpr => 10 | .exp => 11 | .cvt => 12 | .rq => 13 | .act => 14
    | .cmp => 15 | .bcst => 16 | .min2 => 17 | .sgnx => 18
  let busy := v.exec.isSome || !v.waiting.isEmpty
  let prov := (v.t.toList.any fun r => r.tag.prov)
  let wp := match v.exec, v.waiting with
    | none, i :: _ => i.sub == .pop && !charted && !headReady
    | _, _ => false
  b2n busy * 2 ^ 31 + b2n prov * 2 ^ 30 + b2n wp * 2 ^ 29 + v.waiting.length * 2 ^ 26
    + (match v.exec with | some i => code i.sub | none => 0) * 2 ^ 21

/-- VEC_TAG. -/
def Tag.view (t : Tag) : Nat :=
  b2n t.prov * 2 ^ 31 + b2n t.poison * 2 ^ 30 + t.half * 2 ^ 29 + t.fmt * 2 ^ 24 + t.valid * 2 ^ 8
    + t.seq

end Sys2Proof.Machine
end

