-- ==== Sys2Proof/Machine/CoreBase.lean ====
section
/-!
DEFINITION. How a core's instructions commit and how it halts (R119, R120, R137, R141 to R147, R156,
R166, R167).
-/

namespace Sys2Proof.Machine

/-- Between a branch and its slot, or a MODESW and its shadow (R143, R156). -/
def CoreSt.midUnit (x : CoreSt) : Bool := x.slot.isSome || x.shadow.isSome

/-- The core stands at an instruction boundary at which an interrupt, an imprecise exception or a
halt may be taken (R143, R156). -/
def CoreSt.atBoundary (x : CoreSt) : Bool := !x.midUnit && x.load.isNone

/-- Loop level `n` is active and ends at `pc` (R120). -/
def CoreSt.atLoopEnd (x : CoreSt) (n : Fin 2) : Bool :=
  vget x.lc n != 0 && vget x.le n == x.pc.toNat

/-- Set LCn. -/
def CoreSt.setLc (x : CoreSt) (n : Fin 2) (v : Nat) : CoreSt := { x with lc := vset x.lc n v }

/-- One level's loop-back decision: `none` when it falls through (R120). -/
def CoreSt.loopBack (x : CoreSt) (n : Fin 2) : Option CoreSt :=
  if x.atLoopEnd n && decide (1 < vget x.lc n) then
    some { x.setLc n (vget x.lc n - 1) with pc := BitVec.ofNat 32 (vget x.ls n) }
  else none

/-- The level after it falls through: LCn of 1 becomes 0. -/
def CoreSt.fallThrough (x : CoreSt) (n : Fin 2) : CoreSt := if x.atLoopEnd n then x.setLc n 0 else x

/-- The next instruction of the path: out of a delay slot to where its branch goes, else by the
loop-back decisions, level 1 first (R116, R120). -/
def CoreSt.advance (x : CoreSt) : CoreSt :=
  match x.slot with
  | some (_, p) => { x with pc := p, slot := none }
  | none =>
    match x.loopBack 1 with
    | some y => y
    | none =>
      let x := x.fallThrough 1
      match x.loopBack 0 with
      | some y => y
      | none =>
        let x := x.fallThrough 0
        { x with pc := x.pc + 4 }

/-- A branch: the slot follows, then `target`, or the instruction after the slot. -/
def CoreSt.branchTo (target : Word) (x : CoreSt) : CoreSt :=
  { x with slot := some (x.pc, target), pc := x.pc + 4 }

/-- A MODESW shadow that commits puts the new mode in force (R156). Interrupts may be taken after
the shadow of a MODESW that selects curated mode. -/
def CoreSt.endShadow (x : CoreSt) : CoreSt :=
  match x.shadow with
  | some (_, n) => { x with charted := n, shadow := none }
  | none => x

/-- Change of DBG_STAT.HCAUSE. -/
def Dev.hcause (s : Dev) (c : Fin 8) (v : Nat) : Dev := s.setF R.DBG_STAT 23 20 v c.val

/-- The core halts; a stalled wait is abandoned (R166). -/
def Dev.haltCore (s : Dev) (c : Fin 8) (cause : Nat) : Dev :=
  (s.modCore c fun x => { x with run := .halted, stall := .none, haltReq := false }).hcause c cause

/-- The first step unit after a resume has ended: with STEP the core halts again (R167). -/
def Dev.stepEnd (s : Dev) (c : Fin 8) : Dev :=
  let x := vget s.core c
  if x.resumed && !x.midUnit then
    let s := s.modCore c fun x => { x with resumed := false }
    if s.bt R.DBG_CTL 29 c.val then s.haltCore c 2 else s
  else s

/-- One more instruction inside the open epoch (R213). -/
def Dev.epInstr (s : Dev) (c : Fin 8) : Dev :=
  match CoreId.gal c with
  | some g => if (s.ep g).isOpen then
      s.modGal g fun x => { x with ep := { x.ep with instr := x.ep.instr + 1 } } else s
  | none => s

/-- The instruction at `pc` commits; `move` says where the path goes on. -/
def Dev.commit (s : Dev) (c : Fin 8) (move : CoreSt → CoreSt) : Dev :=
  let s := s.modCore c fun x =>
    let x := move x.endShadow
    { x with
      instret := (x.instret + 1) % 2 ^ 64, stall := .none, load := none, mustRun := false
      intPoint := false }
  s.stepEnd c

/-! ### Breakpoints (R166) -/

/-- Some enabled execution breakpoint matches. -/
def Dev.execBkpt (s : Dev) (c : Fin 8) (pc : Nat) : Bool :=
  (List.range 4).any fun k =>
    s.bt R.BKPT_CTL 31 c.val k && s.fld R.BKPT_CTL 1 0 c.val k == 0 && s.rg R.BKPT_ADDR c.val k == pc

/-- Some enabled data breakpoint matches an access of `n` bytes at issued address `a`. An access
matches a width when it shares a byte with that many bytes at ADDR (log entry 21). -/
def Dev.dataBkpt (s : Dev) (c : Fin 8) (a n : Nat) (st : Bool) : Bool :=
  (List.range 4).any fun k =>
    let kind := s.fld R.BKPT_CTL 1 0 c.val k
    let sz := s.fld R.BKPT_CTL 3 2 c.val k
    let b := s.rg R.BKPT_ADDR c.val k
    s.bt R.BKPT_CTL 31 c.val k && (kind == 3 || kind == (if st then 2 else 1))
      && (if sz = 3 then overlap a n (b / 4 * 4) 4 else overlap a n b (2 ^ sz))

/-- Halt before the instruction at `pc`: with DPC at the branch when it stands in a delay slot. -/
def Dev.bkptHalt (s : Dev) (c : Fin 8) : Dev :=
  (s.modCore c fun x => match x.slot with
    | some (b, _) => { x with pc := b, slot := none }
    | none => x).haltCore c 3

end Sys2Proof.Machine
end

