-- ==== Sys2Proof/Machine/RadioMath.lean ====
section
/-!
DEFINITION. Signal arithmetic of the field radio: half-band filters (R354, R355), RSSI (R356), the
qualifier's correlation (R358), the format decision (R359), and the waveform's tables and codes
(R339 to R351).
-/

namespace Sys2Proof.Machine

/-! ### Waveform tables -/

/-- Used subcarriers in ascending order (R340). -/
def usedK : List Int := (List.range 26).map (fun i => (i : Int) - 26) ++ (List.range 26).map (fun i => (i : Int) + 1)

/-- Data subcarriers in ascending order: the used ones that are no pilot (R340). -/
def dataK : List Int := usedK.filter fun k => !(k == -19 || k == -6 || k == 6 || k == 19)

/-- P0 on the `i`-th used subcarrier (R341). -/
def p0At (i : Nat) : Int := if bit 0x9A3C517E62B4D i = 1 then -1 else 1

/-- P0(k) for a used subcarrier `k`. -/
def p0 (k : Int) : Int := if k < 0 then p0At (k + 26).toNat else p0At (k + 25).toNat

/-- First quarter of cos(2πj/64), in units of 2^-60. -/
def cosQ : List Nat := [1152921504606846976, 1147369872436662991, 1130768441178740757,
  1103277091691359535, 1065160580698383124, 1016785991037278313, 958619196450722178,
  891220374967787610, 815238614083298888, 731405659690429196, 640528868967736374,
  543483435088187080, 441203958630471860, 334675446864527722, 224923827593068887,
  113006068906017470, 0]

/-- cos(2πj/64) in units of 2^-60. -/
def cos64 (j : Int) : Int :=
  let i := (j % 64).toNat
  if i ≤ 16 then cosQ.getD i 0
  else if i ≤ 32 then -(cosQ.getD (32 - i) 0 : Int)
  else if i ≤ 48 then -(cosQ.getD (i - 32) 0 : Int)
  else cosQ.getD (64 - i) 0

/-- sin(2πj/64) in units of 2^-60. -/
def sin64 (j : Int) : Int := cos64 (j - 16)

/-- Real and imaginary part. -/
abbrev Cpx := Int × Int

/-- Sum of two complex numbers. -/
def cadd (a b : Cpx) : Cpx := (a.1 + b.1, a.2 + b.2)

/-- `a × conj b`. -/
def cmulc (a b : Cpx) : Cpx := (a.1 * b.1 + a.2 * b.2, a.2 * b.1 - a.1 * b.2)

/-- |a|². -/
def cabs2 (a : Cpx) : Nat := (a.1 * a.1 + a.2 * a.2).toNat

/-- Samples m + 8 of P0, m = 0 to 63, times √52 × 2^60 (R339). -/
def p0Samples : List Cpx := (List.range 64).map fun m =>
  usedK.foldl (fun z k => cadd z (p0 k * cos64 (k * m), p0 k * sin64 (k * m))) (0, 0)

/-- Slots of a burst (R342). -/
def fmtLen (f : Nat) : Nat := bits f 5 4 + 1

/-- Codewords of a burst with a format word; 0 for an invalid word (R344). -/
def fmtCw (f : Nat) : Nat :=
  let q := if bits f 1 0 = 0 then 1 else if bits f 1 0 = 1 then 2 else 4
  if f = 0x0D then 1
  else if bits f 1 0 = 3 ∨ bits f 3 2 = 3 then 0
  else (240 + 336 * bits f 5 4) * q / 672

/-- A format word is valid (R344). -/
def fmtValid (f : Nat) : Bool := decide (0 < fmtCw f)

/-- CRC-24 over bits in transmission order (R346). -/
def crc24 (bs : List Bool) : Nat :=
  bs.foldl (fun r b =>
    let t := (r / 2 ^ 23 % 2 == 1) != b
    let r := r * 2 % 2 ^ 24
    if t then r ^^^ 0x864CFB else r) 0xB704CE

/-- Bits of a byte, most significant first. -/
def byteBits (b : Nat) : List Bool := (List.range 8).map fun i => bit b (7 - i) == 1

/-- Seed of the scrambler for start slot `s` and codeword `c` (R349). -/
def scrSeed (s c : Nat) : Nat := 0x4000 + 16 * (s % 1024) + c

/-- `n` scrambler bits and the register after them (R349). -/
def scramble : Nat → Nat → List Nat × Nat
  | 0, r => ([], r)
  | n + 1, r =>
    let b := (bit r 14 + bit r 13) % 2
    let (l, r') := scramble n (r * 2 % 2 ^ 15 + b)
    (b :: l, r')

/-- Data symbol and data subcarrier of a resource element (R350). -/
def reMap (e : Nat) : Nat × Nat := (e / 48, 7 * (e % 48) % 48)

/-! ### Filters -/

/-- Half-band tap h[k] in units of 2^-15 (R354). -/
def hTap (k : Int) : Int :=
  match k.natAbs with
  | 0 => 16384
  | 1 => 10176
  | 3 => -3024
  | 5 => 1416
  | 7 => -632
  | 9 => 256
  | _ => 0

/-- Round ties to even at a power of two. -/
def rheSh (x : Int) (n : Nat) : Int := rhe x (2 ^ n)

/-- One component of a baseband sample: 19 grid points newest first, the middle one its own
(R354). The flag tells whether it was clamped. -/
def rxTap (l : List Int) : Int × Bool :=
  let x := (List.range 19).foldl (fun (a : Int) (i : Nat) => a + hTap ((i : Int) - 9) * l.getD i 0) 0
  let v := rheSh x 11
  (clampS 16 v, clampS 16 v != v)

/-- Baseband sample from the grid points, newest first: value and clamped components. -/
def rxSample (l : List Cpx) : Cpx × Nat :=
  let (a, ca) := rxTap (l.map (·.1))
  let (b, cb) := rxTap (l.map (·.2))
  ((a, b), b2n ca + b2n cb)

/-- Clamped components of the transmit path over a list of zero-stuffed samples (R355). -/
def txClamped (u : List Int) : Nat :=
  (List.range u.length).foldl (fun c n =>
    let x := (List.range 19).foldl (fun (a : Int) (i : Nat) =>
      let k : Int := (i : Int) - 9
      let j : Int := (n : Int) - k
      a + hTap k * (if j < 0 then 0 else u.getD j.toNat 0)) 0
    let v := rheSh x 18
    if v < -2048 ∨ 2047 < v then c + 1 else c) 0

/-! ### RSSI (R356) -/

/-- 160 log10(s / 2^34) lies above r - 1/2. -/
def rssiAbove (s : Nat) (r : Int) : Bool :=
  -- s^320 > 2^(34·320) · 10^(2r-1)
  let e := 2 * r - 1
  if 0 ≤ e then decide (2 ^ 10880 * 10 ^ e.toNat < s ^ 320)
  else decide (2 ^ 10880 < s ^ 320 * 10 ^ (-e).toNat)

/-- The largest r of `lo .. lo + 2^n - 1` that the value lies above, given that it lies above
`lo`. -/
def rssiSearch (s : Nat) : Nat → Int → Int
  | 0, lo => lo
  | n + 1, lo => if rssiAbove s (lo + 2 ^ n) then rssiSearch s n (lo + 2 ^ n) else rssiSearch s n lo

/-- RHE(160 log10(P / 2^30)) for the sum `s` = 16 P of 16 samples, `s > 0`. -/
def rssiOf (s : Nat) : Int := rssiSearch s 12 (-2048)

/-! ### Qualifier (R358) -/

/-- Correlation of 64 samples with P0: |Σ y conj p|² and Σ |y|². -/
def corr (y : List Cpx) : Nat × Nat :=
  let z := (y.zip p0Samples).foldl (fun a yp => cadd a (cmulc yp.1 yp.2)) (0, 0)
  (cabs2 z, y.foldl (fun a v => a + cabs2 v) 0)

/-- Σ |p|² in the units of `p0Samples`. -/
def p0Energy : Nat := p0Samples.foldl (fun a v => a + cabs2 v) 0

/-- ρ² of `a` exceeds that of `b`; a window without energy counts as ρ = 0 (log entry 13). -/
def rhoGt (a b : Nat × Nat) : Bool :=
  if a.2 = 0 then false else if b.2 = 0 then decide (0 < a.1) else decide (b.1 * a.2 < a.1 * b.2)

/-- ρ ≥ t / 1024. -/
def rhoGe (a : Nat × Nat) (t : Nat) : Bool :=
  if a.2 = 0 then t == 0 else decide (t * t * (a.2 * p0Energy) ≤ a.1 * 1048576)

/-- ⌊256 ρ⌋ saturated at 255. -/
def rhoPeak (a : Nat × Nat) : Nat :=
  (List.range 256).foldl (fun m q => if rhoGe a (4 * q) then q else m) 0

/-! ### Format decision (R359) -/

/-- Subcarrier `k` of the 64-point DFT of a window. -/
def dftAt (y : List Cpx) (k : Int) : Cpx :=
  ((y.zip (List.range 64)).foldl (fun a p =>
    let c := cos64 (k * p.2)
    let s := sin64 (k * p.2)
    cadd a (p.1.1 * c + p.1.2 * s, p.1.2 * c - p.1.1 * s)) (0, 0))

/-- z_b of one antenna. -/
def fmtZ (y0 y1 : List Cpx) (b : Nat) : Int :=
  (List.range 8).foldl (fun a i =>
    let k := dataK.getD (8 * b + i) 0
    a + (cmulc (dftAt y1 k) (dftAt y0 k)).1) 0

/-- The format word from the windows of P0 and P1 of every enabled antenna. -/
def fmtWord (ws : List (List Cpx × List Cpx)) : Nat :=
  (List.range 6).foldl (fun f b =>
    let z := ws.foldl (fun a w => a + fmtZ w.1 w.2 b) 0
    if z < 0 then f + 2 ^ b else f) 0

end Sys2Proof.Machine
end

