-- ==== Sys2Proof/Machine/RadioBase.lean ====
section
/-!
DEFINITION. Field radio: grid, record writes, abandonment, unbinding and the deliverer (R337, R361
to R363, R381 to R386).
-/

namespace Sys2Proof.Machine

/-- Change of a radio's state. -/
def Dev.modRad (s : Dev) (d : Fin 2) (f : RadioSt → RadioSt) : Dev :=
  { s with rad := vmod s.rad d f }

/-- Raise a bit of RF_IRQ. -/
def Dev.rfIrq (s : Dev) (d : Fin 2) (b : Nat) : Dev := s.orR R.RF_IRQ (2 ^ b) d

/-- The gallery a radio is bound to (R11). -/
def Dev.radGal (s : Dev) (d : Fin 2) : Option (Fin 6) :=
  if s.bt R.RF_STAT 15 d then toGal (s.fld R.RF_STAT 14 12 d) else none

/-- Enabled antennas. -/
def Dev.ants (s : Dev) (d : Fin 2) : List (Fin 4) :=
  (List.finRange 4).filter fun a => s.bt R.RF_CTL a.val d

/-- LOG2NREC: values other than 1 to 6 act as 1. -/
def Dev.log2nrec (s : Dev) (d : Fin 2) : Nat :=
  let n := s.fld R.RX_CFG 2 0 d
  if 1 ≤ n ∧ n ≤ 6 then n else 1

/-- LOG2NDLV: values other than 1 to 8 act as 1. -/
def Dev.log2ndlv (s : Dev) (d : Fin 2) : Nat :=
  let n := s.fld R.RCV_CTL 3 0 d
  if 1 ≤ n ∧ n ≤ 8 then n else 1

/-- Bytes of a record (R360). -/
def Dev.recSize (s : Dev) (d : Fin 2) : Nat := 64 + 9216 * (s.ants d).length

/-- SET a cell the radio names by an identifier register. -/
def Dev.radSet (s : Dev) (d : Fin 2) (reg : RegDef) (v : Nat) : Dev :=
  if s.cdieOn then s.cellSet (s.fld reg 15 0 d) v else s

/-- The value of a cell the radio names. -/
def Dev.radCell (s : Dev) (d : Fin 2) (reg : RegDef) : Nat := s.cell (s.fld reg 15 0 d)

/-! ### Slot grid (R337) -/

/-- One sample in station-time units. -/
def smpUnits : Nat := 24 * 2 ^ 33 * 15625

/-- One grid point in station-time units. -/
def gpUnits : Nat := 24 * 2 ^ 34 * 15625

/-- Samples of a superframe. -/
def sfSamples : Nat := 4000 * 512

/-- Station time in ns of the latest superframe boundary. -/
def Dev.sfBoundary (s : Dev) (d : Fin 2) : Nat :=
  let o := s.rg R.RF_SFOFS d
  s.ns - (s.ns + 10 ^ 9 - o) % 10 ^ 9

/-- Nanoseconds since the latest superframe boundary. -/
def Dev.sfPhase (s : Dev) (d : Fin 2) : Nat := (s.ns + 10 ^ 9 - s.rg R.RF_SFOFS d) % 10 ^ 9

/-- RF_SLOT. -/
def Dev.slotView (s : Dev) (d : Fin 2) : Nat := s.sfPhase d / 250000

/-- Put the sample grid on station time. -/
def Dev.alignGrid (s : Dev) (d : Fin 2) : Dev :=
  let b := s.sfBoundary d
  let p := (s.time.units - b * tsNs) / smpUnits
  s.modRad d fun r => { r with pos := p % sfSamples, sf := b, realign := false }

/-- Superframe number of a sample whose superframe starts at `sf`. -/
def Dev.sfnOf (s : Dev) (d : Fin 2) (sf : Nat) : Nat :=
  let b := (vget s.rad d).bnd
  ofS 32 ((s.rg R.RF_SFN d : Int) - ((b : Int) - sf) / 10 ^ 9)

/-- Station time in ns of position `p` of the superframe that starts at `sf`. -/
def posNs (sf p : Nat) : Nat := sf + p * 15625 / 32

/-! ### Record writes and the end of a capture -/

/-- A write of the radio to its bound gallery's store: refused while the gallery is not up (R361,
R41). -/
def Dev.radWrite (s : Dev) (d : Fin 2) (a : Nat) (b : List Byte) : Dev :=
  match s.radGal d with
  | none => s
  | some g =>
    if s.galUp g then s.wrBytes a b
    else
      ((s.count R.RF_WERR 1 d).rfIrq d 8).modRad d fun r => { r with
        trig := r.trig.map fun t => { t with capt := t.capt.map fun c => { c with werr := true } } }

/-- The open capture of a radio. -/
def Dev.capture (s : Dev) (d : Fin 2) : Option Rec :=
  ((vget s.rad d).trig).bind (·.capt)

/-- Drop the open capture record; what else a trigger holds stays. -/
def Dev.dropCapture (s : Dev) (d : Fin 2) : Dev :=
  s.modRad d fun r => { r with trig := r.trig.map fun t => { t with capt := none } }

/-- CAPTURE_ABANDON: the progress cell falls back and the record is reused (R361, R362). `count` for
a squash that the qualifier did not cause. -/
def Dev.abandon (s : Dev) (d : Fin 2) (count : Bool) : Dev :=
  match s.capture d with
  | none => s
  | some c =>
    let s := (s.dropCapture d).radSet d R.RX_PCELL (32 * c.seq % 2 ^ 32)
    if count then s.count R.RF_ABANDON 1 d else s

/-- RECORD_DROP: undelivered records are dropped at the unbinding (R386). -/
def Dev.dropRecords (s : Dev) (d : Fin 2) : Dev :=
  let w := s.rg R.RX_WSEQ d
  let q := s.rg R.RCV_DSEQ d
  let n := (w + 2 ^ 32 - q) % 2 ^ 32
  let s := ((s.wr R.RCV_DSEQ w d).count R.RCV_DROPPED n d).radSet d R.RCV_DCELL w
  if s.bt R.RCV_CTL 30 d then s.radSet d R.RX_RELCELL w else s

/-- RADIO_UNBIND (R363): an open capture ends without a further operation, a radio-opened epoch is
squashed with cause 5, a deferred detection is dropped, and records are dropped. -/
def Dev.radioUnbind (s : Dev) (d : Fin 2) : Dev :=
  match s.radGal d with
  | none => s
  | some g =>
    let had := (s.capture d).isSome
    let s := s.dropCapture d
    let s := if had then s.count R.RF_ABANDON 1 d else s
    let s := s.modGal g fun x => { x with ep := { x.ep with
      squash := if x.ep.isOpen && x.ep.radio && x.ep.squash == 0 then 5 else x.ep.squash
      defer := none } }
    let s := s.dropRecords d
    s.setF R.RF_STAT 15 12 0 d

/-! ### Configuration checks -/

/-- The record ring passes its check (R360). -/
def Dev.recOk (s : Dev) (d : Fin 2) (g : Fin 6) : Bool :=
  let a := s.fld R.RX_BASE 39 0 d
  let n := 2 ^ s.log2nrec d * s.recSize d
  a % 64 == 0 && decide (galStore g.val ≤ a) && decide (a + n ≤ galStore g.val + 0x1000000)

/-- Check the record ring at EN or at a binding (R360). -/
def Dev.checkRec (s : Dev) (d : Fin 2) : Dev :=
  match s.radGal d with
  | none => s
  | some g =>
    let bad := !s.recOk d g
    let s := s.modRad d fun r => { r with cfgBad := bad }
    if bad then (s.setB R.RF_STAT 29 true d).rfIrq d 7 else s

/-- The deliverer's configuration passes its check (R381). -/
def Dev.rcvOk (s : Dev) (d : Fin 2) (g : Fin 6) : Bool :=
  let a := s.fld R.RCV_RESBASE 39 0 d
  let b := s.fld R.RCV_DLVBASE 39 0 d
  let nb := 512 * 2 ^ s.log2ndlv d
  let r := s.rg R.RCV_RING d
  let loc := fun (reg : RegDef) => bits (s.rg reg d) 30 26 == 0 && !s.foreign (s.rg reg d)
  a % 1024 == 0 && decide (galStore g.val ≤ a)
    && decide (a + 1024 * 2 ^ s.log2nrec d ≤ galStore g.val + 0x1000000)
    && b % 512 == 0 && (inAtrium b nb || s.inStack b nb)
    && bit r 31 == 1 && decide (56 ≤ bits r 9 0)
    && loc R.RCV_LCELL && loc R.RCV_NCELL && loc R.RCV_DCELL && loc R.RCV_DRELCELL

/-- Check the deliverer at EN or at a binding (R381). -/
def Dev.checkRcv (s : Dev) (d : Fin 2) : Dev :=
  match s.radGal d with
  | none => s
  | some g =>
    let bad := !s.rcvOk d g
    let s := s.modRad d fun r => { r with rcvBad := bad }
    if bad then s.setB R.RCV_STAT 31 true d else s

/-- Bind a radio to a gallery (R11, R360, R381). -/
def Dev.radioBind (s : Dev) (d : Fin 2) (g : Fin 6) : Dev :=
  let s := (s.setF R.RF_STAT 14 12 g.val d).setB R.RF_STAT 15 true d
  let s := s.modRad d fun r => { r with cfgBad := false, rcvBad := false }
  let s := if s.bt R.RF_CTL 31 d then s.checkRec d else s
  if s.bt R.RCV_CTL 31 d then s.checkRcv d else s

/-! ### Deliverer (R382 to R385) -/

/-- Address of the header of record SEQ. -/
def Dev.recAddr (s : Dev) (d : Fin 2) (seq : Nat) : Nat :=
  s.fld R.RX_BASE 39 0 d + seq % 2 ^ s.log2nrec d * s.recSize d

/-- DL of a record in ns (R382). -/
def Dev.recDl (s : Dev) (d : Fin 2) (seq : Nat) : Nat :=
  let a := s.recAddr d seq
  let fmt := s.rdN (a + 4) 1
  let l := if bit (s.rdN (a + 5) 1) 0 = 1 then 1 else fmtLen fmt
  let sfn := s.rdN (a + 0x14) 4
  let b := (s.sfBoundary d : Int) - toS 32 (s.rg R.RF_SFN d + 2 ^ 32 - sfn) * 10 ^ 9
  (b + 250000 * ((s.rdN (a + 0x10) 2 : Int) + l + 2)).toNat

/-- A part of a result block counts as settled (R380). -/
def Dev.settled (s : Dev) (d : Fin 2) (cell : RegDef) (part seq : Nat) : Bool :=
  let x := (s.radCell d cell + 2 ^ 32 - seq) % 2 ^ 32
  decide (1 ≤ x) && decide (x < 2 ^ 31) && s.rdN part 4 == seq

/-- Number of 1 bits. -/
def popcount : Nat → Nat → Nat
  | 0, _ => 0
  | n + 1, w => w % 2 + popcount n (w / 2)

/-- The path chosen for a record and its FALLBACK and LWORSE flags (R383). -/
def Dev.choosePath (s : Dev) (d : Fin 2) (seq : Nat) : Nat × Nat :=
  let blk := s.fld R.RCV_RESBASE 39 0 d + 1024 * (seq % 2 ^ s.log2nrec d)
  let c := s.settled d R.RCV_LCELL blk seq
  let l := s.settled d R.RCV_NCELL (blk + 512) seq && s.rdN (blk + 516) 1 == 0
  let pc := popcount 8 (s.rdN (blk + 6) 1)
  let pl := popcount 8 (s.rdN (blk + 518) 1)
  if l && (decide (pc ≤ pl) || !c) then (1, 0)
  else if c then (0, if l then 2 else 1)
  else (2, 0)

/-- Deliver one record at a mark fired at `f` (R384, R385). -/
def Dev.deliverOne (s : Dev) (d : Fin 2) (f : Nat) : Dev :=
  let seq := s.rg R.RCV_DSEQ d
  let a := s.recAddr d seq
  let (path, fl) := s.choosePath d seq
  let part := s.fld R.RCV_RESBASE 39 0 d + 1024 * (seq % 2 ^ s.log2nrec d)
    + (if path = 1 then 512 else 0)
  let late := decide (s.recDl d seq + 125000 < f)
  let hflags := s.rdN (a + 5) 1
  let nb := if path = 2 then 0 else s.rdN (part + 8) 2
  let free := decide ((seq + 2 ^ 32 - s.radCell d R.RCV_DRELCELL) % 2 ^ 32 < 2 ^ s.log2ndlv d)
  let nobuf := path != 2 && !free
  let buf := s.fld R.RCV_DLVBASE 39 0 d + 512 * (seq % 2 ^ s.log2ndlv d)
  let n := min 512 ((32 + nb + 63) / 64 * 64)
  let crc := if path = 2 then 0 else s.rdN (part + 6) 1
  let s := if path != 2 && free then s.putPoison buf (s.rdBytes part n) (s.poisoned part n) else s
  let flags := fl + 4 * b2n late + 8 * bit hflags 3 + 16 * bit hflags 0 + 32 * b2n nobuf
  let e := [(0x10, 8, if path = 2 || nobuf then 0 else buf), (0x18, 4, seq), (0x1C, 1, path),
    (0x1D, 1, flags), (0x1E, 1, crc), (0x1F, 1, s.rdN (a + 4) 1), (0x20, 8, s.rdN (a + 8) 8),
    (0x28, 2, s.rdN (a + 0x12) 2), (0x2A, 2, nb), (0x2C, 4, s.rdN (a + 0x14) 4)]
  let (code, s) := s.blockPost (s.fld R.RCV_RING 9 0 d) (0x20 + d.val) e
  let s := if taken code then s else s.count R.RCV_POSTLOST 1 d
  let q := (seq + 1) % 2 ^ 32
  let s := (s.wr R.RCV_DSEQ q d).radSet d R.RCV_DCELL q
  let s := if s.bt R.RCV_CTL 30 d then s.radSet d R.RX_RELCELL q else s
  let s := if path = 1 then s.count R.RCV_LEARNED 1 d else if path = 2 then s.count R.RCV_MISSING 1 d
    else if bit fl 0 = 1 then s.count R.RCV_FALLBACK 1 d else s.count R.RCV_LWORSE 1 d
  let s := if nobuf then s.count R.RCV_NOBUF 1 d else s
  if late then s.count R.RCV_MARKLATE 1 d else s

/-- Deliver every due published record, in SEQ order; at most 64 are held (R383). -/
def Dev.deliverDue (d : Fin 2) (f : Nat) : Nat → Dev → Dev
  | 0, s => s
  | n + 1, s =>
    let seq := s.rg R.RCV_DSEQ d
    if seq = s.rg R.RX_WSEQ d then s
    else if s.recDl d seq ≤ f + 125000 then Dev.deliverDue d f n (s.deliverOne d f)
    else s

/-- DEADLINE_MARK_DELIVER: the oldest mark on its way to the deliverer arrives (R382, R383). -/
def deadlineMarkDeliver (d : Fin 2) (s : Dev) : Dev :=
  match (vget s.tt d).radMarks with
  | [] => s
  | m :: ms =>
    let s := s.modTt d fun t => { t with radMarks := ms }
    if !s.bt R.RCV_CTL 31 d || (vget s.rad d).rcvBad || s.bt R.RCV_STAT 31 d || (s.radGal d).isNone || !s.ioUp d 2 then s
    else Dev.deliverDue d m.f 64 s

/-- DELIVERER_ENABLE and every write of RCV_CTL (R381). -/
def rcvCtlWrite (d : Fin 2) (v : Nat) (s : Dev) : Dev :=
  let was := s.bt R.RCV_CTL 31 d
  let s := s.plainWrite R.RCV_CTL v d
  if !was && bit v 31 == 1 then (s.modRad d fun r => { r with rcvBad := false }).checkRcv d else s

end Sys2Proof.Machine
end

