-- ==== Sys2Proof/Machine/Epoch.lean ====
section
/-!
DEFINITION. The epoch of a gallery: opening, bounds, commit and squash (R208 to R219).
-/

namespace Sys2Proof.Machine

/-- Change of a gallery's epoch. -/
def Dev.modEp (s : Dev) (g : Fin 6) (f : EpochSt → EpochSt) : Dev :=
  s.modGal g fun x => { x with ep := f x.ep }

/-- Change of a gallery's vector engine. -/
def Dev.modVec (s : Dev) (g : Fin 6) (f : VecSt → VecSt) : Dev :=
  s.modGal g fun x => { x with vec := f x.vec }

/-- An epoch opens (R208): what a squash restores is kept. -/
def Dev.epOpen (s : Dev) (g : Fin 6) (radio : Bool) (restart : Nat) : Dev :=
  (s.count R.EP_OPENS 1 g).modGal g fun x => { x with
    ep := { x.ep with
      isOpen := true, radio := radio, restart := restart / 4 * 4, age := 0, cyc := 0, instr := 0
      tiles := 0, ending := false, pass := false, squash := 0, bound := 0 }
    arr := x.arr.epOpen
    legCk := some x.leg
    streams := streamsOpen x.streams }

/-- A trigger of the radio bound to the gallery opens an epoch, or is deferred (R208, R218). -/
def Dev.epRadioOpen (s : Dev) (d : Fin 2) (g : Fin 6) : Dev :=
  if !s.galUp g then s
  else if (s.ep g).isOpen then
    (s.count R.EP_RDEFER 1 g).modEp g fun e => { e with defer := some ⟨d.val, none⟩ }
  else s.epOpen g true (s.rg R.EP_RRST g)

/-- The highest cause of a squash among those of one cycle (R217): exception, saturation,
qualifier, EP.SQUASH. -/
def worse (a b : Nat) : Nat :=
  if a = 4 ∨ b = 4 then 4 else if a = 3 ∨ b = 3 then 3 else if a = 5 ∨ b = 5 then 5 else max a b

/-- Ask for a squash at the next boundary. -/
def Dev.askSquash (s : Dev) (g : Fin 6) (cause : Nat) : Dev :=
  s.modEp g fun e => { e with squash := worse e.squash cause }

/-- The qualifier decides the detection of the bound radio (R218, R219). -/
def Dev.epRadioDecide (s : Dev) (_d : Fin 2) (g : Fin 6) (pass : Bool) : Dev :=
  let e := s.ep g
  if e.isOpen && e.radio then
    if pass then s.modEp g fun e => { e with pass := true } else s.askSquash g 5
  else s.modEp g fun e => { e with
    defer := e.defer.map fun x => { x with decided := some (x.decided.getD pass) } }

/-- An epoch has ended: a deferred detection whose qualifier has not decided opens the radio's epoch
(R218). -/
def Dev.epEnded (s : Dev) (g : Fin 6) : Dev :=
  match (s.ep g).defer with
  | none => s
  | some x =>
    let s := s.modEp g fun e => { e with defer := none }
    match x.decided with
    | none => s.epOpen g true (s.rg R.EP_RRST g)
    | some _ => s

/-! ### Commit (R214, R215) -/

/-- Every VX.RQ issued inside the epoch has completed. -/
def VecSt.rqDone (v : VecSt) : Bool :=
  (v.exec.toList ++ v.waiting).all fun i => !(i.ep && i.sub == .rq)

/-- The open epoch may commit now. -/
def Dev.epCommitDue (s : Dev) (g : Fin 6) : Bool :=
  let e := s.ep g
  e.isOpen && e.squash == 0
    && (if e.radio then e.pass else e.ending && (vget s.gal g).vec.rqDone)

/-- The vector engine at a commit (R241). -/
def VecSt.commit (v : VecSt) : VecSt :=
  let t := v.t.map fun r => { r with tag := { r.tag with prov := false } }
  { v with
    t := t, ck := t
    waiting := v.waiting.map fun i => { i with ep := false }
    exec := v.exec.map fun i => { i with ep := false } }

/-- The epoch commits (R215). -/
def Dev.epCommit (s : Dev) (g : Fin 6) : Dev :=
  let forced := (s.ep g).bound == 5
  let s := s.modCore (curator g) fun x => { x with
    sb := x.sb.map fun b => { b with held := false }, mustRun := forced }
  let s := s.streamsCommit g
  let s := s.modGal g fun x => { x with arr := x.arr.commit, vec := x.vec.commit }
  let s := s.legCommit g
  let s := (s.count R.EP_COMMITS 1 g).modEp g fun e => { e with
    isOpen := false, ending := false, pass := false, last := 1 }
  let s := if (s.cur g).stall = .epCommit then s.commit (curator g) CoreSt.advance else s
  s.epEnded g

/-! ### Squash (R216, R217) -/

/-- The vector engine at a squash (R241). -/
def VecSt.squash (v : VecSt) : VecSt :=
  { v with
    t := v.ck
    waiting := v.waiting.filter fun i => !i.ep
    exec := v.exec.filter fun i => !i.ep }

/-- The curator's wait at the hub is withdrawn; a remote one is cancelled (R152, R307, R484). -/
def Dev.unwait (s : Dev) (g : Fin 6) : Dev :=
  s.modHub fun h =>
    let mine : RemoteOp → Bool := fun o => o.who == .curator g
    { h with
      waits := h.waits.filter fun w => w.who != .curator g
      popWaits := h.popWaits.filter fun w => w.g != g
      txq := h.txq ++ (h.remotes.filter mine).map fun o => .cancel o.stn o.tag
      remotes := h.remotes.filter fun o => !mine o
      resp := vset h.resp g none }

/-- Counter of a squash cause. -/
def sqCounter (cause : Nat) : RegDef :=
  if cause = 4 then R.EP_SQEXC else if cause = 3 then R.EP_SQSAT else if cause = 5 then R.EP_SQQUAL
  else R.EP_SQSW

/-- The radio whose detection the gallery's epoch carries. -/
def Dev.galRadio (s : Dev) (g : Fin 6) : Option (Fin 2) :=
  (List.finRange 2).find? fun d => s.radGal d == some g

/-- The epoch is squashed under cause code `cause` of R217 and the curator stands at its restart
address. -/
def Dev.epSquash (s : Dev) (g : Fin 6) (cause : Nat) : Dev :=
  let e := s.ep g
  let s := s.unwait g
  let s := s.modCore (curator g) fun x => { x with
    pc := BitVec.ofNat 32 e.restart, slot := none, shadow := none, stall := .none, load := none
    mustRun := false, sb := x.sb.filter fun b => !b.held }
  let s := s.streamsSquash g
  let s := (s.count R.ARR_SQTILES (s.arr g).discards g).modGal g fun x => { x with
    arr := x.arr.squash, vec := x.vec.squash }
  let s := (s.legSquash g).orR R.ARR_FLAGS 16 g
  let s := ((s.count (sqCounter cause) 1 g).count R.EP_SQCYC e.cyc g).epFlag g 0
  let s := s.modEp g fun e => { e with
    isOpen := false, ending := false, pass := false, squash := 0, last := cause }
  let s := if e.radio && cause != 5 then
      match s.galRadio g with
      | some d => s.abandon d true
      | none => s
    else s
  s.epEnded g

/-- A pending squash takes effect: at a boundary, or where a bound has stalled the core. -/
def Dev.epSquashDue (s : Dev) (g : Fin 6) : Bool :=
  let e := s.ep g
  let x := s.cur g
  e.isOpen && e.squash != 0 && x.load.isNone && (e.ending || !x.midUnit)

/-! ### Commands -/

/-- EPOCH_TIME_BOUND (R213). -/
def epochTimeBound (g : Fin 6) (s : Dev) : Dev :=
  if (s.ep g).isOpen && decide (2458 ≤ (s.ep g).age) then s.epBound g 4 else s

/-- EPOCH_COMMIT (R214, R215). -/
def epochCommit (g : Fin 6) (s : Dev) : Dev := if s.epCommitDue g then s.epCommit g else s

/-- EPOCH_SQUASH (R216). -/
def epochSquash (g : Fin 6) (s : Dev) : Dev :=
  if s.epSquashDue g then s.epSquash g (s.ep g).squash else s

end Sys2Proof.Machine
end

