-- ==== Sys2Proof/Machine/CoreRun.lean ====
section
/-!
DEFINITION. Taking exceptions, interrupts and halts, finished waits, the operations a curator issues
to the hub, and the frame in which every instruction runs (R104 to R109, R117, R132 to R134, R139 to
R157, R166).
-/

namespace Sys2Proof.Machine

/-! ### Exceptions and interrupts (R149 to R155) -/

/-- Exception codes (R149). -/
inductive Exc
  | illegal | priv | slot | fetchMis | fetchBus | loadMis | loadBus | storeMis | storeBus | access
  | operand | epochState | syscall | break | poison
  deriving DecidableEq, Repr

/-- CAUSE.CODE of an exception. -/
def Exc.code : Exc → Nat
  | .illegal => 1
  | .priv => 2
  | .slot => 3
  | .fetchMis => 4
  | .fetchBus => 5
  | .loadMis => 6
  | .loadBus => 7
  | .storeMis => 8
  | .storeBus => 9
  | .access => 0xA
  | .operand => 0xB
  | .epochState => 0xC
  | .syscall => 0xD
  | .break => 0xE
  | .poison => 0xF

/-- STATUS on entry: PSUP and PIE take SUP and IE, SUP is 1 and IE 0 (R150). -/
def statusEnter (st : Nat) : Nat := 1 + 4 * bit st 0 + 8 * bit st 1

/-- Entry to the handler (R150). -/
def Dev.enter (s : Dev) (c : Fin 8) (epc cause bad : Nat) (int : Bool) : Dev :=
  let s := s.modCore c fun x => { x with
    epc := epc, cause := cause, badaddr := bad, status := statusEnter x.status
    pc := BitVec.ofNat 32 x.evec, slot := none, shadow := none, stall := .none, load := none
    intPoint := false, mustRun := false }
  (s.count (if int then R.INT_CNT else R.EXC_CNT) 1 c.val).stepEnd c

/-- The core's gallery has an open epoch. -/
def Dev.coreEp (s : Dev) (c : Fin 8) : Bool :=
  match CoreId.gal c with | some g => (s.ep g).isOpen | none => false

/-- The instruction at `pc` runs inside an open epoch: a forcing instruction that waited for the end
of its epoch does not (R211, R215). -/
def Dev.inEpoch (s : Dev) (c : Fin 8) : Bool := s.coreEp c && !(vget s.core c).mustRun

/-- A synchronous exception of the instruction at `pc` (R142, R149, R154, R157). -/
def Dev.raise (s : Dev) (c : Fin 8) (e : Exc) (bad : Nat) : Dev :=
  let x := vget s.core c
  let (sh, om, nm) := match x.shadow with | some (o, n) => (1, b2n o, b2n n) | none => (0, 0, 0)
  let w := b2n x.slot.isSome * 2 ^ 30 + sh * 2 ^ 29 + om * 2 ^ 28 + nm * 2 ^ 27 + e.code
  let epc := match x.slot with | some (b, _) => b.toNat | none => x.pc.toNat
  match CoreId.gal c with
  | none => s.enter c epc w bad false
  | some g =>
    if (s.ep g).isOpen then
      let r := (s.ep g).restart
      (s.epSquash g 4).enter c r (w + 2 ^ 25) x.pc.toNat false
    else s.enter c epc w bad false

/-! ### Operations at the hub (R131 to R134, R295, R301 to R306) -/

/-- Codes with which the hub reports what becomes an exception: a poisoned cell, a poisoned entry
buffer and a ring that is not enabled. The model's own; no instruction returns them. -/
def hubPoisonCell : Nat := 0x10

@[inherit_doc hubPoisonCell] def hubPoisonBuf : Nat := 0x11

@[inherit_doc hubPoisonCell] def hubNoRing : Nat := 0x12

/-- A cell operation on a cell of this station. -/
def Dev.hubCell (s : Dev) (g : Fin 6) (op : HubOp) : Dev :=
  let ini := 8 + g.val
  let c := bits op.id 15 0
  let s := s.cellMeet ini c
  let v := s.cell c
  if s.cellBad c && op.kind != .set then s.answer g hubPoisonCell 0 0
  else match op.kind with
  | .add => (s.cellAdd c op.opnd).answer g 0 0 v
  | .set => (s.cellSet c op.opnd).answer g 0 0 v
  | .waitge => s.armWait ⟨.curator g, c, false, op.opnd, some op.timeout, 0⟩
  | .waiteq => s.armWait ⟨.curator g, c, true, op.opnd, some op.timeout, 0⟩
  | .gate => s.armWait ⟨.curator g, c, false, op.opnd, none, 0⟩
  | _ => s.answer g 0 0 v

/-- A ring operation on a ring of this station; `buf` is the buffer's device address. -/
def Dev.hubRing (s : Dev) (g : Fin 6) (op : HubOp) (buf : Nat) : Dev :=
  let r := bits op.id 9 0
  let s := s.ringMeet (8 + g.val) r
  match op.kind with
  | .post =>
    if !s.ringEn r then s.answer g hubNoRing 0 0
    else
      let (code, stamp, s) := s.ringPost r ⟨8 + g.val, s.workId g, none⟩ (s.rdBytes buf 64)
      (s.answer g code stamp 0).serve
  | .popw =>
    if s.ringEn r && decide (0 < s.ringOcc r) then ((s.popTo r buf).answer g 8 0 0).serve
    else if op.timeout = 0 then s.answer g 0xA 0 0
    else s.modHub fun h => { h with popWaits := h.popWaits ++ [⟨g, r, buf, op.timeout, 0⟩] }
  | _ =>
    if s.ringEn r && decide (0 < s.ringOcc r) then ((s.popTo r buf).answer g 8 0 0).serve
    else s.answer g 9 0 0

/-- A ring operation. -/
def HubKind.isRing : HubKind → Bool
  | .post | .pop | .popw => true
  | _ => false

/-- Timeout a remote operation carries: only waits have one of their own (R307). -/
def HubOp.remoteTimeout (op : HubOp) : Option Nat :=
  match op.kind with | .waitge | .waiteq => some op.timeout | _ => none

/-- The curator's operation reaches the hub. -/
def Dev.hubIssue (s : Dev) (g : Fin 6) (op : HubOp) : Dev :=
  let buf := (s.cur g).toDev op.opnd
  let s := s.modCore (curator g) fun x => { x with stall := .hubWait op }
  let s := if op.kind == .post then s.meet (8 + g.val) buf 64 else s
  if op.kind == .post && s.poisoned buf 64 then s.answer g hubPoisonBuf 0 0
  else if s.foreign op.id then
    s.sendRemote (.curator g) op.kind op.id (if op.kind.isRing then 0 else op.opnd) op.remoteTimeout
      (if op.kind == .post then s.rdBytes buf 64 else [])
  else if op.kind.isRing then s.hubRing g op buf
  else s.hubCell g op

/-- What an operation writes into sd (R132 to R134). -/
def hubSd (op : HubOp) (r : HubResp) : Nat :=
  if op.kind.isRing then r.code + (if r.code = 1 then r.stamp * 16 else 0)
  else if r.code = 5 then 0 else r.value

/-- The hub's answer has come back: the operation completes. -/
def Dev.hubDone (s : Dev) (g : Fin 6) (op : HubOp) (r : HubResp) : Dev :=
  let c := curator g
  let s := s.modHub fun h => { h with resp := vset h.resp g none }
  if r.code = hubPoisonCell then (s.consume g).raise c .poison 0
  else if r.code = hubPoisonBuf then (s.consume g).raise c .poison op.opnd
  else if r.code = hubNoRing then s.raise c .operand (s.cur g).pc.toNat
  else
    let s := s.modCore c fun x =>
      { x.setReg op.sd (BitVec.ofNat 32 (hubSd op r)) with gxstat := r.code }
    let s := s.commit c CoreSt.advance
    if op.kind = .gate then s.modCore c fun x => { x with intPoint := true } else s

/-! ### Waits that end (R123, R124, R128, R152, R165, R273 to R275) -/

/-- Every store of the core that is not held has been performed and acknowledged (R30, R31). -/
def Dev.storesDone (s : Dev) (c : Fin 8) : Bool :=
  (vget s.core c).drained && SMap.get 0 s.bus.outw (coreIni c) == 0

/-- A stalled wait that an interrupt abandons in curated mode (R152). -/
def Stall.abandonable : Stall → Bool
  | .wfi => true
  | .hubHeld op | .hubWait op =>
    match op.kind with | .waitge | .waiteq | .gate | .popw => true | _ => false
  | _ => false

/-- A stall that a halt abandons (R166). -/
def Stall.haltable : Stall → Bool
  | .stNext _ _ | .mxWait | .stWait _ | .none => true
  | x => x.abandonable

/-- An interrupt or imprecise exception may be taken here and now (R152). -/
def Dev.asyncPoint (s : Dev) (c : Fin 8) : Bool :=
  let x := vget s.core c
  x.run == .running && x.atBoundary && !x.mustRun && !s.coreEp c
    && (if x.charted then (x.stall == .none && x.intPoint) || x.stall == .wfi
        else x.stall == .none || x.stall.abandonable)

/-- An interrupt is to be taken. -/
def Dev.intDue (s : Dev) (c : Fin 8) : Bool :=
  s.asyncPoint c && bit (vget s.core c).status 1 == 1 && s.ipendEn c != 0

/-- A STORE_BUS is to be taken (R153). -/
def Dev.storeErrDue (s : Dev) (c : Fin 8) : Bool :=
  s.asyncPoint c && (vget s.core c).sbErr.isSome

/-- The vector engine has nothing waiting or executing. -/
def VecSt.idle (v : VecSt) : Bool := v.exec.isNone && v.waiting.isEmpty

/-- Array, vector engine and stream unit have finished everything (R124). -/
def Dev.unitsQuiet (s : Dev) (g : Fin 6) : Bool :=
  (s.arr g).idle && (vget s.gal g).vec.idle && s.streamsQuiet g

/-- Complete the stalled instruction of a curator. -/
def Dev.settleGal (s : Dev) (g : Fin 6) (st : Stall) : Dev :=
  let c := curator g
  match st with
  | .modesw n => if s.unitsQuiet g then
      s.commit c fun x => { x.advance with shadow := some (x.charted, n) } else s
  | .mxWait => if (s.arr g).idle then s.commit c CoreSt.advance else s
  | .stNext sd n =>
    match s.stNextRes g n with
    | .tile a =>
      ((s.stTake g n).modCore c fun x => x.setReg sd (BitVec.ofNat 32 a)).commit c CoreSt.advance
    | .none =>
      (s.modCore c fun x => x.setReg sd (BitVec.allOnes 32)).commit c CoreSt.advance
    | _ => s
  | .stWait n =>
    match s.stream g n with
    | some t => if s.stQuiet g t then s.commit c CoreSt.advance else s
    | none => s.commit c CoreSt.advance
  | .hubHeld op =>
    if s.storesDone c then
      let s := s.hubIssue g op
      match vget s.hub.resp g with | some r => s.hubDone g op r | none => s
    else s
  | .hubWait op => match vget s.hub.resp g with | some r => s.hubDone g op r | none => s
  | .epCommit => if (s.ep g).isOpen then s else s.commit c CoreSt.advance
  | _ => s

/-- FENCE completes: mask bit 0 the core's own requests, bit 1 the stream unit; 0 acts as both
(R123). -/
def Dev.fenceDone (s : Dev) (c : Fin 8) (m : Nat) : Bool :=
  (m == 2 || s.storesDone c)
    && (m == 1 || match CoreId.gal c with | some g => s.streamsQuiet g | none => true)

/-- Complete what the core waits for, when it has come. -/
def Dev.settle (s : Dev) (c : Fin 8) : Dev :=
  let x := vget s.core c
  if x.run != .running then s
  else match x.stall with
  | .none => s
  | .wfi => if s.ipendEn c != 0 && !s.intDue c then s.commit c CoreSt.advance else s
  | .fence m => if s.fenceDone c m then s.commit c CoreSt.advance else s
  | .ifence => if s.storesDone c then s.commit c CoreSt.advance else s
  | st => match CoreId.gal c with | some g => s.settleGal g st | none => s

/-! ### The frame of an instruction -/

/-- What an instruction's own meaning answers. -/
inductive Ins
  /-- A precise exception. -/
  | exc (e : Exc) (bad : Nat)
  /-- It commits: the device with its effects, and where the path goes on. -/
  | commit (s : Dev) (move : CoreSt → CoreSt)
  /-- It has begun and waits. -/
  | wait (s : Dev)
  /-- It cannot issue yet: its command comes again. -/
  | again
  /-- It cannot issue yet, and the wait leaves a mark. -/
  | stay (s : Dev)
  /-- The core halts (EBREAK). -/
  | halt
  /-- A data breakpoint matches: the core halts before the access. -/
  | bkpt
  /-- The open epoch reaches a bound (R213). -/
  | bound (code : Nat)

/-- What the frame checks of an instruction's word and kind. -/
structure Form where
  /-- The word's fields are within their ranges (R109, R118). -/
  legal : Bool := true
  /-- A gallery-extension instruction or MODESW: ILLEGAL on a warden (R104). -/
  gx : Bool := false
  /-- May not stand in a delay slot or a shadow (R141, R156). -/
  noSlot : Bool := false
  /-- May not end an active loop body (R145). -/
  noEnd : Bool := false
  /-- A branch or jump: may not stand before a loop's end (R145). -/
  branch : Bool := false
  /-- PRIV in task mode (R106). -/
  priv : Bool := false

/-- The core runs in task mode. -/
def CoreSt.task (x : CoreSt) : Bool := bit x.status 0 == 0

/-- The instruction breaks R141, R145 or R156. -/
def CoreSt.slotBad (x : CoreSt) (k : Form) : Bool :=
  (k.noSlot && x.midUnit)
    || (List.finRange 2).any fun n => vget x.lc n != 0
        && ((k.noEnd && vget x.le n == x.pc.toNat)
          || (k.branch && vget x.le n == x.pc.toNat + 4))

/-- The exception that the word and its place raise, in the order of R149. -/
def CoreSt.formExc (x : CoreSt) (c : Fin 8) (k : Form) : Option Exc :=
  if !k.legal || (k.gx && decide (6 ≤ c.val)) then some .illegal
  else if x.slotBad k then some .slot
  else if k.priv && x.task then some .priv
  else none

/-- The core must do something else before its next instruction: an epoch is ending, a squash or a
halt is due, or an interrupt or store error is to be taken. -/
def Dev.coreHeld (s : Dev) (c : Fin 8) : Bool :=
  let x := vget s.core c
  (x.atBoundary && x.haltReq) || s.intDue c || s.storeErrDue c
    || match CoreId.gal c with
      | some g => s.inEpoch c && ((s.ep g).ending || ((s.ep g).squash != 0 && !x.midUnit))
      | none => false

/-- The gallery's epoch reaches a bound at the core's instruction. -/
def Dev.coreBound (s : Dev) (c : Fin 8) (code : Nat) : Dev :=
  match CoreId.gal c with | some g => s.epBound g code | none => s

/-- 4,096 instructions have committed inside the epoch (R213). -/
def Dev.epFull (s : Dev) (c : Fin 8) : Bool :=
  match CoreId.gal c with
  | some g => s.inEpoch c && decide (4096 ≤ (s.ep g).instr)
  | none => false

/-- What follows from an instruction's meaning. -/
def Dev.finish (s : Dev) (c : Fin 8) : Ins → Dev
  | .exc e bad => s.raise c e bad
  | .again => s
  | .stay t => t
  | .bound n => s.coreBound c n
  | .halt => (s.modCore c fun x => x.advance).haltCore c 4
  | .bkpt => s.bkptHalt c
  | .commit t move =>
    if s.epFull c then s.coreBound c 3
    else (if s.inEpoch c then t.epInstr c else t).commit c move
  | .wait t =>
    if s.epFull c then s.coreBound c 3 else if s.inEpoch c then t.epInstr c else t

/-- The fetch of the instruction at `pc` (R39, R41, R117): the cause that refuses it. -/
def Dev.fetchCause (s : Dev) (c : Fin 8) : Option Cause :=
  let x := vget s.core c
  s.refusal (coreIni c) (x.toDev x.pc.toNat) 4 .fetch

/-- An instruction at `pc`: the frame in which its meaning `f` runs. `mis` is the misaligned target
of a JALR, which comes before every other condition. -/
def Dev.insn (s : Dev) (c : Fin 8) (k : Form) (f : Dev → CoreSt → Ins)
    (mis : CoreSt → Option Nat := fun _ => none) : Dev :=
  let s := s.settle c
  let x := vget s.core c
  if x.run != .running || x.stall != .none || x.load.isSome || s.coreHeld c then s
  else match s.fetchCause c with
  | some e => (s.berr (coreIni c) (x.toDev x.pc.toNat) 4 .fetch e).raise c .fetchBus x.pc.toNat
  | none =>
    if s.execBkpt c x.pc.toNat && !x.resumed then s.bkptHalt c
    else match mis x with
    | some t => s.raise c .fetchMis t
    | none =>
      match x.formExc c k with
      | some e => s.raise c e x.pc.toNat
      | none => s.finish c (f s x)

/-- A scalar instruction that only changes the core. -/
def CoreSt.to (f : CoreSt → CoreSt) (c : Fin 8) : Dev → CoreSt → Ins :=
  fun s _ => .commit (s.modCore c f) CoreSt.advance

/-! ### Taking an interrupt, a store error or a halt -/

/-- Withdraw a stalled wait at the hub. -/
def Dev.dropWait (s : Dev) (c : Fin 8) : Dev :=
  match CoreId.gal c, (vget s.core c).stall with
  | some g, .hubWait _ => s.unwait g
  | _, _ => s

/-- Take an interrupt or an imprecise exception: EPC is the next instruction, or the wait that is
abandoned. A WFI of charted mode has completed (log entry 21). -/
def Dev.takeAsync (s : Dev) (c : Fin 8) (cause bad : Nat) (int : Bool) : Dev :=
  let x := vget s.core c
  let s := if x.charted && x.stall == .wfi then s.commit c CoreSt.advance else s.dropWait c
  s.enter c (vget s.core c).pc.toNat cause bad int

/-- INTERRUPT_TAKEN (R152). -/
def interruptTaken (c : Fin 8) (s : Dev) : Dev :=
  let s := s.settle c
  if s.intDue c then s.takeAsync c (2 ^ 31 + lowBit 13 (s.ipendEn c)) 0 true else s

/-- STORE_BUS (R153). -/
def storeBus (c : Fin 8) (s : Dev) : Dev :=
  let s := s.settle c
  match (vget s.core c).sbErr with
  | some a =>
    if s.storeErrDue c then
      (s.modCore c fun x => { x with sbErr := none }).takeAsync c (2 ^ 26 + Exc.storeBus.code) a false
    else s
  | none => s

/-- DEBUG_HALT (R166). -/
def debugHalt (c : Fin 8) (s : Dev) : Dev :=
  let s := s.settle c
  let x := vget s.core c
  if x.run == .running && x.haltReq && x.atBoundary && x.stall.haltable then (s.dropWait c).haltCore c 1
  else s

end Sys2Proof.Machine
end

