-- ==== Sys2Proof/Machine/Vector.lean ====
section
/-!
DEFINITION. The vector engine: issue checks, start and end of an instruction (R129, R198, R220 to
R245).
-/

namespace Sys2Proof.Machine

/-- The vector engine of a gallery. -/
def Dev.vec (s : Dev) (g : Fin 6) : VecSt := (vget s.gal g).vec

/-! ### Tags that instructions will leave (R221, R235, R236) -/

/-- Modes of the tiles that pops will take, in order. -/
def ArraySt.popModes (a : ArraySt) : List Nat :=
  (a.vit.filter (·.st != .held)).map (·.mode) ++ a.flight.map (·.mode)

/-- Tag format that an instruction gives its destination; `pm` is the mode of the tile a pop
takes. -/
def VxInstr.outFmt (i : VxInstr) (ta : Nat) (pm : Nat) : Nat :=
  match i.sub with
  | .pop => if 2 ≤ pm then 5 else 2
  | .red => if i.d / 8 % 4 = 0 ∧ isFlt (i.d % 8) = false then 2 else i.d % 8
  | .cmp => 2
  | .act => ta
  | _ => i.d % 8

/-- Tag formats after the instructions that have not ended, in their order. -/
def predTags (dm : Nat) : List VxInstr → List Nat → Vector Nat 8 → Vector Nat 8
  | [], _, v => v
  | i :: l, ms, v =>
    let pm := ms.headD dm
    let ms := if i.sub = .pop then ms.tail else ms
    let v := if i.sub = .st ∨ i.sub = .sum then v else vset v i.td (i.outFmt (vget v i.ta) pm)
    predTags dm l ms v

/-- Tag format that tile register `t` has when the next instruction reads it. -/
def Dev.tagOf (s : Dev) (g : Fin 6) (t : Fin 8) : Nat :=
  let v := s.vec g
  let a := s.arr g
  vget (predTags a.iss.mode (v.exec.toList ++ v.waiting) a.popModes (v.t.map (·.tag.fmt))) t

/-- The entry and destination of a VX.RQ keep R198. -/
def rqEntryOk (l : Leg) (dst : Nat) : Bool :=
  l.fmt != 1 && dst == (if l.wide || l.fmt == 2 then 1 else 0)

/-- Source tags VX.RQ accepts (R235). -/
def rqTagOk (f : Nat) : Bool := f == 2 || f == 3 || f == 4 || f == 5

/-- Tags VX.ACT accepts for a function (R236). -/
def actTagOk (code f : Nat) : Bool := if 4 ≤ code then isFlt f else f != 5

/-! ### Issue (R126, R211, R222) -/

/-- An instruction enters the queue of the engine. -/
def Dev.vxPush (s : Dev) (g : Fin 6) (v : VxInstr) : Dev :=
  s.modGal g fun x => { x with
    iseq := x.iseq + 1
    vec := { x.vec with waiting := x.vec.waiting ++ [{ v with n := x.iseq }] } }

/-- Issue: `bad` is the OPERAND condition, `force` marks VX.ST, `stall` VX.SUM. -/
def vxIssue (g : Fin 6) (v : CoreSt → VxInstr) (bad : Dev → CoreSt → Bool) (force stall : Bool)
    (s : Dev) (x : CoreSt) : Ins :=
  let c := curator g
  if bad s x then .exc .operand x.pc.toNat
  else if force && s.inEpoch c then .bound 5
  else if 4 ≤ (s.vec g).waiting.length then .again
  else
    let t := s.vxPush g { v x with ep := s.inEpoch c, charted := x.charted }
    if stall then .wait (t.modCore c fun x => { x with stall := .vxSum })
    else .commit t CoreSt.advance

/-! ### Start (R163, R186 to R188, R222) -/

/-- Runs that are queued, issued before instruction number `n`. -/
def ArraySt.oldRuns (a : ArraySt) (n : Nat) : List RunCmd :=
  a.queue.filterMap fun c => match c.kind with
    | .run r => if c.n < n then some r else none
    | _ => none

/-- A waiting instruction may start. -/
def Dev.vxReady (s : Dev) (g : Fin 6) (i : VxInstr) : Bool :=
  let runs := (s.arr g).oldRuns i.n
  (i.charted && !i.ep || runs.all fun r => !(r.tsrc && i.writes r.treg))
    && (i.charted ||
      ((i.sub != .pop || (s.arr g).head.isSome)
        && ((i.sub != .ld && i.sub != .st) || (s.cur g).drained)
        && (i.sub != .st || runs.all fun r => r.tsrc || !overlap i.x i.bytes r.addr r.bytes)))

/-- VX_INSTR_START. A VX.RQ reads its entry, a VX.POP notes whether a slot is READY. -/
def vxInstrStart (g : Fin 6) (s : Dev) : Dev :=
  let v := s.vec g
  match v.exec, v.waiting with
  | none, i :: rest =>
    if !s.galUp g || !s.vxReady g i then s
    else
      let i := if i.sub = .pop then { i with x := b2n (s.arr g).head.isSome } else i
      let l := if i.sub = .rq then s.leg g i.x else v.rq
      s.modVec g fun v => { v with exec := some i, waiting := rest, rq := l, rqDrop := false }
  | _, _ => s

/-! ### End (R221, R223, R225 to R241) -/

/-- VEC_FLAGS bits of arithmetic flags: SAT, NAN and INF. -/
def vecFlags (fl : Nat) : Nat := bit fl 2 + bit fl 1 * 4 + bit fl 0 * 8

/-- Set VEC_FLAGS and count saturated elements. -/
def Dev.vxFlags (s : Dev) (g : Fin 6) (fl sat : Nat) : Dev :=
  (s.orR R.VEC_FLAGS (vecFlags fl) g).count R.VEC_SATCNT sat g

/-- Write a tile register: an instruction issued outside the open epoch writes the checkpoint too
(R240, R241). -/
def Dev.vxWrite (s : Dev) (g : Fin 6) (i : VxInstr) (data : Tile) (tag : Tag) : Dev :=
  let r : TReg := ⟨data, { tag with prov := i.ep || tag.prov }⟩
  let s := s.modVec g fun v => { v with
    t := vset v.t i.td r, ck := if i.ep then v.ck else vset v.ck i.td r }
  if tag.poison then (s.count R.VEC_POISON 1 g).orR R.VEC_FLAGS 16 g else s

/-- Tag of an ordinary result. -/
def resTag (fmt : Nat) (poison : Bool) : Tag := ⟨fmt, 0, poison, false, 32, 0⟩

/-- Containers of a tile in memory (R225). -/
def Dev.ldTile (s : Dev) (f a : Nat) : Tile :=
  let b := fmtBytes f
  tileOf (tileIdx.map fun i =>
    let w := s.rdN (a + i * b) b
    if f = 3 then w * 2 ^ 16 else if isFlt f then w else cont (toS (8 * b) w))

/-- Bytes that VX.ST stores of a tile. -/
def stBytes (f : Nat) (t : Tile) : List Byte :=
  t.dense.toList.flatMap fun w => leBytes (fmtBytes f) (if f = 3 then w / 2 ^ 16 else w)

/-- A tile of free values. -/
def Dev.freeTile (s : Dev) : Tile × Dev :=
  (tileOf (tileIdx.map fun i => Config.free (s.free + i) % 2 ^ 32), { s with free := s.free + tileLen })

/-- Occupancy in cycles (R223). -/
def VxInstr.cycles (i : VxInstr) (rqPass : Bool) : Nat :=
  match i.sub with
  | .pop => 32
  | .ld | .st => 32 * fmtBytes (i.d % 8)
  | .act => if i.d % 16 < 4 then 128 else 256
  | .red => if i.d / 32 = 0 then 136 else 144
  | .sum | .min2 => 144
  | .cpr | .exp => 160
  | .rq => if rqPass then 256 else 128
  | _ => 128

/-- VX.POP at its end (R184, R186, R221). -/
def Dev.endPop (s : Dev) (g : Fin 6) (i : VxInstr) : Dev :=
  match (s.arr g).head with
  | some t =>
    if i.x = 0 then
      ((s.orR R.ARR_FLAGS 2 g).count R.VIT_UNDER 1 g).vxWrite g i [] (resTag 2 false)
    else
      let s := if t.poison then s.consume g else s
      (s.vitPop g t).vxWrite g i t.data
        ⟨if 2 ≤ t.mode then 5 else 2, t.half, t.poison, t.prov, t.valid, t.seq⟩
  | none => ((s.orR R.ARR_FLAGS 2 g).count R.VIT_UNDER 1 g).vxWrite g i [] (resTag 2 false)

/-- VX.LD. -/
def Dev.endLd (s : Dev) (g : Fin 6) (i : VxInstr) : Dev :=
  let f := i.d % 8
  let n := 16384 * fmtBytes f
  let s := s.meet (8 + g.val) i.x n
  let p := s.poisoned i.x n
  let s := if p then s.consume g else s
  (s.vxWrite g i (s.ldTile f i.x) (resTag f p)).activity g 3 (n / 64)

/-- VX.ST: a poisoned register stores poisoned granules. -/
def Dev.endSt (s : Dev) (g : Fin 6) (i : VxInstr) : Dev :=
  let f := i.d % 8
  let r := vget (s.vec g).t i.ta
  (s.putPoison i.x (stBytes f r.data) r.tag.poison).activity g 3 (256 * fmtBytes f)

/-- VX.SUM: sd is written and the instruction commits (R231, R232, R240). -/
def Dev.endSum (s : Dev) (g : Fin 6) (i : VxInstr) : Dev :=
  let c := curator g
  let r := vget (s.vec g).t i.ta
  let mine := (s.cur g).stall == .vxSum
  if r.tag.poison then if mine then (s.consume g).raise c .poison 0 else s
  else
    let k := i.d / 8
    let o := vxSum k (i.d % 8) r.data
    let s := s.vxFlags g o.fl (bit o.fl 2)
    let s := (s.wr R.VEC_LASTSUM o.w g).wr R.VEC_SUMINFO
      (b2n r.tag.prov * 2 ^ 31 + 2 ^ 30 + k * 8 + i.d % 8) g
    if mine then
      (s.modCore c fun x => x.setReg i.sd (BitVec.ofNat 32 o.w)).commit c CoreSt.advance
    else s

/-- VX.RQ (R194 to R206, R235). An entry or a tag that breaks R198 or R235 only at the start leaves
free values (log entry 22). -/
def Dev.endRq (s : Dev) (g : Fin 6) (i : VxInstr) : Dev :=
  let v := s.vec g
  let r := vget v.t i.ta
  let dst := i.d % 8
  if !rqEntryOk v.rq dst || !rqTagOk r.tag.fmt then
    let (t, s) := s.freeTile
    s.vxWrite g i t (resTag dst r.tag.poison)
  else
    let src := rqSrc r.tag.fmt r.data.dense
    let p := v.rq.plan src
    let codes := p.codes src
    let n := (codes.filter (·.2)).length
    let s := s.vxWrite g i (rqDest r.tag.fmt r.tag.half (vget v.t i.td).data codes)
      (resTag dst r.tag.poison)
    let s := if n = 0 then s else (s.orR R.VEC_FLAGS 2 g).count R.VEC_RQSAT n g
    s.rqFinish g i.x p i.ep ((s.ep g).radio && i.ep) (n != 0) v.rqDrop

/-- The result of an instruction that computes td from ta and tb alone. -/
def vxCompute (i : VxInstr) (a b : TReg) : VxOut :=
  let f := i.d % 8
  match i.sub with
  | .add => vxBin .add f a.data b.data
  | .sub => vxBin .sub f a.data b.data
  | .mul => vxBin .mul f a.data b.data
  | .max => vxBin .max f a.data b.data
  | .min => vxBin .min f a.data b.data
  | .red => vxRed (i.d / 8 % 4) f (i.d / 32 == 1) a.data
  | .cpr => ⟨vxCpr a.data b.data, 0, 0⟩
  | .exp => ⟨vxExp a.data b.data, 0, 0⟩
  | .cvt => vxCvt (i.d / 8) f a.data
  | .act => vxAct (i.d % 16) a.tag.fmt a.data
  | .cmp => vxCmp (i.d / 8) f a.data b.data
  | .bcst => vxBcst f i.x
  | .min2 => vxMin2 f a.data
  | _ => vxSgnx f a.data b.data

/-- Does the instruction read tb? -/
def VxSub.two : VxSub → Bool
  | .add | .sub | .mul | .max | .min | .cpr | .exp | .cmp | .sgnx => true
  | _ => false

/-- An instruction that computes td from ta and tb. A VX.ACT whose tag breaks R236 only at its start
leaves free values (log entry 22). -/
def Dev.endCompute (s : Dev) (g : Fin 6) (i : VxInstr) : Dev :=
  let v := s.vec g
  let a := vget v.t i.ta
  let b := vget v.t i.tb
  let p := i.sub != .bcst && (a.tag.poison || (i.sub.two && b.tag.poison))
  if i.sub = .act ∧ actTagOk (i.d % 16) a.tag.fmt = false then
    let (t, s) := s.freeTile
    s.vxWrite g i t (resTag a.tag.fmt p)
  else
    let o := vxCompute i a b
    let s := s.vxFlags g o.fl o.sat
    let s := if i.sub = .cpr ∨ i.sub = .exp then s.wr R.VEC_CPRCNT (actives b.data) g else s
    s.vxWrite g i o.data (resTag (i.outFmt a.tag.fmt 0) p)

/-- VX_INSTR_END. -/
def vxInstrEnd (g : Fin 6) (s : Dev) : Dev :=
  match (s.vec g).exec with
  | none => s
  | some i =>
    if !s.galUp g then s
    else
      let l := (s.vec g).rq
      let n := i.cycles (l.smode == 1 || (l.smode == 2 && l.hist.isEmpty))
      let s := s.modVec g fun v => { v with exec := none }
      let s := ((s.count R.VEC_BUSYCYC n g).count R.VEC_INSTR 1 g).activity g 1 (128 * n)
      match i.sub with
      | .pop => s.endPop g i
      | .ld => s.endLd g i
      | .st => s.endSt g i
      | .sum => s.endSum g i
      | .rq => s.endRq g i
      | _ => s.endCompute g i

end Sys2Proof.Machine
end

