-- ==== Sys2Proof/Machine/Gallery.lean ====
section
/-!
DEFINITION. The gallery-extension instructions MX, VX, ST, SY, RG and EP, and the events of the
array, the vector engine and the epoch (R125 to R135, R173 to R245).
-/

namespace Sys2Proof.Machine

/-- A gallery-extension instruction; on a warden it is ILLEGAL (R104). -/
def gxInsn (c : Fin 8) (k : Form) (f : Fin 6 → Dev → CoreSt → Ins) (s : Dev) : Dev :=
  (s.insn c { k with gx := true } fun s x =>
    match CoreId.gal c with
    | some g => f g s x
    | none => .exc .illegal x.pc.toNat).settle c

/-- The core changes and the instruction commits. -/
def Dev.fin (s : Dev) (g : Fin 6) (f : CoreSt → CoreSt) : Ins :=
  .commit (s.modCore (curator g) f) CoreSt.advance

/-- A field is zero (R125). -/
def z (f : Fin 32) : Bool := f == 0

/-! ### MX (R128, R173 to R177) -/

/-- Issue of an MX command: the queue holds 4, and waiting for room is a slip in charted mode (R173,
R187). -/
def mxIssue (g : Fin 6) (s t : Dev) : Ins :=
  if 4 ≤ (s.arr g).queue.length then (if (s.cur g).charted then .stay (s.slip g) else .again)
  else .commit t CoreSt.advance

def execMxCfg (c : Fin 8) (f : XF) := onCore c <|
  gxInsn c { legal := z f.a && z f.b && z f.c && decide (f.d.val < 4) } fun g s x =>
    if (s.arr g).iss.chain.isSome then .exc .operand x.pc.toNat
    else mxIssue g s (s.mxCfg g f.d.val)

def execMxWld (c : Fin 8) (f : XF) := onCore c <|
  gxInsn c { legal := z f.a && z f.c && f.d == 0 } fun g s x =>
    let a := x.da (x.nat f.b)
    if !wldOk g a then .exc .operand x.pc.toNat else mxIssue g s (s.mxWld g a)

def execMxSwap (c : Fin 8) (f : XF) := onCore c <|
  gxInsn c { legal := z f.a && z f.b && z f.c && f.d == 0 } fun g s _ => mxIssue g s (s.mxSwap g)

def execMxRun (c : Fin 8) (f : XF) := onCore c <|
  gxInsn c { legal := f.d == 0 } fun g s x =>
    let r : RunCmd := ⟨x.nat f.a, x.da (x.nat f.b), x.nat f.c, (s.arr g).iss.mode⟩
    match s.runCheck g r with
    | some .operand => .exc .operand x.pc.toNat
    | some .epochState => .exc .epochState x.pc.toNat
    | none => mxIssue g s (s.mxRun g r)

def execMxWait (c : Fin 8) (f : XF) := onCore c <|
  gxInsn c { legal := z f.a && z f.b && z f.c && f.d == 0 } fun g s _ =>
    .wait (s.modCore (curator g) fun x => { x with stall := .mxWait })

def execMxStat (c : Fin 8) (f : XF) := onCore c <|
  gxInsn c { legal := z f.b && z f.c && f.d == 0 } fun g s _ =>
    s.fin g fun x => x.setReg f.a (BitVec.ofNat 32 ((s.arr g).stat (s.ep g).isOpen))

def execMxCfgDispatch (g : Fin 6) := ok fun s => s.cfgDispatch g
def execMxWldDispatch (g : Fin 6) := ok fun s => s.wldDispatch g
def execMxSwapDispatch (g : Fin 6) := ok fun s => s.swapDispatch g
def execMxRunDispatch (g : Fin 6) := ok fun s => s.runDispatch g
def execPlaneLoadDone (g : Fin 6) := ok fun s => s.planeLoadDone g
def execVitrineSlotReserve (g : Fin 6) := ok fun s => s.slotReserve g
def execTileReady (g : Fin 6) := ok fun s => s.tileReady g

/-! ### VX (R129) -/

/-- A tile register field within its range. -/
def tOk (f : Fin 32) : Bool := decide (f.val < 8)

/-- The tile register a field names. -/
def tr (f : Fin 32) : Fin 8 := Fin.ofNat 8 f.val

/-- A format code within its range. -/
def fOk (d : Nat) : Bool := decide (d % 8 ≤ 4)

/-- The instruction as it enters the engine. -/
def vxOf (o : VxSub) (td ta tb sd : Fin 32) (d x : Nat) : VxInstr :=
  ⟨o, tr td, tr ta, tr tb, sd, d, x, false, false, 0⟩

/-- A VX instruction without operand checks. -/
def vxInsn (c : Fin 8) (legal : Bool) (v : CoreSt → VxInstr) : Dev → Dev :=
  gxInsn c { legal := legal } fun g => vxIssue g v (fun _ _ => false) false false

/-- An element-wise instruction td, ta, tb with format F alone. -/
def vx3 (o : VxSub) (c : Fin 8) (f : XF) : Dev → Dev :=
  vxInsn c (tOk f.a && tOk f.b && tOk f.c && fOk f.d.val && decide (f.d.val < 8))
    fun _ => vxOf o f.a f.b f.c 0 f.d.val 0

def execVxPop (c : Fin 8) (f : XF) := onCore c <|
  vxInsn c (tOk f.a && z f.b && z f.c && f.d == 0) fun _ => vxOf .pop f.a 0 0 0 0 0

/-- Operand rule of VX.LD and VX.ST (R225). -/
def ldBad (g : Fin 6) (f : XF) (x : CoreSt) : Bool :=
  let a := x.da (x.nat f.b)
  a % 64 != 0 || !inStore g a (16384 * fmtBytes (f.d.val % 8))

def execVxLd (c : Fin 8) (f : XF) := onCore c <|
  gxInsn c { legal := tOk f.a && z f.c && fOk f.d.val && decide (f.d.val < 8) } fun g =>
    vxIssue g (fun x => vxOf .ld f.a 0 0 0 f.d.val (x.da (x.nat f.b)))
      (fun _ x => ldBad g f x) false false

/-- VX.ST: its A field names ta. -/
def execVxSt (c : Fin 8) (f : XF) := onCore c <|
  gxInsn c { legal := tOk f.a && z f.c && fOk f.d.val && decide (f.d.val < 8) } fun g =>
    vxIssue g (fun x => vxOf .st 0 f.a 0 0 f.d.val (x.da (x.nat f.b)))
      (fun _ x => ldBad g f x) true false

def execVxAdd (c : Fin 8) (f : XF) := onCore c (vx3 .add c f)
def execVxSub (c : Fin 8) (f : XF) := onCore c (vx3 .sub c f)
def execVxMul (c : Fin 8) (f : XF) := onCore c (vx3 .mul c f)
def execVxMax (c : Fin 8) (f : XF) := onCore c (vx3 .max c f)
def execVxMin (c : Fin 8) (f : XF) := onCore c (vx3 .min c f)

def execVxRed (c : Fin 8) (f : XF) := onCore c <|
  vxInsn c (tOk f.a && tOk f.b && z f.c && fOk f.d.val && f.d.val / 8 % 4 != 3) fun _ =>
    vxOf .red f.a f.b 0 0 f.d.val 0

def execVxSum (c : Fin 8) (f : XF) := onCore c <|
  gxInsn c { legal := tOk f.b && z f.c && fOk f.d.val && decide (f.d.val / 8 ≤ 4) } fun g =>
    vxIssue g (fun _ => vxOf .sum 0 f.b 0 f.a f.d.val 0) (fun _ _ => false) false true

def execVxCpr (c : Fin 8) (f : XF) := onCore c (vx3 .cpr c f)
def execVxExp (c : Fin 8) (f : XF) := onCore c (vx3 .exp c f)

def execVxCvt (c : Fin 8) (f : XF) := onCore c <|
  vxInsn c (tOk f.a && tOk f.b && z f.c && fOk f.d.val && fOk (f.d.val / 8)) fun _ =>
    vxOf .cvt f.a f.b 0 0 f.d.val 0

/-- VX.RQ raises OPERAND for a legend index of 1,024 or more, on R198 and on the tag of ta (R129,
R198, R235). -/
def execVxRq (c : Fin 8) (f : XF) := onCore c <|
  gxInsn c { legal := tOk f.a && tOk f.b && decide (f.d.val < 2) } fun g =>
    vxIssue g (fun x => vxOf .rq f.a f.b 0 0 f.d.val (x.nat f.c))
      (fun s x => decide (1024 ≤ x.nat f.c) || !rqEntryOk (s.leg g (x.nat f.c)) f.d.val
        || !rqTagOk (s.tagOf g (tr f.b))) false false

def execVxAct (c : Fin 8) (f : XF) := onCore c <|
  gxInsn c { legal := tOk f.a && tOk f.b && z f.c && decide (f.d.val < 12) } fun g =>
    vxIssue g (fun _ => vxOf .act f.a f.b 0 0 f.d.val 0)
      (fun s _ => !actTagOk f.d.val (s.tagOf g (tr f.b))) false false

def execVxCmp (c : Fin 8) (f : XF) := onCore c <|
  vxInsn c (tOk f.a && tOk f.b && tOk f.c && fOk f.d.val && decide (f.d.val / 8 < 4)) fun _ =>
    vxOf .cmp f.a f.b f.c 0 f.d.val 0

def execVxBcst (c : Fin 8) (f : XF) := onCore c <|
  vxInsn c (tOk f.a && z f.c && fOk f.d.val && decide (f.d.val < 8)) fun x =>
    vxOf .bcst f.a 0 0 0 f.d.val (x.nat f.b)

def execVxMin2 (c : Fin 8) (f : XF) := onCore c <|
  vxInsn c (tOk f.a && tOk f.b && z f.c && decide (f.d.val < 2)) fun _ =>
    vxOf .min2 f.a f.b 0 0 f.d.val 0

def execVxSgnx (c : Fin 8) (f : XF) := onCore c <|
  vxInsn c (tOk f.a && tOk f.b && tOk f.c && decide (f.d.val < 2)) fun _ =>
    vxOf .sgnx f.a f.b f.c 0 f.d.val 0

def execVxInstrStart (g : Fin 6) := ok (vxInstrStart g)
def execVxInstrEnd (g : Fin 6) := ok (vxInstrEnd g)

/-! ### ST (R130, R269 to R278) -/

/-- An ST instruction on stream `n` of its C field. -/
def stInsn (c : Fin 8) (f : XF) (legal : Bool) (op : Fin 6 → Fin 16 → Dev → CoreSt → Ins) : Dev → Dev :=
  gxInsn c { legal := legal && decide (f.c.val < 16) } fun g => op g (Fin.ofNat 16 f.c.val)

/-- The descriptor's place (R269). -/
def descBad (g : Fin 6) (a : Nat) : Bool := a % 64 != 0 || !(inStore g a 64 || inAtrium a 64)

def execStOpen (c : Fin 8) (f : XF) := onCore c <|
  stInsn c f (decide (f.d.val < 4)) fun g n s x =>
    let a := x.da (x.nat f.b)
    if descBad g a then .exc .operand x.pc.toNat
    else if !x.drained then .again
    else
      let (code, t) := s.stOpen g n a (f.d.val + 1)
      t.fin g fun y => y.setReg f.a (BitVec.ofNat 32 code)

/-- A stream that is open, its close not held. -/
def Dev.stUsable (s : Dev) (g : Fin 6) (n : Fin 16) : Bool :=
  match s.stream g n with | some t => !t.heldClose | none => false

/-- ST.CLOSE: forcing with held writes, held inside an epoch without (R211, R275, R278). -/
def execStClose (c : Fin 8) (f : XF) := onCore c <|
  stInsn c f (z f.a && z f.b && f.d == 0) fun g n s x =>
    match s.stream g n with
    | none => .exc .operand x.pc.toNat
    | some t =>
      if t.heldClose then .exc .operand x.pc.toNat
      else if s.inEpoch c && s.stHeldWrites g n then .bound 5
      else if !t.closable then .again
      else if s.inEpoch c then .commit (s.setStream g n (some { t with heldClose := true })) CoreSt.advance
      else .commit (s.stClose g n) CoreSt.advance

def execStNext (c : Fin 8) (f : XF) := onCore c <|
  stInsn c f (z f.b && f.d == 0) fun g n s x =>
    match s.stNextRes g n with
    | .operand => .exc .operand x.pc.toNat
    | _ => .wait (s.modCore (curator g) fun y => { y with stall := .stNext f.a n })

/-- A VX.ST that overlaps the slot ST.DONE releases has not ended (R274). -/
def Dev.doneBlocked (s : Dev) (g : Fin 6) (n : Fin 16) (x : CoreSt) : Bool :=
  match s.stream g n with
  | none => false
  | some t =>
    let a := t.slotAddr (t.released + t.heldDone)
    !x.charted && ((s.vec g).exec.toList ++ (s.vec g).waiting).any fun i =>
      i.sub == .st && overlap i.x i.bytes a t.desc.tb

def execStDone (c : Fin 8) (f : XF) := onCore c <|
  stInsn c f (z f.a && z f.b && f.d == 0) fun g n s x =>
    if !s.stDoneOk g n then .exc .operand x.pc.toNat
    else if s.doneBlocked g n x then .again
    else .commit (s.stDone g n) CoreSt.advance

def execStWait (c : Fin 8) (f : XF) := onCore c <|
  stInsn c f (z f.a && z f.b && f.d == 0) fun g n s x =>
    if !s.stUsable g n then .exc .operand x.pc.toNat
    else if s.inEpoch c && s.stHeldWrites g n then .bound 5
    else .wait (s.modCore (curator g) fun y => { y with stall := .stWait n })

def execStStat (c : Fin 8) (f : XF) := onCore c <|
  stInsn c f (z f.b && f.d == 0) fun g n s x =>
    if !s.stUsable g n then .exc .operand x.pc.toNat
    else s.fin g fun y => y.setReg f.a (BitVec.ofNat 32 (streamStat (s.stream g n)))

def execTileFetchDone (g : Fin 6) (n : Fin 16) := ok fun s => s.tileFetchDone g n
def execTileWriteDone (g : Fin 6) (n : Fin 16) := ok fun s => s.tileWriteDone g n
def execStreamEnd (g : Fin 6) (n : Fin 16) := ok fun s => s.streamEnd g n

/-! ### SY (R131 to R133, R295) -/

/-- The cell identifier breaks R131, or R295 in task mode. -/
def Dev.cellIdBad (s : Dev) (g : Fin 6) (x : CoreSt) (id : Nat) : Bool :=
  !idOkCell id || (x.task &&
    match s.workOf g with
    | none => true
    | some w => if s.foreign id then !w.remote
      else decide (bits id 15 0 < w.cellBase) || decide (w.cellBase + w.nCells ≤ bits id 15 0))

/-- A cell operation: a release, held until the core's stores are acknowledged (R31). -/
def syInsn (c : Fin 8) (f : XF) (legal : Bool) (k : HubKind) (sd : Fin 32) (t : CoreSt → Nat) (force : Bool) :
    Dev → Dev :=
  gxInsn c { legal := legal } fun g s x =>
    let id := x.nat f.b
    if s.cellIdBad g x id then .exc .operand x.pc.toNat
    else if force && s.inEpoch c then .bound 5
    else .wait (s.modCore (curator g) fun y => { y with
      stall := .hubHeld ⟨k, sd, id, x.nat f.c, t x⟩ })

/-- The timeout register of a D field. -/
def CoreSt.timeout (x : CoreSt) (f : XF) : Nat := x.nat (Fin.ofNat 32 f.d.val)

def execSyAdd (c : Fin 8) (f : XF) := onCore c (syInsn c f (f.d == 0) .add f.a (fun _ => 0) true)
def execSySet (c : Fin 8) (f : XF) := onCore c (syInsn c f (f.d == 0) .set f.a (fun _ => 0) true)
def execSyTest (c : Fin 8) (f : XF) := onCore c
  (syInsn c f (z f.c && f.d == 0) .test f.a (fun _ => 0) false)
def execSyWaitge (c : Fin 8) (f : XF) := onCore c
  (syInsn c f (decide (f.d.val < 32)) .waitge f.a (fun x => x.timeout f) false)
def execSyWaiteq (c : Fin 8) (f : XF) := onCore c
  (syInsn c f (decide (f.d.val < 32)) .waiteq f.a (fun x => x.timeout f) false)
def execSyGate (c : Fin 8) (f : XF) := onCore c
  (syInsn c f (z f.a && f.d == 0) .gate 0 (fun _ => 0) false)

/-! ### RG (R134, R295 to R297) -/

/-- The work that holds the gallery owns the ring. -/
def Dev.ringMine (s : Dev) (g : Fin 6) (r : Nat) : Bool :=
  s.workId g != 0 && s.fld R.RING_CFG 15 8 0 r == s.workId g

/-- The entry buffer breaks R134. -/
def bufBad (g : Fin 6) (a : Nat) : Bool := a % 64 != 0 || !(inStore g a 64 || inAtrium a 64)

/-- The identifier or the ring breaks R131, R134 or R295 for a post. -/
def Dev.postBad (s : Dev) (g : Fin 6) (x : CoreSt) (id : Nat) : Bool :=
  let r := bits id 9 0
  !idOkRing id || (if s.foreign id then
      x.task && (match s.workOf g with | some w => !w.remote | none => true)
    else !s.ringEn r || (x.task && !(s.ringMine g r || s.bt R.RING_CFG 26 0 r)))

/-- The same for a pop or RG.STAT. -/
def Dev.popBad (s : Dev) (g : Fin 6) (x : CoreSt) (id : Nat) : Bool :=
  !idOkRing id || s.foreign id || (x.task && !s.ringMine g (bits id 9 0))

def execRgPost (c : Fin 8) (f : XF) := onCore c <|
  gxInsn c { legal := f.d == 0 } fun g s x =>
    let id := x.nat f.b
    if s.postBad g x id || bufBad g (x.da (x.nat f.c)) then .exc .operand x.pc.toNat
    else if s.inEpoch c then .bound 5
    else .wait (s.modCore (curator g) fun y => { y with
      stall := .hubHeld ⟨.post, f.a, id, x.nat f.c, 0⟩ })

/-- RG.POP and RG.POPW. -/
def popInsn (c : Fin 8) (f : XF) (legal : Bool) (k : HubKind) (t : CoreSt → Nat) : Dev → Dev :=
  gxInsn c { legal := legal } fun g s x =>
    let id := x.nat f.b
    if s.popBad g x id || bufBad g (x.da (x.nat f.c)) then .exc .operand x.pc.toNat
    else if s.inEpoch c then .bound 5
    else .wait (s.hubIssue g ⟨k, f.a, id, x.nat f.c, t x⟩)

def execRgPop (c : Fin 8) (f : XF) := onCore c (popInsn c f (f.d == 0) .pop fun _ => 0)
def execRgPopw (c : Fin 8) (f : XF) := onCore c
  (popInsn c f (decide (f.d.val < 32)) .popw fun x => x.timeout f)

/-- Occupancy word of a ring (R297). -/
def Dev.occWord (s : Dev) (r : Nat) : Nat :=
  min (s.ring r).rocc 65535 * 2 ^ 16 + min (s.ring r).socc 65535

/-- RG.STAT leaves GXSTAT as it is (log entry 21). -/
def execRgStat (c : Fin 8) (f : XF) := onCore c <|
  gxInsn c { legal := z f.c && f.d == 0 } fun g s x =>
    let id := x.nat f.b
    if s.popBad g x id then .exc .operand x.pc.toNat
    else
      let t := s.ringMeet (8 + g.val) (bits id 9 0)
      t.fin g fun y => y.setReg f.a (BitVec.ofNat 32 (t.occWord (bits id 9 0)))

/-! ### EP (R135, R208 to R217) -/

def execEpOpen (c : Fin 8) (f : XF) := onCore c <|
  gxInsn c { legal := z f.a && z f.c && f.d == 0, noSlot := true } fun g s x =>
    if (s.ep g).isOpen then .exc .epochState x.pc.toNat
    else if x.nat f.b % 4 ≠ 0 then .exc .operand x.pc.toNat
    else .commit (s.epOpen g false (x.nat f.b)) CoreSt.advance

/-- EP.COMMIT: the epoch is ending and the curator waits (R214). -/
def execEpCommit (c : Fin 8) (f : XF) := onCore c <|
  gxInsn c { legal := z f.a && z f.b && z f.c && f.d == 0, noSlot := true } fun g s _ =>
    if (s.ep g).isOpen then
      .wait ((s.modEp g fun e => { e with ending := true }).modCore (curator g) fun y => { y with
        stall := .epCommit })
    else .commit s CoreSt.advance

/-- EP.SQUASH: EPOCH_SQUASH takes it at the boundary that follows. -/
def execEpSquash (c : Fin 8) (f : XF) := onCore c <|
  gxInsn c { legal := z f.a && z f.b && z f.c && f.d == 0, noSlot := true, noEnd := true } fun g s _ =>
    .commit (if (s.ep g).isOpen then s.askSquash g 2 else s) CoreSt.advance

def execEpStat (c : Fin 8) (f : XF) := onCore c <|
  gxInsn c { legal := z f.b && z f.c && f.d == 0 } fun g s _ =>
    s.fin g fun x => x.setReg f.a (BitVec.ofNat 32 (s.epStat g))

def execEpochTimeBound (g : Fin 6) := ok (epochTimeBound g)
def execEpochCommit (g : Fin 6) := ok (epochCommit g)
def execEpochSquash (g : Fin 6) := ok (epochSquash g)

end Sys2Proof.Machine
end

