-- ==== Sys2Proof/Machine/Ieee.lean ====
section
/-!
DEFINITION. IEEE 754 binary32 and binary64 arithmetic with subnormals, five rounding directions and
exception flags: the arithmetic of the host cores (R316) and of the metering engine (R402). Results
are computed exactly and rounded once; a NaN result is the canonical one.
-/

namespace Sys2Proof.Machine

/-- A binary format: precision with the hidden bit, and exponent bits. -/
structure FFmt where
  p : Nat
  eb : Nat

/-- binary32. -/
def f32 : FFmt := ⟨24, 8⟩

/-- binary64. -/
def f64 : FFmt := ⟨53, 11⟩

/-- Rounding directions, in the encoding of RISC-V's rm field. -/
inductive Rm
  | rne | rtz | rdn | rup | rmm
  deriving DecidableEq, Repr

/-- A result: word and flags, NV 16, DZ 8, OF 4, UF 2, NX 1. -/
structure FR where
  w : Nat
  fl : Nat
  deriving DecidableEq, Repr

/-- Exponent bias. -/
def FFmt.bias (f : FFmt) : Nat := 2 ^ (f.eb - 1) - 1

/-- Fraction bits. -/
def FFmt.fb (f : FFmt) : Nat := f.p - 1

/-- Smallest exponent of a normal number. -/
def FFmt.emin (f : FFmt) : Int := 1 - (f.bias : Int)

/-- Sign bit of a word. -/
def FFmt.neg (f : FFmt) (w : Nat) : Bool := bit w (f.fb + f.eb) == 1

/-- Word of a sign, exponent field and fraction. -/
def FFmt.mk' (f : FFmt) (neg : Bool) (ex fr : Nat) : Nat := b2n neg * 2 ^ (f.fb + f.eb) + ex * 2 ^ f.fb + fr

/-- Infinity. -/
def FFmt.inf (f : FFmt) (neg : Bool) : Nat := f.mk' neg (2 ^ f.eb - 1) 0

/-- The canonical NaN. -/
def FFmt.nan (f : FFmt) : Nat := f.mk' false (2 ^ f.eb - 1) (2 ^ (f.fb - 1))

/-- Zero. -/
def FFmt.zero (f : FFmt) (neg : Bool) : Nat := f.mk' neg 0 0

/-- Value of a word. -/
def FFmt.dec (f : FFmt) (w : Nat) : Fv :=
  let n := f.neg w
  let ex := bits w (f.fb + f.eb - 1) f.fb
  let fr := w % 2 ^ f.fb
  if ex = 2 ^ f.eb - 1 then (if fr = 0 then .inf n else .nan)
  else if ex = 0 then .fin n fr (f.emin - (f.fb : Int))
  else .fin n (fr + 2 ^ f.fb) ((ex : Int) - (f.bias : Int) - (f.fb : Int))

/-- Is the word a NaN? -/
def FFmt.isNan (f : FFmt) (w : Nat) : Bool := f.dec w == .nan

/-- Is it a signalling NaN? -/
def FFmt.isSnan (f : FFmt) (w : Nat) : Bool := f.isNan w && bit w (f.fb - 1) == 0

/-- NV where an operand is a signalling NaN. -/
def FFmt.nv (f : FFmt) (ws : List Nat) : Nat := if ws.any f.isSnan then 16 else 0

/-- Does rounding a magnitude go up? `lsb` is the low bit kept, `half` compares the rest with one
half (0 nothing left, 1 below, 2 equal, 3 above). -/
def roundUp (r : Rm) (neg : Bool) (lsb half : Nat) : Bool :=
  match r with
  | .rne => half == 3 || (half == 2 && lsb == 1)
  | .rtz => false
  | .rdn => neg && half != 0
  | .rup => !neg && half != 0
  | .rmm => decide (2 ≤ half)

/-- `m / 2^k` rounded, and whether it was exact. -/
def shiftRound (r : Rm) (neg : Bool) (m k : Nat) : Nat × Bool :=
  let q := m / 2 ^ k
  let x := m % 2 ^ k
  let h := if x = 0 then 0 else if 2 * x < 2 ^ k then 1 else if 2 * x = 2 ^ k then 2 else 3
  (if roundUp r neg (q % 2) h then q + 1 else q, x == 0)

/-- ±m × 2^e rounded to the format. -/
def FFmt.round (f : FFmt) (r : Rm) (neg : Bool) (m : Nat) (e : Int) : FR :=
  if m = 0 then ⟨f.zero neg, 0⟩
  else
    let ex := e + (m.log2 : Int)
    let q := max ex f.emin - (f.fb : Int)
    let (sg, exact) := if q ≤ e then (m * 2 ^ (e - q).toNat, true) else shiftRound r neg m (q - e).toNat
    let nx := b2n !exact
    -- tininess is detected after rounding
    let far := ex - (f.fb : Int)
    let sgU := if far ≤ e then 0 else (shiftRound r neg m (far - e).toNat).1
    let tiny := decide (ex < f.emin) && !(ex + 1 == f.emin && sgU == 2 ^ f.p)
    let uf := if tiny && !exact then 2 else 0
    if sg < 2 ^ f.fb then ⟨f.mk' neg 0 sg, nx + uf⟩
    else
      let (sg, q) := if sg = 2 ^ f.p then (2 ^ f.fb, q + 1) else (sg, q)
      let E := q + (f.fb : Int)
      if (f.bias : Int) < E then
        let toInf := match r with
          | .rne | .rmm => true
          | .rtz => false
          | .rdn => neg
          | .rup => !neg
        ⟨if toInf then f.inf neg else f.inf neg - 1, 5⟩
      else ⟨f.mk' neg (E + (f.bias : Int)).toNat (sg - 2 ^ f.fb), nx + uf⟩

/-- A signed exact value x × 2^e rounded; `z` is the sign of an exact zero. -/
def FFmt.roundInt (f : FFmt) (r : Rm) (x e : Int) (z : Bool) : FR :=
  if x = 0 then ⟨f.zero z, 0⟩ else f.round r (decide (x < 0)) x.natAbs e

/-- ±n / d × 2^e rounded, with `d` not 0. -/
def FFmt.roundDiv (f : FFmt) (r : Rm) (neg : Bool) (n d : Nat) (e : Int) : FR :=
  let k := d.log2 + f.p + 3
  let q := n * 2 ^ k / d
  f.round r neg (2 * q + b2n (n * 2 ^ k % d != 0)) (e - k - 1)

/-- a + b. -/
def FFmt.add (f : FFmt) (r : Rm) (a b : Nat) : FR :=
  let nv := f.nv [a, b]
  match f.dec a, f.dec b with
  | .nan, _ | _, .nan => ⟨f.nan, nv⟩
  | .inf x, .inf y => if x = y then ⟨f.inf x, 0⟩ else ⟨f.nan, 16⟩
  | .inf x, .fin _ _ _ | .fin _ _ _, .inf x => ⟨f.inf x, 0⟩
  | .fin n1 m1 e1, .fin n2 m2 e2 =>
    let e := min e1 e2
    let v := fsgn n1 (m1 * 2 ^ (e1 - e).toNat) + fsgn n2 (m2 * 2 ^ (e2 - e).toNat)
    f.roundInt r v e (if n1 = n2 then n1 else r == .rdn)

/-- Change of sign. -/
def FFmt.negate (f : FFmt) (a : Nat) : Nat := if f.neg a then a - 2 ^ (f.fb + f.eb) else a + 2 ^ (f.fb + f.eb)

/-- Magnitude. -/
def FFmt.abs (f : FFmt) (a : Nat) : Nat := a % 2 ^ (f.fb + f.eb)

/-- a - b. -/
def FFmt.sub (f : FFmt) (r : Rm) (a b : Nat) : FR :=
  if f.isNan b then ⟨f.nan, f.nv [a, b]⟩ else f.add r a (f.negate b)

/-- a × b. -/
def FFmt.mul (f : FFmt) (r : Rm) (a b : Nat) : FR :=
  match f.dec a, f.dec b with
  | .nan, _ | _, .nan => ⟨f.nan, f.nv [a, b]⟩
  | .inf x, .inf y => ⟨f.inf (x != y), 0⟩
  | .inf x, .fin y m _ | .fin y m _, .inf x => if m = 0 then ⟨f.nan, 16⟩ else ⟨f.inf (x != y), 0⟩
  | .fin n1 m1 e1, .fin n2 m2 e2 => f.round r (n1 != n2) (m1 * m2) (e1 + e2)

/-- a / b. -/
def FFmt.div (f : FFmt) (r : Rm) (a b : Nat) : FR :=
  match f.dec a, f.dec b with
  | .nan, _ | _, .nan => ⟨f.nan, f.nv [a, b]⟩
  | .inf _, .inf _ => ⟨f.nan, 16⟩
  | .inf x, .fin y _ _ => ⟨f.inf (x != y), 0⟩
  | .fin x _ _, .inf y => ⟨f.zero (x != y), 0⟩
  | .fin n1 m1 e1, .fin n2 m2 e2 =>
    if m2 = 0 then (if m1 = 0 then ⟨f.nan, 16⟩ else ⟨f.inf (n1 != n2), 8⟩)
    else if m1 = 0 then ⟨f.zero (n1 != n2), 0⟩
    else f.roundDiv r (n1 != n2) m1 m2 (e1 - e2)

/-- Square root. -/
def FFmt.sqrt (f : FFmt) (r : Rm) (a : Nat) : FR :=
  match f.dec a with
  | .nan => ⟨f.nan, f.nv [a]⟩
  | .inf n => if n then ⟨f.nan, 16⟩ else ⟨f.inf false, 0⟩
  | .fin n m e =>
    if m = 0 then ⟨f.zero n, 0⟩
    else if n then ⟨f.nan, 16⟩
    else
      let m := if e % 2 = 0 then m else 2 * m
      let e := if e % 2 = 0 then e else e - 1
      let x := m * 2 ^ 128
      let q := Nat.sqrt x
      f.round r false (2 * q + b2n (q * q != x)) (e / 2 - 65)

/-- a × b + c with one rounding. -/
def FFmt.fma (f : FFmt) (r : Rm) (a b c : Nat) : FR :=
  let nv := f.nv [a, b, c]
  let bad := match f.dec a, f.dec b with
    | .inf _, .fin _ 0 _ | .fin _ 0 _, .inf _ => true
    | _, _ => false
  if bad then ⟨f.nan, 16⟩
  else match f.dec a, f.dec b, f.dec c with
    | .nan, _, _ | _, .nan, _ | _, _, .nan => ⟨f.nan, nv⟩
    | .fin n1 m1 e1, .fin n2 m2 e2, .fin n3 m3 e3 =>
      let e := min (e1 + e2) e3
      let n := n1 != n2
      let v := fsgn n (m1 * m2 * 2 ^ (e1 + e2 - e).toNat) + fsgn n3 (m3 * 2 ^ (e3 - e).toNat)
      f.roundInt r v e (if n = n3 then n else r == .rdn)
    | .fin _ _ _, .fin _ _ _, .inf z => ⟨f.inf z, 0⟩
    | x, y, z =>
      let sx := match x with | .inf n | .fin n _ _ => n | .nan => false
      let sy := match y with | .inf n | .fin n _ _ => n | .nan => false
      match z with
      | .inf s => if s = (sx != sy) then ⟨f.inf s, 0⟩ else ⟨f.nan, 16⟩
      | _ => ⟨f.inf (sx != sy), 0⟩

/-- Order of two words that are no NaN: value of the smaller, as a sign of a - b. -/
def FFmt.cmp (f : FFmt) (a b : Nat) : Ordering :=
  let key := fun w => if f.neg w then -((f.abs w : Nat) : Int) else (f.abs w : Int)
  compare (key a) (key b)

/-- a < b, quiet: false on a NaN. -/
def FFmt.lt (f : FFmt) (a b : Nat) : Bool := !f.isNan a && !f.isNan b && f.cmp a b == .lt

/-- a ≤ b, quiet. -/
def FFmt.le (f : FFmt) (a b : Nat) : Bool := !f.isNan a && !f.isNan b && f.cmp a b != .gt

/-- a = b, quiet. -/
def FFmt.eq (f : FFmt) (a b : Nat) : Bool := !f.isNan a && !f.isNan b && f.cmp a b == .eq

/-- Exact value rounded to an integer, and whether it was exact. -/
def fvInt (r : Rm) (neg : Bool) (m : Nat) (e : Int) : Int × Bool :=
  if 0 ≤ e then (fsgn neg (m * 2 ^ e.toNat), true)
  else
    let (q, x) := shiftRound r neg m (-e).toNat
    (fsgn neg q, x)

/-- An integer as a word. -/
def FFmt.ofInt (f : FFmt) (r : Rm) (x : Int) : FR := f.roundInt r x 0 false

/-- A word of another format. -/
def FFmt.conv (f : FFmt) (r : Rm) (g : FFmt) (a : Nat) : FR :=
  match g.dec a with
  | .nan => ⟨f.nan, g.nv [a]⟩
  | .inf n => ⟨f.inf n, 0⟩
  | .fin n m e => f.round r n m e

/-! ### binary64 as the metering engine uses it: to nearest, ties to even (R402) -/

def dAdd (a b : Nat) : Nat := (f64.add .rne a b).w
def dSub (a b : Nat) : Nat := (f64.sub .rne a b).w
def dMul (a b : Nat) : Nat := (f64.mul .rne a b).w
def dDiv (a b : Nat) : Nat := (f64.div .rne a b).w
def dSqrt (a : Nat) : Nat := (f64.sqrt .rne a).w
def dInt (x : Int) : Nat := (f64.ofInt .rne x).w
def dNeg (a : Nat) : Nat := f64.negate a
def dAbs (a : Nat) : Nat := f64.abs a

/-- The binary64 nearest n / d. -/
def dRat (n d : Nat) : Nat := if n = 0 then 0 else (f64.roundDiv .rne false n d 0).w

/-- A binary32 word as binary64. -/
def dOfF32 (a : Nat) : Nat := (f64.conv .rne f32 a).w

/-- A binary64 word as binary32. -/
def dToF32 (a : Nat) : Nat := (f32.conv .rne f64 a).w

/-- ⌊a⌋; 0 for a NaN or an infinity. -/
def dFloor (a : Nat) : Int :=
  match f64.dec a with
  | .fin n m e => (fvInt .rdn n m e).1
  | _ => 0

/-- a rounded to the nearest integer, ties to even; 0 for a NaN or an infinity. -/
def dRint (a : Nat) : Int :=
  match f64.dec a with
  | .fin n m e => (fvInt .rne n m e).1
  | _ => 0

end Sys2Proof.Machine
end

