-- ==== Sys2Proof/Machine/Supply.lean ====
section
/-!
DEFINITION. Clock ceilings and their supply voltages over PMBus (R56 to R59), and the ledger's event
record (R77).
-/

namespace Sys2Proof.Machine

/-- Change of the power sequencer's state. -/
def Dev.modPwr (s : Dev) (f : PowerSt → PowerSt) : Dev := { s with pwr := f s.pwr }

/-- Change of the ledger's state. -/
def Dev.modLdg (s : Dev) (f : LedgerSt → LedgerSt) : Dev := { s with ldg := f s.ldg }

/-- An event of R77: recorded for the post at the end of the tick while ring 40 is enabled and the
compute die is on. -/
def Dev.ldgEvent (s : Dev) (code arg : Nat) : Dev :=
  if s.cdieOn && s.ringEn 40 then
    s.modLdg fun l => { l with events := l.events ++ [⟨code, arg, s.ns, s.rg R.HOUR_MS⟩] }
  else s

/-- Number of a rail as PMB_RAIL counts it. -/
def railK (r : Nat) : Nat := min r 5

/-- PMB_STAT records an error of a rail (R56 to R59, R77). -/
def Dev.pmbErr (s : Dev) (b r : Nat) : Dev :=
  ((((s.orR R.PMB_STAT (2 ^ b) 0).setF R.PMB_STAT 27 25 (railK r) 0).orR R.LDG_IRQ 128 0)).ldgEvent 8
    (railK r)

/-- A PMBus request is abandoned (R56). -/
def Dev.pmbAbandon (s : Dev) (r : Nat) : Dev :=
  let n := s.fld R.PMB_STAT 15 0 0
  (s.setF R.PMB_STAT 15 0 (min (n + 1) 0xFFFF) 0).pmbErr 31 r

/-- VOUT_MODE reports ULINEAR16. -/
def modeLinear (m : Nat) : Bool := m / 32 % 8 == 0

/-- The exponent of a VOUT_MODE byte. -/
def modeExp (m : Nat) : Int := toS 5 m

/-- VOUT_COMMAND of a request (R57). -/
def voutCommand (mv : Nat) (m : Nat) : Nat :=
  let e := modeExp m
  if e < 0 then (mv * 2 ^ (-e).toNat + 999) / 1000 else (mv + (1000 * 2 ^ e.toNat - 1)) / (1000 * 2 ^ e.toNat)

/-- A READ_VOUT reading `x` is at least `mv` millivolts (R51, R59). -/
def readAtLeast (x m : Nat) (mv : Nat) : Bool :=
  let e := modeExp m
  if e < 0 then decide (mv * 2 ^ (-e).toNat ≤ x * 1000) else decide (mv ≤ x * 2 ^ e.toNat * 1000)

/-- A READ_VOUT reading `x` lies within 5 % of `mv` (R51). -/
def readNear (x m : Nat) (mv : Nat) : Bool :=
  let e := modeExp m
  let (a, b) := if e < 0 then (x * 100000, mv * 2 ^ (-e).toNat) else (x * 2 ^ e.toNat * 100000, mv)
  decide (95 * b ≤ a) && decide (a ≤ 105 * b)

/-- Entry `j` of a V/F table: frequency and voltage. -/
def Dev.vfEntry (s : Dev) (host : Bool) (j : Nat) : Nat × Nat :=
  let r := if host then R.VF_HOST else R.VF_GAL
  (s.fld r 27 16 0 j, s.fld r 11 0 0 j)

/-- A V/F table is in order (R58). -/
def Dev.vfOk (s : Dev) (host : Bool) : Bool :=
  (List.range 7).all fun j =>
    let a := s.vfEntry host j
    let b := s.vfEntry host (j + 1)
    decide (a.1 < b.1) && decide (a.2 ≤ b.2)

/-- VF(f) (R58). -/
def Dev.vf (s : Dev) (host : Bool) (f : Nat) : Nat :=
  match (List.range 8).find? fun j => decide (f ≤ (s.vfEntry host j).1) with
  | some j => (s.vfEntry host j).2
  | none => (s.vfEntry host 7).2

/-- Rail of a ceiling: galleries 0 to 5 by pair, 6 the host. -/
def ceilRail (t : Fin 7) : Fin 9 := if t.val < 6 then ⟨t.val / 2, by omega⟩ else 3

/-- Galleries that a ceiling's rail feeds and that are not gated. -/
def Dev.railUsers (s : Dev) (r : Fin 9) : List (Fin 7) :=
  (List.finRange 7).filter fun t =>
    ceilRail t == r && (match toGal t.val with | some g => vget s.pwr.gal g != .gated | none => true)

/-- The voltage that R58 requests for a rail with the given ceilings. -/
def Dev.railRequest (s : Dev) (r : Fin 9) (ceil : Fin 7 → Nat) : Nat :=
  let host := r == 3
  if s.vfOk host then ((s.railUsers r).map fun t => s.vf host (ceil t)).foldl max 0
  else if host then 900 else 850

/-- Out-of-order table at a request: VFERR (R58). -/
def Dev.vfCheck (s : Dev) (r : Fin 9) : Dev :=
  if s.vfOk (r == 3) then s else s.pmbErr 28 r.val

/-- Send VOUT_COMMAND for a request (R56, R57): whether it was sent. -/
def Dev.sendVout (s : Dev) (r : Fin 9) (mv : Nat) : Bool × Dev :=
  let s := s.vfCheck r
  let m := (vget s.pwr.rails r).mode
  if !modeLinear m then (false, s.pmbErr 29 r.val)
  else if 0xFFFF < voutCommand mv m then (false, s.pmbErr 29 r.val)
  else (true, s.modPwr fun p => { p with rails := vmod p.rails r fun x => { x with reqMv := mv } })

/-- Apply a ceiling. -/
def Dev.putCeil (s : Dev) (t : Fin 7) (f : Nat) : Dev :=
  s.modPwr fun p => { p with ceil := vset p.ceil t f, raises := vset p.raises t none }

/-- The ceiling that the limits ask for: min(FMAX, FEFF) for a gallery, FMAX for the host (R58). -/
def Dev.wantCeil (s : Dev) (t : Fin 7) : Nat :=
  let f := s.fld R.ICC_CTL 27 16 0 t.val
  if t.val < 6 then min f (s.fld R.GSTAT 27 16 0 t.val) else f

/-- The ceiling of an island changes to what its limits ask for (R59). -/
def Dev.retune (s : Dev) (t : Fin 7) : Dev :=
  let f := s.wantCeil t
  let r := ceilRail t
  let rail := vget s.pwr.rails r
  let old := vget s.pwr.ceil t
  if f ≤ old then
    let s := s.putCeil t f
    let mv := s.railRequest r (vget s.pwr.ceil)
    if rail.on && decide (mv < rail.reqMv) then (s.sendVout r mv).2 else s
  else
    let mv := s.railRequest r fun u => if u = t then f else vget s.pwr.ceil u
    if !rail.on || decide (mv ≤ rail.reqMv) || !modeLinear rail.mode then
      let s := s.putCeil t f
      if rail.on && decide (rail.reqMv < mv) then (s.sendVout r mv).2 else s
    else
      let (sent, s) := s.sendVout r mv
      if sent then s.modPwr fun p => { p with raises := vset p.raises t (some ⟨f, mv⟩) }
      else s.pmbErr 30 r.val

/-- The ceilings that the voltage request of R58 counts: a rise under way counts its new ceiling, for
which R59 has requested the voltage already. -/
def Dev.ceilAsked (s : Dev) (u : Fin 7) : Nat :=
  match vget s.pwr.raises u with
  | some x => x.ceil
  | none => vget s.pwr.ceil u

/-- The voltage of a rail that is on is requested anew where what R58 requests has changed without a
ceiling changing: a V/F table was written, or a gallery of the pair was gated. A rise under way is
confirmed against the new request. With no ungated gallery nothing is requested. -/
def Dev.rerequest (s : Dev) (r : Fin 9) : Dev :=
  let rail := vget s.pwr.rails r
  if !rail.on || (s.railUsers r).isEmpty then s
  else
    let s := s.vfCheck r
    let mv := s.railRequest r s.ceilAsked
    if mv = rail.reqMv then s
    else
      let (sent, s) := s.sendVout r mv
      if !sent then s
      else (s.railUsers r).foldl (fun s u => s.modPwr fun p =>
        { p with raises := vmod p.raises u fun x => x.map fun x => { x with mv := mv } }) s

/-- Write of an entry of VF_GAL on I/O die `d`: the pairs' rails request what the table of die 0,
whose sequencer switches the rails, now gives (R58). -/
def vfGalWrite (d : Fin 2) (j v : Nat) (s : Dev) : Dev :=
  let s := s.plainWrite R.VF_GAL v d.val j
  if d = 0 then ((s.rerequest 0).rerequest 1).rerequest 2 else s

/-- Write of an entry of VF_HOST on I/O die `d` (R58). -/
def vfHostWrite (d : Fin 2) (j v : Nat) (s : Dev) : Dev :=
  let s := s.plainWrite R.VF_HOST v d.val j
  if d = 0 then s.rerequest 3 else s

/-- CEILING_RISE_CONFIRM (R59): READ_VOUT after VSETTLE; `none` is an abandoned request. -/
def ceilingRiseConfirm (t : Fin 7) (reading : Option Nat) (s : Dev) : Dev :=
  match vget s.pwr.raises t with
  | none => s
  | some x =>
    let r := ceilRail t
    let m := (vget s.pwr.rails r).mode
    let fail := fun (s : Dev) =>
      let s := (s.modPwr fun p => { p with raises := vset p.raises t none }).pmbErr 30 r.val
      let mv := s.railRequest r (vget s.pwr.ceil)
      if mv < (vget s.pwr.rails r).reqMv then (s.sendVout r mv).2 else s
    match reading with
    | none => fail (s.pmbAbandon r.val)
    | some v => if readAtLeast v m (x.mv - 15) then s.putCeil t x.ceil else fail s

/-! ### Clock controllers (R24, R47) -/

/-- Range of an adaptive island (R24); `none` for a fixed one. -/
def islRange (i : Nat) : Option (Nat × Nat) :=
  if i < 6 then some (150, 600) else if i = 6 then some (200, 1400) else none

/-- A stack controller exists for a fitted stack only. -/
def Dev.islExists (s : Dev) (i : Nat) : Bool := decide (i < 9 + s.asm.stacks)

/-- Write of ICC_CTL of a compute-die island (R47). -/
def iccCtlWrite (i : Fin 13) (v : Nat) (s : Dev) : Dev :=
  match islRange i.val with
  | none => s
  | some (lo, hi) =>
    let fmax := bits v 27 16
    let fmin := bits v 11 0
    if lo ≤ fmin ∧ fmin ≤ fmax ∧ fmax ≤ hi then
      let s := (s.plainWrite R.ICC_CTL v 0 i.val).setB R.ICC_STAT 29 false 0 i.val
      if h : i.val < 7 then s.retune ⟨i.val, h⟩ else s
    else s.setB R.ICC_STAT 31 true 0 i.val

/-- Change of a compute-die island. -/
def Dev.modIsl (s : Dev) (i : Fin 13) (f : Isl → Isl) : Dev := { s with isl := vmod s.isl i f }

/-- Change of an I/O-die island. -/
def Dev.modIoIsl (s : Dev) (d : Fin 2) (i : Fin 7) (f : Isl → Isl) : Dev :=
  { s with ioIsl := vmod s.ioIsl d fun v => vmod v i f }

/-- CLOCK_SETTLED: the new limits are in force once a voltage exchange has ended (R47, R59). -/
def clockSettled (i : Fin 13) (s : Dev) : Dev :=
  let waits := if h : i.val < 7 then (vget s.pwr.raises ⟨i.val, h⟩).isSome else false
  if waits || (vget s.isl i).unlocked then s
  else (s.modIsl i fun x => { x with limits := s.rg R.ICC_CTL 0 i.val }).setB R.ICC_STAT 29 true 0 i.val

/-- CLOCK_WINDOW_END: cycles of the window, saturated to the field (R47). -/
def clockWindowEnd (i : Fin 13) (n : Nat) (s : Dev) : Dev :=
  s.setF R.ICC_STAT 15 0 (min n 0xFFFF) 0 i.val

/-- CLOCK_WINDOW_END of an I/O-die island. -/
def ioClockWindowEnd (d : Fin 2) (i : Fin 7) (n : Nat) (s : Dev) : Dev :=
  s.setF R.IO_ICC_STAT 15 0 (min n 0xFFFF) d.val i.val

/-- SUPPLY_DROOP: an adaptive island falls below FMIN; in fixed mode it leaves lock (R47). -/
def supplyDroop (i : Fin 13) (s : Dev) : Dev :=
  if (islRange i.val).isNone then s
  else
    let s := (s.setB R.ICC_STAT 30 true 0 i.val).count R.ICC_DROOPS 1 0 i.val
    if s.bt R.ICC_CTL 31 0 i.val then s
    else (s.modIsl i fun x => { x with unlocked := true }).setB R.ICC_STAT 29 false 0 i.val

/-- ISLAND_RELOCK: the supply has recovered (R47). -/
def islandRelock (i : Fin 13) (s : Dev) : Dev :=
  if (vget s.isl i).unlocked then
    let s := s.modIsl i fun x => { x with unlocked := false }
    let waits := if h : i.val < 7 then (vget s.pwr.raises ⟨i.val, h⟩).isSome else false
    if waits then s else s.setB R.ICC_STAT 29 true 0 i.val
  else s

end Sys2Proof.Machine
end

