-- ==== Sys2Proof/Machine/Energy.lean ====
section
/-!
DEFINITION. The ledger's budget, the charges of works, and the tenants and caps of galleries (R65 to
R71).
-/

namespace Sys2Proof.Machine

/-- ENF. -/
def Dev.enf (s : Dev) : Bool := s.bt R.LDG_CTL 31 0

/-- The ledger's enforcement acts: ENF is 1 and the compute die is on (R60). -/
def Dev.enforce (s : Dev) : Bool := s.enf && s.cdieOn

/-- BUD_REM. -/
def Dev.budRem (s : Dev) : Int := toS 64 (s.rg R.BUD_REM)

/-- EXH follows ENF, BUD_REM and EXH_THRESH; its rise is an event (R69). -/
def Dev.exhUpdate (s : Dev) : Dev :=
  let x := s.enf && decide (s.budRem < toS 64 (s.rg R.EXH_THRESH))
  let was := s.bt R.LDG_STAT 30 0
  let s := s.setB R.LDG_STAT 30 x 0
  if x && !was then (s.orR R.LDG_IRQ 8 0).ldgEvent 3 0 else s

/-- BUD_REM takes a value, saturated (R68). -/
def Dev.setBud (s : Dev) (x : Int) : Dev := (s.wr R.BUD_REM (ofS 64 (clampS 64 x))).exhUpdate

/-- The energy term of R67 for a reservation of `mj` and a class. -/
def Dev.energyOk (s : Dev) (cls mj : Nat) : Bool :=
  !s.enforce
    || (decide (toS 64 (s.rg R.EXH_THRESH) ≤ s.budRem - 1000 * (mj : Int))
      && (!s.bt R.LDG_STAT 29 0 || cls == 1))

/-- Change of the admitted works. -/
def Dev.modWorks (s : Dev) (f : Work → Work) : Dev :=
  s.modHub fun h => { h with works := h.works.map f }

/-- Charge a work's reservation (R66, R67): nothing while the ledger does not enforce. -/
def Dev.charge (s : Dev) (id : Nat) : Dev :=
  match s.hub.works.find? (·.id == id) with
  | none => s
  | some w =>
    let e := if s.enforce then 1000 * w.energy else 0
    let s := s.modWorks fun x => if x.id = id then { x with charge := e, used := 0 } else x
    s.setBud (s.budRem - e)

/-- Refund a work that ends: charge less energy used, in whole µJ (R68). -/
def Dev.refund (s : Dev) (w : Work) : Dev :=
  s.setBud (s.budRem + max 0 ((1000 * (w.charge : Int) - w.used) / 1000))

/-- FEFF of a gallery takes a value (R70). -/
def Dev.setFeff (s : Dev) (g : Fin 6) (f : Nat) : Dev :=
  if s.fld R.GSTAT 27 16 0 g.val = f then s
  else (s.setF R.GSTAT 27 16 f 0 g.val).retune ⟨g.val, by omega⟩

/-- Tenant and class of a gallery (R71); a reception class puts FEFF back to 600 MHz (R70). -/
def Dev.setTenant (s : Dev) (g : Fin 6) (cls tenant : Nat) : Dev :=
  let s := (s.setF R.GSTAT 5 4 cls 0 g.val).setF R.GSTAT 3 0 tenant 0 g.val
  if cls = 1 then s.setFeff g 600 else s

/-- Write of GCAP (R70). -/
def gcapWrite (g : Fin 6) (v : Nat) (s : Dev) : Dev :=
  let s := s.plainWrite R.GCAP v 0 g.val
  if s.rg R.GCAP 0 g.val = 0 then s.setFeff g 600 else s

/-- Write of LDG_CTL (R65, R69). -/
def ldgCtlWrite (v : Nat) (s : Dev) : Dev :=
  let s := (s.plainWrite R.LDG_CTL v).exhUpdate
  if bit v 30 = 1 then s.modLdg fun l => { l with recalc := true } else s

/-- Write of EXH_THRESH. -/
def exhThreshWrite (v : Nat) (s : Dev) : Dev := (s.plainWrite R.EXH_THRESH v).exhUpdate

/-- BAT_Q_WRITE (R64): held between 0 and BAT_CAP from the next tick on. -/
def batQWrite (v : Nat) (s : Dev) : Dev :=
  ((s.wr R.BAT_Q v).setB R.LDG_STAT 31 true 0).modLdg fun l => { l with qRem := 0, qWrote := true }

/-- Write of HOUR_MS: realigns the count (R65). -/
def hourMsWrite (v : Nat) (s : Dev) : Dev := s.plainWrite R.HOUR_MS v

end Sys2Proof.Machine
end

