-- ==== Sys2Proof/Machine/GalPower.lean ====
section
/-!
DEFINITION. Reset, gating and release of a gallery (R52, R78, R94).
-/

namespace Sys2Proof.Machine

/-- The gallery enters a phase of its power gating; its island follows. -/
def Dev.setPhase (s : Dev) (g : Fin 6) (p : GPhase) : Dev :=
  let s := s.modPwr fun x => { x with gal := vset x.gal g p }
  s.modIsl (galIsl g) fun x => { x with
    on := p != .gated
    held := p == .reset || p == .zeroing
    unlocked := x.unlocked && p != .gated }

/-- Drop what the access ports keep for an initiator. -/
def BusSt.drop (b : BusSt) (ini : Nat) : BusSt where
  rdHold := SMap.erase b.rdHold ini
  wrHold := SMap.erase b.wrHold ini
  snap := SMap.clear b.snap (ini * 2 ^ 40) ((ini + 1) * 2 ^ 40)
  resp := b.resp
  outw := SMap.erase b.outw ini

/-- Reset the access ports of an initiator whose island is reset. -/
def Dev.busReset (s : Dev) (ini : Nat) : Dev := { s with bus := s.bus.drop ini }

/-- State of gallery `g` that a gallery reset clears: everything but the store and the fault block,
whose watchdog takes its reset values (R78, R514, R520). -/
def Dev.clearGal (s : Dev) (g : Fin 6) : Dev :=
  let b := galBase g
  let s := s.unwait g
  let s := (s.modGal g fun _ => GalSt.init).modCore (curator g) fun _ => CoreSt.init
  let s := (s.rstRange b (b + 0x80000)).rstRange (b + 0x80100) (b + 0x100000)
  (s.busReset (coreIni (curator g))).busReset (streamIni g)

/-- Reset gallery `g`, which stays ungated (R78): a zeroing in progress is abandoned. -/
def Dev.galReset (s : Dev) (g : Fin 6) : Dev :=
  if vget s.pwr.gal g == .gated then s
  else ((s.carLost g false).clearGal g).setPhase g .reset

/-- Gate gallery `g`: its store and its fault block are lost (R52, R520). -/
def Dev.galGate (s : Dev) (g : Fin 6) : Dev :=
  if vget s.pwr.gal g == .gated then s
  else
    let b := galBase g
    let s := (s.carLost g true).clearGal g
    let s := s.rstRange b (b + 0x100000)
    let s := s.zeroMem (galStore g) (galStore g + 0x1000000)
    let s := s.modPwr fun p => { p with zeroed := vset p.zeroed g false }
    let s := (s.setPhase g .gated).setB R.CRST_REL (4 + g.val) false
    let t : Fin 7 := ⟨g.val, by omega⟩
    (s.putCeil t (s.wantCeil t)).rerequest (ceilRail t)

/-- The curator starts at GREL_PC in supervisor and curated mode (R94). -/
def Dev.curatorStart (s : Dev) (g : Fin 6) : Dev :=
  (s.setPhase g .run).modCore (curator g) fun _ =>
    { CoreSt.init with run := .running, pc := BitVec.ofNat 32 (s.rg R.GREL_PC 0 g.val / 4 * 4) }

/-- Gallery `g` is released where its bit is 1 and its gating is complete (R94). -/
def Dev.galRelease (s : Dev) (g : Fin 6) : Dev :=
  if vget s.pwr.gal g == .reset && s.bt R.CRST_REL (4 + g.val) then
    if vget s.pwr.zeroed g then s.curatorStart g else s.setPhase g .zeroing
  else s

/-- Gallery `g` is ungated onto a rail that is on, or off with the compute die's rise to come: held
in reset, starting at the highest V/F frequency its rail's voltage supports (R52). -/
def Dev.galUngate (s : Dev) (g : Fin 6) : Dev :=
  if vget s.pwr.gal g != .gated then s
  else
    let t : Fin 7 := ⟨g.val, by omega⟩
    let req := (vget s.pwr.rails (ceilRail t)).reqMv
    let fs := (List.range 8).filterMap fun j =>
      let e := s.vfEntry false j
      if e.2 ≤ req then some e.1 else none
    let f := min (s.wantCeil t) (fs.foldl max 0)
    (((s.setPhase g .reset).putCeil t f).retune t).galRelease g

/-- STORE_ZEROING_DONE (R94). -/
def storeZeroingDone (g : Fin 6) (s : Dev) : Dev :=
  if vget s.pwr.gal g == .zeroing then
    let s := s.zeroMem (galStore g) (galStore g + 0x1000000)
    (s.modPwr fun p => { p with zeroed := vset p.zeroed g true }).curatorStart g
  else s

/-- Clear CRST_REL.GAL of a gallery and reset it, store kept (R78, R315, R516). -/
def Dev.galHold (s : Dev) (g : Fin 6) : Dev := (s.setB R.CRST_REL (4 + g.val) false).galReset g

/-- Write of the GAL field of CRST_REL (R92, R94). -/
def Dev.relGal (s : Dev) (v : Nat) : Dev :=
  (List.finRange 6).foldl (fun s g =>
    let s := s.setB R.CRST_REL (4 + g.val) (bit v (4 + g.val) == 1)
    if bit v (4 + g.val) = 1 then s.galRelease g
    else if vget s.pwr.gal g == .run || vget s.pwr.gal g == .zeroing then s.galReset g else s) s

end Sys2Proof.Machine
end

