-- ==== Sys2Proof/Machine/Admission.lean ====
section
/-!
DEFINITION. The admission controller: manifests, placement, grants, release and shedding (R262 to
R268, R308 to R315).
-/

namespace Sys2Proof.Machine

/-! ### Manifests (R265, R309, R310) -/

/-- A buffer record. -/
structure BufRec where
  size : Nat
  addr : Nat
  hint : Nat
  key : Nat
  zero : Nat

/-- A ring record. -/
structure RingRec where
  rate : Nat
  burst : Nat
  log2n : Nat
  flags : Nat
  sdepth : Nat
  ntgt : Nat
  zero : Nat

/-- A manifest as read at the address `addr`. -/
structure Manifest where
  addr : Nat
  nbuf : Nat
  nring : Nat
  cls : Nat
  tenant : Nat
  ngal : Nat
  greq : Nat
  radio : Nat
  flags : Nat
  gs : Nat
  atr : Nat
  stk : Nat
  ncells : Nat
  energy : Nat
  tag : Nat
  headOk : Bool
  bufs : List BufRec
  rings : List RingRec

def BufRec.tier (b : BufRec) : Nat := bits b.hint 1 0
def BufRec.movable (b : BufRec) : Bool := bit b.hint 2 == 1
def BufRec.once (b : BufRec) : Bool := bit b.hint 3 == 1
def BufRec.share (b : BufRec) : Bool := bit b.hint 4 == 1
def BufRec.write (b : BufRec) : Bool := bit b.hint 5 == 1
def BufRec.gidx (b : BufRec) : Nat := bits b.hint 10 8
/-- Size rounded up to 4 KiB (R266). -/
def BufRec.rounded (b : BufRec) : Nat := (b.size + 4095) / 4096 * 4096

def RingRec.stack (r : RingRec) : Bool := bit r.flags 3 == 1
/-- Bytes of the ring array, rounded up to 4 KiB. -/
def RingRec.rounded (r : RingRec) : Nat := (64 * 2 ^ r.log2n + 4095) / 4096 * 4096

/-- Read the manifest at `a`. -/
def Dev.manifest (s : Dev) (a : Nat) : Manifest :=
  let nb := s.rdN (a + 6) 1
  let nr := s.rdN (a + 7) 1
  let f := fun o n => s.rdN (a + o) n
  { addr := a, nbuf := nb, nring := nr, cls := f 8 1, tenant := f 9 1, ngal := f 0xA 1
    greq := f 0xB 1, radio := f 0xC 1, flags := f 0xD 1, gs := f 0x10 8, atr := f 0x18 8
    stk := f 0x20 8, ncells := f 0x28 4, energy := f 0x2C 4, tag := f 0x30 8
    headOk := f 0 4 == 0x1B6A3A4D && f 4 2 == 1 && f 0xE 2 == 0 && f 0x38 8 == 0 && f 0x40 4 == 0
      && f 0x46 2 == 0 && f 0x4C 52 == 0
    bufs := (List.range (min nb 16)).map fun i =>
      let p := 0x80 + 32 * i
      ⟨f p 8, f (p + 8) 8, f (p + 0x10) 4, f (p + 0x14) 4, f (p + 0x18) 8⟩
    rings := (List.range (min nr 16)).map fun i =>
      let p := 0x80 + 32 * nb + 16 * i
      ⟨f p 2, f (p + 2) 2, f (p + 4) 1, f (p + 5) 1, f (p + 6) 2, f (p + 8) 1,
        f (p + 9) 1 + f (p + 0xC) 4⟩ }

/-- Bytes of a manifest with its records. -/
def Manifest.bytes (m : Manifest) : Nat := 0x80 + 32 * m.nbuf + 16 * m.nring

/-- A buffer record meets R265. -/
def BufRec.ok (b : BufRec) (ngal : Nat) : Bool :=
  decide (64 ≤ b.size) && decide (b.size ≤ 2 ^ 40 - 64) && b.size % 64 == 0
    && bits b.hint 7 6 == 0 && bits b.hint 31 11 == 0 && b.zero == 0
    && (if b.tier = 0 then decide (b.gidx < ngal) || b.gidx == 7 else b.gidx == 0)
    && (b.tier != 3 || (b.addr % 64 == 0 && !b.movable && !b.share && !b.write))

/-- A ring record meets R310. -/
def RingRec.ok (r : RingRec) : Bool :=
  (r.rate == 0 || decide (1 ≤ r.burst)) && decide (4 ≤ r.log2n) && decide (r.log2n ≤ 16)
    && bits r.flags 7 4 == 0 && decide (r.sdepth < 2 ^ r.log2n) && (decide (r.ntgt ≤ 6) || r.ntgt == 8)
    && r.zero == 0

/-- The LAYOUT term (R309, R310, R312, R512). -/
def Dev.layoutOk (s : Dev) (m : Manifest) : Bool :=
  m.headOk && decide (m.nbuf ≤ 16) && decide (m.nring ≤ 16)
    && decide (1 ≤ m.cls) && decide (m.cls ≤ 3) && decide (m.tenant ≤ 15) && decide (m.ngal ≤ 6)
    && bits m.greq 7 6 == 0 && bits m.radio 6 1 == 0
    && (bit m.radio 7 == 0 || (m.cls == 1 && m.ngal == 1))
    && bits m.flags 7 2 == 0 && (bit m.flags 0 == 0 || decide (2 ≤ m.ngal))
    && decide (m.ncells ≤ 65280)
    && inAtrium m.addr m.bytes && !s.poisoned m.addr m.bytes
    && m.bufs.all (·.ok m.ngal) && m.rings.all RingRec.ok

/-! ### Placement (R266, R267) -/

/-- A first-fit search among used spans (start, end): the lowest 4 KiB aligned address from `lo` with
`n` free bytes below `hi`. -/
def firstFit (used : List (Nat × Nat)) (lo hi n : Nat) : Option Nat :=
  let up := fun x => (x + 4095) / 4096 * 4096
  let cands := up lo :: used.map fun u => up u.2
  let good := cands.filter fun a => decide (lo ≤ a) && decide (a + n ≤ hi)
    && used.all fun u => decide (a + n ≤ u.1) || decide (u.2 ≤ a)
  match good with
  | [] => none
  | a :: l => some (l.foldl min a)

/-- Spans of a tier in use by admitted works and by `mine`. -/
def Dev.spans (s : Dev) (mine : List Placed) (tier gal : Nat) : List (Nat × Nat) :=
  ((s.hub.works.flatMap (·.placed)) ++ mine).filterMap fun p =>
    if p.tier = tier ∧ (tier ≠ 0 ∨ p.gal = gal) then some (p.addr, p.addr + p.size) else none

/-- Pool of a tier: first address and end. -/
def Dev.pool (s : Dev) (tier gal : Nat) : Nat × Nat :=
  if tier = 0 then (galStore gal + s.rg R.ADM_GSRSV, galStore gal + 0x1000000)
  else if tier = 1 then
    (s.fld R.ADM_ATRLO 39 12 * 4096, (s.fld R.ADM_ATRHI 39 12 + 1) * 4096)
  else if s.asm.stacks = 0 then (0, 0)
  else (s.fld R.ADM_STKLO 39 12 * 4096, (s.fld R.ADM_STKHI 39 12 + 1) * 4096)

/-- A placement in progress: spans of this manifest, reserved bytes left per gallery store (by
gallery), atrium and stack, bytes shared in atrium and stack, and the reason bits. -/
structure PlaceSt where
  mine : List Placed
  gs : SMap Nat
  atr : Nat
  stk : Nat
  shAtr : Nat
  shStk : Nat
  bad : Nat

/-- Reserved bytes of a tier that are still unplaced. -/
def PlaceSt.room (p : PlaceSt) (tier gal : Nat) : Nat :=
  if tier = 0 then SMap.get 0 p.gs gal else if tier = 1 then p.atr else p.stk

/-- Use up reserved bytes of a tier. -/
def PlaceSt.use (p : PlaceSt) (tier gal n : Nat) : PlaceSt :=
  if tier = 0 then { p with gs := SMap.set 0 p.gs gal (SMap.get 0 p.gs gal - n) }
  else if tier = 1 then { p with atr := p.atr - n } else { p with stk := p.stk - n }

/-- An admitted buffer that a record shares in a tier (R267); gallery stores are not shared. -/
def Dev.shareOf (s : Dev) (b : BufRec) (tier : Nat) : Option Placed :=
  if !b.share || tier = 0 then none
  else (s.hub.works.flatMap (·.placed)).find? fun p =>
    p.tier == tier && p.share == some b.key && p.decl == b.size

/-- Next tier down of a buffer (R266). -/
def BufRec.next (b : BufRec) (tier : Nat) : Option Nat :=
  if !b.movable then none
  else if tier = 0 then some (if b.once then 2 else 1)
  else if tier = 1 then some 2 else none

/-- Reason bit of a tier. -/
def tierReason (tier : Nat) : Nat := 4 + tier

/-- Place one copy of a buffer, from `tier` down. `fuel` bounds the fall. -/
def Dev.placeAt (s : Dev) (b : BufRec) (gal : Nat) : Nat → Nat → PlaceSt → PlaceSt
  | 0, _, p => p
  | fuel + 1, tier, p =>
    match s.shareOf b tier with
    | some x =>
      let p := { p with mine := p.mine ++ [{ x with write := b.write }] }
      if tier = 1 then { p with shAtr := p.shAtr + x.size } else { p with shStk := p.shStk + x.size }
    | none =>
      let (lo, hi) := s.pool tier gal
      let fit := if b.rounded ≤ p.room tier gal
        then firstFit (s.spans p.mine tier gal) lo hi b.rounded else none
      match fit with
      | some a =>
        { (p.use tier gal b.rounded) with
          mine := p.mine ++ [⟨tier, gal, a, b.rounded, b.size,
            if b.share then some b.key else none, b.write⟩] }
      | none =>
        match b.next tier with
        | some t => s.placeAt b gal fuel t p
        | none => { p with bad := p.bad ||| 2 ^ tierReason tier }

/-- The range of a TIER 3 record lies in the window of a configured port (R266). -/
def Dev.flashOk (s : Dev) (b : BufRec) : Bool :=
  match regionOf b.addr with
  | some (.flash q) =>
    s.mapped b.addr && decide (b.addr + b.size ≤ flashBase q.val + s.flashCap q)
  | _ => false

/-- Place a buffer record on the chosen galleries; `none` where GALLERY failed. -/
def Dev.placeBuf (s : Dev) (gals : Option (List (Fin 6))) (p : PlaceSt) (b : BufRec) : PlaceSt :=
  if b.tier = 3 then
    if s.flashOk b then
      { p with mine := p.mine ++ [⟨3, 0, b.addr, b.rounded, b.size, none, false⟩] }
    else { p with bad := p.bad ||| 2 ^ 7 }
  else if b.tier = 0 then
    match gals with
    | none => p
    | some gs =>
      if b.gidx = 7 then gs.foldl (fun p g => s.placeAt b g.val 3 0 p) p
      else match gs[b.gidx]? with
        | some g => s.placeAt b g.val 3 0 p
        | none => p
  else s.placeAt b 0 3 b.tier p

/-- Place a ring array in its tier, without falling (R310); an array in a stack lies in one stack
(R289). -/
def Dev.placeRing (s : Dev) (p : PlaceSt) (r : RingRec) : PlaceSt :=
  let tier := if r.stack then 2 else 1
  let n := r.rounded
  let (lo, hi) := s.pool tier 0
  let used := s.spans p.mine tier 0
  let fit := if p.room tier 0 < n then none
    else if tier = 1 then firstFit used lo hi n
    else (List.range 4).findSome? fun k =>
      let base := 0x800000000 + k * 0x200000000
      firstFit used (max lo base) (min hi (base + 0x200000000)) n
  match fit with
  | some a => { (p.use tier 0 n) with mine := p.mine ++ [⟨tier, 0, a, n, n, none, false⟩] }
  | none => { p with bad := p.bad ||| 2 ^ tierReason tier }

/-- The whole placement of a manifest. -/
def Dev.place (s : Dev) (m : Manifest) (gals : Option (List (Fin 6))) : PlaceSt :=
  let p : PlaceSt := ⟨[], (gals.getD []).foldl (fun q g => SMap.set 0 q g.val m.gs) [], m.atr, m.stk,
    0, 0, 0⟩
  let p := m.bufs.foldl (s.placeBuf gals) p
  m.rings.foldl s.placeRing p

/-! ### Terms (R312) -/

/-- Galleries that a manifest may take, rising. -/
def Dev.eligible (s : Dev) (m : Manifest) : List (Fin 6) :=
  (List.finRange 6).filter fun g =>
    (m.greq == 0 || bit m.greq g.val == 1) && s.galUp g && (s.workOf g).isNone

/-- The chosen galleries: the lowest-numbered eligible ones. -/
def Dev.chosen (s : Dev) (m : Manifest) : Option (List (Fin 6)) :=
  let e := s.eligible m
  if m.ngal ≤ e.length then some (e.take m.ngal) else none

/-- Rings from 64 upward that are disabled and unowned. -/
def Dev.freeRings (s : Dev) : List Nat :=
  ((List.range 960).map (· + 64)).filter fun r => !s.ringEn r && s.fld R.RING_CFG 15 8 0 r == 0

/-- The lowest run of `n` unowned cells from cell 256 upward. -/
def Dev.freeCells (s : Dev) (n : Nat) : Option Nat :=
  let used := (s.hub.works.filter fun w => w.nCells != 0).map fun w => (w.cellBase, w.cellBase + w.nCells)
  let cands := 256 :: used.map (·.2)
  let good := cands.filter fun a => decide (a + n ≤ 65536)
    && used.all fun u => decide (a + n ≤ u.1) || decide (u.2 ≤ a)
  match good with
  | [] => none
  | a :: l => some (l.foldl min a)

/-- Every gallery on the path between successive chosen galleries is powered (R280). -/
def Dev.pathOk (s : Dev) (gs : List (Fin 6)) : Bool :=
  gs.all fun g => s.galOn g && (forwarders g (succOf gs g)).all s.galOn

/-- Reserved bytes of admitted works in the atrium or the stacks. -/
def Dev.reserved (s : Dev) (f : Work → Nat) : Nat := (s.hub.works.map f).foldl (· + ·) 0

/-- Size of a pool. -/
def Dev.poolSize (s : Dev) (tier : Nat) : Nat := (s.pool tier 0).2 - (s.pool tier 0).1

/-- The stack term beside placement (R4, R267). -/
def Dev.stackOk (s : Dev) (m : Manifest) (shared : Nat) : Bool :=
  decide (m.stk ≤ s.asm.stacks * 0x200000000)
    && decide (m.stk - shared + s.reserved (·.bytesStk) ≤ s.poolSize 2)

/-- Sum of the rates of every enabled ring. -/
def Dev.rateSum (s : Dev) : Nat :=
  (s.enabledRings.map fun r => s.fld R.RING_RATE 31 16 0 r).foldl (· + ·) 0

/-- The reason bits of a manifest, by R312; 0 is a grant. -/
def Dev.reasons (s : Dev) (m : Manifest) : Nat :=
  if !s.layoutOk m then 1
  else
    let gals := s.chosen m
    let p := s.place m gals
    let f := fun (b : Nat) (ok : Bool) => if ok then 0 else 2 ^ b
    let die := bit m.radio 0
    let radioBad := bit m.radio 7 == 1 && (!s.fitted die || s.bt R.RF_STAT 15 die)
    let carBad := match gals with
      | some gs => bit m.flags 0 == 1 && (s.hub.works.any (·.carousel) || !s.pathOk gs)
      | none => false
    let gsBad := gals.isSome && decide (0x1000000 - s.rg R.ADM_GSRSV < m.gs)
    f 1 gals.isSome + f 2 (!radioBad) + f 3 (!carBad)
      + f 4 (!gsBad && bit p.bad 4 == 0)
      + f 5 (decide (m.atr - p.shAtr + s.reserved (·.bytesAtr) ≤ s.poolSize 1) && bit p.bad 5 == 0)
      + f 6 (s.stackOk m p.shStk && bit p.bad 6 == 0) + f 7 (bit p.bad 7 == 0)
      + f 8 (decide (m.nring ≤ s.freeRings.length)) + f 9 (s.freeCells m.ncells).isSome
      + f 10 (decide (s.rateSum + (m.rings.map (·.rate)).foldl (· + ·) 0 ≤ s.rg R.ADM_RATECAP))
      + f 11 (s.energyOk m.cls m.energy) + f 12 (decide (s.hub.works.length < 64))

/-! ### Grant (R313) -/

/-- The lowest free work ID (R308). -/
def Dev.freeId (s : Dev) : Nat :=
  (((List.range 64).map (· + 1)).find? fun i => s.hub.works.all (·.id != i)).getD 0

/-- Set a run of cells to 0, as a set does (R301, R313). -/
def Dev.zeroCells (s : Dev) (base n : Nat) : Dev :=
  let inr := fun c => decide (base ≤ c) && decide (c < base + n)
  let s := s.modHub fun h => { h with
    cells := SMap.clear h.cells base (base + n)
    cellPoison := h.cellPoison.filter fun c => !inr c
    ecc := SMap.clear h.ecc base (base + n) }
  ((s.hub.waits.map (·.cell)).filter inr).foldl Dev.testWaits s

/-- Write a grant region of a gallery (R268). -/
def Dev.grantRegion (s : Dev) (k : Nat) (p : Placed) (g : Nat) : Dev :=
  (s.wr R.GR_BASE (2 ^ 63 + p.addr) g k).wr R.GR_LIM (b2n p.write * 2 ^ 63 + p.size) g k

/-- How many placed spans a buffer record has: one per chosen gallery for GIDX 7. -/
def BufRec.copies (b : BufRec) (ngal : Nat) : Nat := if b.tier = 0 ∧ b.gidx = 7 then ngal else 1

/-- Write the addresses and regions of the buffer records from number `k` on; the spans come in
record order. -/
def grantBufs (m : Manifest) (gs : List (Fin 6)) : Nat → List BufRec → List Placed → Dev → Dev
  | _, [], _, s => s
  | k, b :: bs, ps, s =>
    let n := b.copies gs.length
    let mine := ps.take n
    let s := match mine with
      | [] => s
      | x :: _ =>
        let s := if b.tier = 3 then s else s.wrN (m.addr + 0x80 + 32 * k + 8) 8 x.addr
        (List.range gs.length).foldl (fun s i =>
          match gs[i]?, (if n = 1 then some x else mine[i]?) with
          | some g, some p => s.grantRegion k p g.val
          | _, _ => s) s
    grantBufs m gs (k + 1) bs (ps.drop n) s

/-- Configure and enable the rings of the ring records from number `k` on (R313). -/
def grantRings (m : Manifest) (id : Nat) : Nat → List RingRec → List Placed → List Nat → Dev → Dev
  | k, r :: rs, p :: ps, n :: ns, s =>
    let s := s.wrN (m.addr + 0x80 + 32 * m.nbuf + 16 * k + 0xA) 2 n
    let s := (s.wr R.RING_BASE p.addr 0 n).wr R.RING_RATE (r.rate * 2 ^ 16 + r.burst) 0 n
    let s := s.wr R.RING_SDEPTH r.sdepth 0 n
    let cfg := 2 ^ 31 + m.cls * 2 ^ 28 + bit r.flags 0 * 2 ^ 27 + bit r.flags 1 * 2 ^ 26
      + bit r.flags 2 * 2 ^ 25 + r.ntgt * 2 ^ 16 + id * 2 ^ 8 + r.log2n
    grantRings m id (k + 1) rs ps ns ((s.wr R.RING_CFG cfg 0 n).ringStart n)
  | _, _, _, _, s => s

/-- Write RESULT and post to ring 48 (R313). -/
def Dev.admResult (s : Dev) (m : Manifest) (result id : Nat) : Dev :=
  let s := s.wrN (m.addr + 0x40) 4 result
  (s.hubPost 48 (entry64 [(0x10, 8, m.addr), (0x18, 4, result), (0x1C, 1, id), (0x20, 8, m.tag)])).serve

/-- Grant a manifest on the chosen galleries with its placement. -/
def Dev.grant (s : Dev) (m : Manifest) (gs : List (Fin 6)) (p : PlaceSt) : Dev :=
  let id := s.freeId
  let nb := (m.bufs.map (·.copies gs.length)).foldl (· + ·) 0
  let rings := s.freeRings.take m.nring
  let base := (s.freeCells m.ncells).getD 0
  let w : Work :=
    { id := id, cls := m.cls, tenant := m.tenant, gals := gs.map (·.val)
      radio := if bit m.radio 7 = 1 then some (bit m.radio 0) else none
      carousel := bit m.flags 0 == 1, remote := bit m.flags 1 == 1, cellBase := base
      nCells := m.ncells, nBuf := m.nbuf, placed := p.mine, rings := rings, bytesGs := m.gs
      bytesAtr := m.atr - p.shAtr, bytesStk := m.stk - p.shStk, energy := m.energy, charge := 0
      used := 0, tag := m.tag, manifest := m.addr }
  let s := (s.modHub fun h => { h with works := h.works ++ [w] }).charge id
  let s := gs.foldl (fun s g => (s.setTenant g m.cls m.tenant).wr R.GAL_WORK id 0 g.val) s
  let s := match w.radio, gs with
    | some d, g :: _ => s.radioBind (toDie d) g
    | _, _ => s
  let s := grantBufs m gs 0 m.bufs (p.mine.take nb) s
  let mask := (gs.map fun g => 2 ^ g.val).foldl (· + ·) 0
  let s := ((s.wrN (m.addr + 0x44) 1 id).wrN (m.addr + 0x45) 1 mask).wrN (m.addr + 0x48) 4 base
  let s := s.zeroCells base m.ncells
  let s := grantRings m id 0 m.rings (p.mine.drop nb) rings s
  (s.count R.ADM_GRANTS).admResult m 0xC0000000 id

/-- Take a request: grant or refuse it (R312, R313). -/
def Dev.admTake (s : Dev) (a : Nat) : Dev :=
  let s := s.meet 5 a (min (s.manifest a).bytes (0x43000000 - a))
  let m := s.manifest a
  let r := s.reasons m
  match r, s.chosen m with
  | 0, some gs => s.grant m gs (s.place m (some gs))
  | _, _ => (s.count R.ADM_REFUSALS).admResult m (2 ^ 31 + r) 0

/-! ### Commands (R311, R314, R315) -/

/-- Write of ADM_REQ (R311). -/
def admReqWrite (a : Nat) (s : Dev) : Dev :=
  let a := a % 2 ^ 40
  if 8 ≤ s.hub.admq.length || a % 64 != 0 || !inAtrium a 128 then
    (s.setB R.ADM_STAT 30 true).count R.ADM_DROPS
  else s.modHub fun h => { h with admq := h.admq ++ [a] }

/-- Service rank of a queued manifest: its class, anything else after batch. -/
def Dev.admRank (s : Dev) (a : Nat) : Nat :=
  let c := s.rdN (a + 8) 1
  if 1 ≤ c ∧ c ≤ 3 then c else 4

/-- ADMISSION_EVALUATE (R311, R312). -/
def admissionEvaluate (s : Dev) : Dev :=
  let pick := [1, 2, 3, 4].findSome? fun c => s.hub.admq.find? fun a => s.admRank a == c
  match pick with
  | none => s
  | some a => (s.modHub fun h => { h with admq := h.admq.erase a }).admTake a

/-- Stop the carousel of a work (R284, R314). -/
def Dev.stopCarousel (s : Dev) (w : Work) : Dev :=
  if w.carousel then
    (w.gals.filterMap toGal).foldl (fun s g => s.carStop g) s
  else s

/-- Release a work (R314); `shed` gives its queued entries SHED completions (R315). -/
def Dev.release (s : Dev) (w : Work) (shed : Bool) : Dev :=
  let gs := w.gals.filterMap toGal
  let s := w.rings.foldl (fun s r => s.setB R.RING_CFG 31 false 0 r) s
  let s := w.rings.foldl (fun s r => (s.ringDisable r shed).setF R.RING_CFG 15 8 0 0 r) s
  let inr := fun c => decide (w.cellBase ≤ c) && decide (c < w.cellBase + w.nCells)
  let ws := s.hub.waits.filter fun x => inr x.cell
  let s := s.modHub fun h => { h with waits := h.waits.filter fun x => !inr x.cell }
  let s := ws.foldl (fun s x => s.finishWait x 0xA (s.cell x.cell)) s
  let s := gs.foldl (fun s g => (List.range w.nBuf).foldl (fun s k =>
    (s.rstR R.GR_BASE g.val k).rstR R.GR_LIM g.val k) s) s
  let s := s.stopCarousel w
  let s := match w.radio with | some d => s.radioUnbind (toDie d) | none => s
  let s := gs.foldl (fun s g => (s.setTenant g 0 0).wr R.GAL_WORK 0 0 g.val) s
  let s := s.refund w
  let s := s.modHub fun h => { h with works := h.works.filter (·.id != w.id) }
  let (x, s) := s.draw
  (s.hubPost 48 (entry64 [(0x10, 8, w.manifest), (0x18, 4, x % 2 ^ 32), (0x1C, 1, w.id),
    (0x20, 8, w.tag)])).serve

/-- Write of ADM_REL (R314). -/
def admRelWrite (v : Nat) (s : Dev) : Dev :=
  match s.hub.works.find? (·.id == v % 128) with
  | none => s.setB R.ADM_STAT 29 true
  | some w => (s.release w false).count R.ADM_RELEASES

/-- Shed a work (R315). -/
def Dev.shedWork (s : Dev) (id : Nat) : Dev :=
  match s.hub.works.find? (·.id == id) with
  | none => s
  | some w =>
    let s := (w.gals.filterMap toGal).foldl (fun s g => s.galHold g) s
    match s.hub.works.find? (·.id == id) with
    | some w => (s.release w true).count R.ADM_SHEDS
    | none => s

/-- ADM_STAT. -/
def Dev.admStat (s : Dev) : Nat :=
  s.rg R.ADM_STAT + min s.hub.admq.length 8 * 2 ^ 16 + min s.hub.works.length 64

/-- A write of a pool limit: ignored outside the tier's fitted range (R2, R4). -/
def poolWrite (r : RegDef) (hi stk : Bool) (v : Nat) (s : Dev) : Dev :=
  let a := bits v 39 12 * 4096 + if hi then 4095 else 0
  let (lo, top) := if stk then (0x800000000, 0x800000000 + s.asm.stacks * 0x200000000)
    else (0x40000000, 0x43000000)
  if lo ≤ a ∧ a < top then s.wr r (if hi then a else a / 4096 * 4096) else s

end Sys2Proof.Machine
end

