-- ==== Sys2Proof/Machine/HostBase.lean ====
section
/-!
DEFINITION. Reset and start of the host cores (R78, R92, R335) and the release register of the
compute die.
-/

namespace Sys2Proof.Machine

/-- Change of the host cluster's state. -/
def Dev.modHost (s : Dev) (f : HostSt → HostSt) : Dev := { s with host := f s.host }

/-- Change of one host core. -/
def Dev.modHc (s : Dev) (c : Fin 4) (f : HostCore → HostCore) : Dev :=
  s.modHost fun h => { h with core := vmod h.core c f }

/-- The host core's watchdog: stopped, with its reset values (R514, R516). -/
def Dev.hostWdogReset (s : Dev) (c : Fin 4) : Dev :=
  s.rstRange (0x20030400 + 0x10 * c.val) (0x20030400 + 0x10 * c.val + 0x10)

/-- Bit c of a hart flag of the debug module. -/
def Dev.dmFlag (s : Dev) (k : Nat) (c : Fin 4) : Bool := bit (SMap.get 0 s.host.dm k) c.val == 1

/-- Set a hart flag of the debug module. -/
def Dev.setDmFlag (s : Dev) (k : Nat) (c : Fin 4) (b : Bool) : Dev :=
  s.modHost fun h => { h with
    dm := SMap.set 0 h.dm k (setBits (SMap.get 0 h.dm k) c.val c.val (b2n b)) }

/-- A reset of host core c alone (R335): its dirty L1 lines go to the L2, its L1 caches are
invalid. -/
def Dev.hostReset (s : Dev) (c : Fin 4) : Dev :=
  ((((s.modHc c fun _ => HostCore.init).hostWdogReset c).busReset c.val).setDmFlag 0x80 c true)

/-- A host core starts at HOST_PC in machine mode (R92); the debug module can hold it at its first
instruction (R334). -/
def Dev.hostStart (s : Dev) (c : Fin 4) : Dev :=
  if s.cdieOn && (vget s.host.core c).run == .reset && s.bt R.CRST_REL c.val then
    let pc := s.rg R.HOST_PC
    let cause := if s.dmFlag 0x82 c then 5 else 3
    let halt := s.dmFlag 0x82 c || s.dmFlag 0x83 c
    s.modHc c fun _ =>
      if halt then { HostCore.init with
        run := .halted, pc := BitVec.ofNat 64 pc
        csr := [(0x7B0, cause * 64 + 3)] ++ if pc = 0 then [] else [(0x7B1, pc)] }
      else { HostCore.init with run := .running, pc := BitVec.ofNat 64 pc }
  else s

/-- Write of the HOST field of CRST_REL (R78, R92). -/
def Dev.relHost (s : Dev) (v : Nat) : Dev :=
  (List.finRange 4).foldl (fun s c =>
    let s := s.setB R.CRST_REL c.val (bit v c.val == 1)
    if bit v c.val = 1 then s.hostStart c else s.hostReset c) s

/-- Write of CRST_REL (R92, R94). -/
def crstRelWrite (v : Nat) (s : Dev) : Dev := (s.relHost v).relGal v

end Sys2Proof.Machine
end

