-- ==== Sys2Proof/Machine/Island.lean ====
section
/-!
DEFINITION. Power and reset of the switched I/O islands (R49, R54, R78).
-/

namespace Sys2Proof.Machine

/-- Register window of a switched I/O island (R36): first offset and end. -/
def ioIslWin (i : Fin 7) : Nat × Nat :=
  if i = 2 then (0x100000, 0x200000)
  else if i = 3 then (0x200000, 0x300000)
  else if i = 4 then (0x300000, 0x400000)
  else if i = 5 then (0x400000, 0x490000)
  else if i = 6 then (0x500000, 0x510000)
  else (0, 0)

/-- Initiators of an I/O island (R46). -/
def ioIslInis (d : Fin 2) (i : Fin 7) : List Nat :=
  if i = 2 then [0x20 + d.val] else if i = 3 then [0x22 + d.val] else []

/-- Change of a die's serial island and flash ports. -/
def Dev.modSer (s : Dev) (d : Fin 2) (f : SerSt → SerSt) : Dev := { s with ser := vmod s.ser d f }

/-- TRK_STN as a reset of the trunk leaves it (R472, R488): the mode and number of the straps and of
the image. -/
def Dev.trkStnInit (s : Dev) (d : Fin 2) : Dev :=
  let m := s.fld R.STRAPS 3 2 d
  let num := if d = 1 then 0 else if m = 1 then s.fld R.STRAPS 13 4 d else (vget s.die d).stnNum
  s.wr R.TRK_STN (if m = 1 ∨ m = 2 then 2 ^ 31 + m * 2 ^ 28 + num else 0) d

/-- State of the block of a switched island. -/
def Dev.blockReset (s : Dev) (d : Fin 2) (i : Fin 7) : Dev :=
  if i = 2 then { s with rad := vset s.rad d .init }
  else if i = 3 then { s with aco := vset s.aco d .init }
  else if i = 4 then { s with trk := vset s.trk d .init }.trkStnInit d
  else if i = 5 then s.modSer d fun x => { x with csp := Vector.replicate 4 .init }
  else if i = 6 then s.modSer d fun x => { x with fl := Vector.replicate 2 .init }
  else s

/-- Reset a switched island and its registers (R78). -/
def Dev.ioIslReset (s : Dev) (d : Fin 2) (i : Fin 7) : Dev :=
  let (lo, hi) := ioIslWin i
  let s := s.rstRange (ioBase d + lo) (ioBase d + hi)
  (ioIslInis d i).foldl Dev.busReset (s.blockReset d i)

/-- Pad rails of a switched island: VDD_IO18, VDD_IO33 (R48, R532). -/
def padRails (i : Fin 7) : Bool × Bool :=
  if i = 2 then (true, true) else if i = 6 then (true, false) else if i.val < 2 then (false, false)
  else (false, true)

/-- A pad rail of an island is low, or its brownout has not been cleared (R54). -/
def Dev.padHeld (s : Dev) (d : Fin 2) (i : Fin 7) : Bool :=
  let (a, b) := padRails i
  (a && (vget s.pwr.padLow18 d || s.bt R.BOD_STAT 3 d))
    || (b && (vget s.pwr.padLow33 d || s.bt R.BOD_STAT 4 d))

/-- Every switched island of a die follows its pad rails. -/
def Dev.padUpdate (s : Dev) (d : Fin 2) : Dev :=
  (List.finRange 7).foldl (fun s i =>
    if i.val < 2 then s
    else
      let h := s.padHeld d i
      let s := if h && !(vget (vget s.ioIsl d) i).held then s.ioIslReset d i else s
      s.modIoIsl d i fun x => { x with held := h }) s

/-- A monitor acts: its bit of BOD_STAT and BOD_COUNT (R54). -/
def Dev.bod (s : Dev) (d : Fin 2) (b : Nat) : Dev := (s.orR R.BOD_STAT (2 ^ b) d).count R.BOD_COUNT 1 d

/-- BROWNOUT_PAD_RAIL (R54). -/
def brownoutPadRail (d : Fin 2) (io33 : Bool) (s : Dev) : Dev :=
  let s := s.bod d (if io33 then 4 else 3)
  (s.modPwr fun p =>
    if io33 then { p with padLow33 := vset p.padLow33 d true }
    else { p with padLow18 := vset p.padLow18 d true }).padUpdate d

/-- PAD_RAIL_RECOVERY (R54). -/
def padRailRecovery (d : Fin 2) (io33 : Bool) (s : Dev) : Dev :=
  (s.modPwr fun p =>
    if io33 then { p with padLow33 := vset p.padLow33 d false }
    else { p with padLow18 := vset p.padLow18 d false }).padUpdate d

/-- Write of BOD_STAT: a cleared pad bit can release islands (R54). -/
def bodStatWrite (d : Fin 2) (v : Nat) (s : Dev) : Dev := (s.plainWrite R.BOD_STAT v d).padUpdate d

/-- The ISL_ON field of PWR_CTL takes a value: cleared bits gate at once (R49). -/
def Dev.islOnWrite (s : Dev) (d : Fin 2) (v : Nat) : Dev :=
  let s := s.setF R.PWR_CTL 6 2 (bits v 6 2) d
  (List.finRange 7).foldl (fun s i =>
    if 2 ≤ i.val ∧ bit v i.val = 0 ∧ (vget (vget s.ioIsl d) i).on = true then
      (s.ioIslReset d i).modIoIsl d i fun x => { x with on := false }
    else s) s

/-- ISLAND_POWERED (R49). -/
def islandPowered (d : Fin 2) (i : Fin 7) (s : Dev) : Dev :=
  if 2 ≤ i.val ∧ s.bt R.PWR_CTL i.val d = true then s.modIoIsl d i fun x => { x with on := true } else s

end Sys2Proof.Machine
end

