-- ==== Sys2Proof/Machine/Power.lean ====
section
/-!
DEFINITION. The power sequencer: the rise and fall of the compute die, gating of galleries and
stacks, brownouts and the SMBus alert (R49 to R56, R78).
-/

namespace Sys2Proof.Machine

/-! ### Power-off of the compute die (R68, R78, R103) -/

/-- End every admitted work at a power-off: refund, tenants and radios (R68). -/
def Dev.endWorks (s : Dev) : Dev :=
  let s := s.hub.works.foldl (fun s w =>
    let s := match w.radio with | some d => s.radioUnbind (toDie d) | none => s
    s.refund w) s
  let s := s.modHub fun h => { h with works := [] }
  (List.finRange 6).foldl (fun s g => (s.setTenant g 0 0).setF R.GSTAT 27 16 600 0 g.val) s

/-- Registers and state of every compute-die island return to their reset values. -/
def Dev.clearCdie (s : Dev) : Dev :=
  let s := (List.finRange 6).foldl (fun s g => s.galGate g) s
  let s := (s.rstRange 0x20000000 0x10000000000).wr R.CRST_REL 0
  let s := s.zeroMem 0x40000000 0x100000000 |>.zeroMem 0x800000000 0x1000000000
  let s := (List.range 0x18).foldl Dev.busReset s
  { s with
    hub := .init
    host := .init
    isl := Vector.ofFn fun i : Fin 13 => Isl.init (R.iccReset s.asm 0 i.val 0)
    ldg := { s.ldg with events := [], act := Vector.replicate 6 (Vector.replicate 4 0) } }

/-- The compute die loses power: every island is reset, memory contents are lost, and no work
survives (R68, R78). -/
def Dev.cdieOff (s : Dev) : Dev :=
  let s := s.endWorks.clearCdie
  s.modPwr fun p => { PowerSt.init with
    padLow18 := p.padLow18, padLow33 := p.padLow33, mtrLow := p.mtrLow }

/-! ### Steps (R51) -/

/-- PMB_RAIL of a rail names a regulator, and the master is enabled. -/
def Dev.railConfigured (s : Dev) (r : Nat) : Bool :=
  s.bt R.PMB_CFG 31 0 && s.fld R.PMB_RAIL 6 0 0 (railK r) != 0

/-- A rail is wanted: its galleries or stacks are marked. -/
def Dev.railWanted (s : Dev) (r : Nat) : Bool :=
  if r < 3 then s.bt R.PWR_CISL (2 * r) || s.bt R.PWR_CISL (2 * r + 1)
  else if r < 5 then true else s.fld R.PWR_CISL 11 8 != 0

/-- Turn a rail off with OPERATION 0x00. -/
def Dev.railOff (s : Dev) (r : Nat) : Dev :=
  s.modPwr fun p => { p with
    rails := vset p.rails (Fin.ofNat 9 r) RailInit, order := p.order.filter (· != r) }

/-- Record a failed step. -/
def Dev.seqErr (s : Dev) (r : Nat) : Dev := (s.setB R.PWR_STAT 29 true).setF R.PWR_STAT 28 26 (railK r)

/-- A step fails (R51, R52, R55): during a rise the whole rise, else only its pair or the stacks. -/
def Dev.stepFail (s : Dev) (r : Nat) : Dev :=
  if s.pwr.phase = .on then
    let s := (s.seqErr r).modPwr fun p => { p with
      settle := false, steps := p.steps.filter fun x => railK x != railK r }
    if r < 3 then
      ((s.setB R.PWR_CISL (2 * r) false).setB R.PWR_CISL (2 * r + 1) false).railOff r
    else [5, 6, 7, 8].foldl Dev.railOff (s.setF R.PWR_CISL 11 8 0)
  else
    ((s.cdieOff).seqErr r).setB R.PWR_CTL 31 false

/-- The voltage a step requests: R58 over the galleries marked in GAL_ON, or for the host. -/
def Dev.stepRequest (s : Dev) (r : Nat) : Nat :=
  if r < 3 then
    if s.vfOk false then
      ([2 * r, 2 * r + 1].map fun g =>
        if s.bt R.PWR_CISL g then s.vf false (s.wantCeil (Fin.ofNat 7 g)) else 0).foldl max 0
    else 850
  else if s.vfOk true then s.vf true (s.wantCeil 6) else 900

/-- Target of a rail, mV (R51). -/
def Dev.railTarget (s : Dev) (r : Nat) : Nat :=
  if r ≤ 3 then (vget s.pwr.rails (Fin.ofNat 9 r)).reqMv
  else if r = 4 then 750 else if r = 5 then 1800 else if r = 6 then 1050 else if r = 7 then 900
  else 500

/-- Ungate the marked galleries of a pair, or the marked stacks, on a rail that has come up. -/
def Dev.railUsersUp (s : Dev) (r : Nat) : Dev :=
  if r < 3 then
    [2 * r, 2 * r + 1].foldl (fun s g =>
      match toGal g with
      | some g => if s.bt R.PWR_CISL g.val then s.galUngate g else s
      | none => s) s
  else if 5 ≤ r then
    (List.range 4).foldl (fun s k =>
      if s.bt R.PWR_CISL (8 + k) then s.modIsl (Fin.ofNat 13 (9 + k)) fun x => { x with on := true }
      else s) s
  else if r = 3 then s.putCeil 6 (s.wantCeil 6)
  else s

/-- Go to the next step that is wanted: an unconfigured rail fails at once; at the end of a rise the
atrium is zeroed (R51, R93). `fuel` bounds the list. -/
def Dev.seqNext (s : Dev) : Nat → Dev
  | 0 => s
  | n + 1 =>
    match s.pwr.steps with
    | [] => if s.pwr.phase = .rising then s.modPwr fun p => { p with phase := .init } else s
    | r :: rs =>
      if !s.railWanted r then (s.modPwr fun p => { p with steps := rs }).seqNext n
      else if !s.railConfigured r then
        if s.pwr.phase = .on then (s.stepFail r).seqNext n else s.stepFail r
      else s

/-- Start a rise (R51). -/
def Dev.startRise (s : Dev) : Dev :=
  (s.modPwr fun p => { p with phase := .rising, pwren := true, steps := [4, 3, 0, 1, 2, 5] }).seqNext 10

/-- The running step has completed (R51 to R53): a rise whose CDIE_ON was cleared turns into a
fall. -/
def Dev.stepDone (s : Dev) (r : Nat) : Dev :=
  let split := r == 5 && s.bt R.PMB_RAIL 31 0 5
  let s := s.modPwr fun p => { p with
    settle := false
    steps := (if split then [6, 7, 8] else []) ++ p.steps.tail
    order := r :: p.order
    rails := vmod p.rails (Fin.ofNat 9 r) fun x => { x with on := true, monitor := true } }
  let s := if split || r == 6 || r == 7 then s else s.railUsersUp r
  if s.pwr.phase = .rising ∧ s.bt R.PWR_CTL 31 0 = false then
    s.modPwr fun p => { p with phase := .falling, steps := [] }
  else if r < 3 ∧ s.railWanted r = false then (s.railOff r).seqNext 10
  else s.seqNext 10

/-- RAIL_VOUT_POLL: VOUT_MODE and READ_VOUT of the running step's rail; `none` is an abandoned
request (R51, R56, R57). -/
def railVoutPoll (mode : Nat) (reading : Option Nat) (s : Dev) : Dev :=
  match s.pwr.steps with
  | [] => s
  | r :: _ =>
    let i : Fin 9 := Fin.ofNat 9 r
    let setMode := fun (s : Dev) => s.modPwr fun p =>
      { p with rails := vmod p.rails i fun x => { x with mode := mode } }
    match reading with
    | none => (s.pmbAbandon r).stepFail r
    | some x =>
      let s := setMode s
      if !modeLinear mode then
        if s.pwr.settle then s
        else
          let s := if r ≤ 3 then (s.vfCheck i).pmbErr 29 r else s.pmbErr 29 r
          s.modPwr fun p => { p with settle := true }
      else
        let first := (vget s.pwr.rails i).reqMv == 0
        let s := if r ≤ 3 ∧ first = true then
            (s.vfCheck i).modPwr fun p =>
              { p with rails := vmod p.rails i fun x => { x with reqMv := s.stepRequest r } }
          else s
        if r ≤ 3 ∧ 0xFFFF < voutCommand (vget s.pwr.rails i).reqMv mode then
          (s.pmbErr 29 r).stepFail r
        else if readNear x mode (s.railTarget r) then s.stepDone r else s

/-- RAIL_VSETTLE_END (R51). -/
def railVsettleEnd (s : Dev) : Dev :=
  match s.pwr.steps with
  | [] => s
  | r :: _ => if s.pwr.settle then s.stepDone r else s

/-- RAIL_STEP_TIMEOUT (R51). -/
def railStepTimeout (s : Dev) : Dev :=
  match s.pwr.steps with
  | [] => s
  | r :: _ => if s.pwr.settle then s else (s.stepFail r).seqNext 10

/-- ATRIUM_INIT_DONE (R93). -/
def atriumInitDone (s : Dev) : Dev :=
  if s.pwr.phase = .init then
    let s := s.zeroMem 0x40000000 0x43000000
    let s := ([6, 7, 8] : List (Fin 13)).foldl (fun s i => s.modIsl i fun x => { x with on := true }) s
    let s := s.modPwr fun p => { p with phase := .on }
    -- bits changed during the rise take effect now (R53)
    let s := ([0, 1, 2] : List Nat).foldl (fun s r =>
      if (vget s.pwr.rails (Fin.ofNat 9 r)).on then
        if s.railWanted r then s.railUsersUp r else s.railOff r
      else if s.railWanted r then s.modPwr fun p => { p with steps := p.steps ++ [r] } else s) s
    let s := if (vget s.pwr.rails 5).on then
        if s.railWanted 5 then s.railUsersUp 5 else [5, 6, 7, 8].foldl Dev.railOff s
      else if s.railWanted 5 then s.modPwr fun p => { p with steps := p.steps ++ [5] } else s
    let s := (List.finRange 6).foldl (fun s g =>
      if s.bt R.PWR_CISL g.val then s else s.galGate g) s
    ((List.finRange 4).foldl Dev.hostStart s).seqNext 10
  else s

/-- COMPUTE_DIE_POWER_DOWN: the bridges have drained and the rails go off in reverse; a rise starts
if CDIE_ON is 1 again (R51, R53). -/
def computeDiePowerDown (s : Dev) : Dev :=
  if s.pwr.phase = .falling then
    let s := s.cdieOff
    if s.bt R.PWR_CTL 31 0 then s.startRise else s
  else s

/-- The CDIE_ON field of PWR_CTL takes a value (R51, R53, R543). -/
def Dev.cdieOnWrite (s : Dev) (on : Bool) : Dev :=
  let was := s.bt R.PWR_CTL 31 0
  if on && s.bt R.CD_TRIPSTAT 31 then s
  else
    let s := s.setB R.PWR_CTL 31 on 0
    if on && !was && s.pwr.phase == .off then s.startRise
    else if !on && was then
      match s.pwr.phase with
      | .on | .init => s.modPwr fun p => { p with phase := .falling, steps := [], settle := false }
      | .rising => if s.pwr.steps.isEmpty then s.modPwr fun p => { p with phase := .falling } else s
      | _ => s
    else s

/-- A write of PWR_CTL (R49, R51). -/
def pwrCtlWrite (d : Fin 2) (v : Nat) (s : Dev) : Dev :=
  let s := s.islOnWrite d v
  if d = 0 then s.cdieOnWrite (bit v 31 == 1) else s

/-- Gate a stack (R52). -/
def Dev.stackGate (s : Dev) (k : Nat) : Dev :=
  let b := 0x800000000 + k * 0x200000000
  (s.zeroMem b (b + 0x200000000)).modIsl (Fin.ofNat 13 (9 + k)) fun x => { x with on := false }

/-- A write of PWR_CISL (R49, R52, R53). -/
def pwrCislWrite (v : Nat) (s : Dev) : Dev :=
  let v := andNot v (((2 ^ 4 - 1) - (2 ^ s.asm.stacks - 1)) * 256)
  let old := s.rg R.PWR_CISL
  let s := s.plainWrite R.PWR_CISL v
  if s.pwr.phase != .on then s
  else
    let s := (List.finRange 6).foldl (fun s g =>
      if bit old g.val = 1 ∧ bit v g.val = 0 then s.galGate g else s) s
    let s := (List.range 4).foldl (fun s k =>
      if bit old (8 + k) = 1 ∧ bit v (8 + k) = 0 then s.stackGate k else s) s
    let s := ([0, 1, 2, 5] : List Nat).foldl (fun s r =>
      if (vget s.pwr.rails (Fin.ofNat 9 r)).on then
        if s.railWanted r then s.railUsersUp r
        else if r = 5 then [5, 6, 7, 8].foldl Dev.railOff s else s.railOff r
      else if s.railWanted r ∧ r ∉ s.pwr.steps then s.modPwr fun p => { p with steps := p.steps ++ [r] }
      else s) s
    s.seqNext 10

/-! ### Brownouts and alerts (R54 to R56) -/

/-- The compute die goes down at once and CDIE_ON clears (R54, R543). -/
def Dev.cdieTrip (s : Dev) : Dev := (s.cdieOff).setB R.PWR_CTL 31 false

/-- BROWNOUT_ATR_HOST (R54): the monitor watches a rail that has come up. -/
def brownoutAtrHost (host : Bool) (s : Dev) : Dev :=
  let r : Fin 9 := if host then 3 else 4
  if (vget s.pwr.rails r).monitor then (s.bod 0 (if host then 6 else 5)).cdieTrip else s

/-- GALLERY_RAIL_BROWNOUT (R54, R55, R520). -/
def galleryRailBrownout (p : Fin 3) (s : Dev) : Dev :=
  let r := p.val
  if (vget s.pwr.rails (Fin.ofNat 9 r)).monitor then
    let s := s.bod 0 7
    let s := [2 * r, 2 * r + 1].foldl (fun s g =>
      match toGal g with
      | some g => (s.galGate g).setB R.PWR_CISL g.val false
      | none => s) s
    (s.railOff r).orR R.FLT_STAT (2 ^ (15 + r))
  else s

/-- Rails whose STATUS_WORD an alert reads, in order (R56). -/
def Dev.alertRails (s : Dev) : List Nat :=
  (List.range 6).flatMap fun k =>
    if s.fld R.PMB_RAIL 6 0 0 k = 0 then []
    else if k = 5 ∧ s.bt R.PMB_RAIL 31 0 5 = true then [5, 5, 5, 5] else [k]

/-- PMB_ALERT: the STATUS_WORDs that the configured rails answer; `none` is an abandoned request
(R56). -/
def pmbAlert (words : List (Option Nat)) (s : Dev) : Dev :=
  if !s.bt R.PMB_CFG 31 0 then s
  else
    (s.alertRails.zip words).foldl (fun s x =>
      match x.2 with
      | none => s.pmbAbandon x.1
      | some w => if s.rg R.PMB_ALERT = 0 then s.wr R.PMB_ALERT (w % 65536) else s) s

/-- PWR_STAT (R49, R51). -/
def Dev.pwrStat (s : Dev) (d : Fin 2) : Nat :=
  let isl := (List.finRange 7).foldl (fun n i =>
    if 2 ≤ i.val ∧ (vget (vget s.ioIsl d) i).on = true then n + 2 ^ i.val else n) 0
  if d = 0 then
    let st := match s.pwr.phase with | .off => 0 | .rising | .init => 1 | .on => 2 | .falling => 3
    let stk := (List.range 4).foldl (fun n k =>
      if (vget s.isl (Fin.ofNat 13 (9 + k))).on then n + 2 ^ k else n) 0
    let gal := (List.finRange 6).foldl (fun n g => if s.galUp g then n + 2 ^ g.val else n) 0
    s.rg R.PWR_STAT + st * 2 ^ 30 + stk * 2 ^ 22 + gal * 2 ^ 16 + isl
  else isl

/-! ### Thermal trip (R543) -/

/-- A sensor of the compute die is powered. -/
def Dev.sensorUp (s : Dev) (k : Fin 8) : Bool :=
  s.cdieOn && match toGal k.val with | some g => s.galOn g | none => true

/-- THERMAL_MEASURE: readings of the eight compute-die sensors and of each I/O die's, 1/16 °C
(R543). -/
def thermalMeasure (cd : List Int) (io : List Int) (s : Dev) : Dev :=
  let word := fun (t : Int) => 2 ^ 31 + ofS 16 t
  let s := (List.range s.asm.iodies).foldl (fun s d => s.wr R.IO_TEMP (word (io.getD d 0)) d) s
  let limit := toS 16 (s.rg R.CD_TRIP)
  let hotNow := fun (k : Fin 8) => s.sensorUp k && decide (limit ≤ cd.getD k.val 0)
  let trip := (List.finRange 8).find? fun k => hotNow k && vget s.test.hot k
  let s := (List.finRange 8).foldl (fun s k =>
    if s.sensorUp k then s.wr R.THRM_T (word (cd.getD k.val 0)) 0 k.val
    else s.wr R.THRM_T 0 0 k.val) { s with test := { s.test with hot := Vector.ofFn hotNow } }
  match trip with
  | none => s
  | some k =>
    let s := { s.cdieTrip with test := { s.test with hot := Vector.replicate 8 false } }
    (s.setB R.CD_TRIPSTAT 31 true).setF R.CD_TRIPSTAT 2 0 k.val

/-- Write of CD_TRIP: a limit above 2,000 is ignored (R543). -/
def cdTripWrite (v : Nat) (s : Dev) : Dev :=
  if toS 16 v ≤ 2000 then s.plainWrite R.CD_TRIP v else s

end Sys2Proof.Machine
end

