-- ==== Sys2Proof/Machine/Reset.lean ====
section
/-!
DEFINITION. Resets of an I/O die (R78 to R82), OTP (R97) and the calibration block (R98 to R102).
-/

namespace Sys2Proof.Machine

/-! ### Calibration (R98 to R102) -/

/-- `n` bytes of a map from offset `a`. -/
def mapBytes (m : SMap Byte) (a n : Nat) : List Byte := (List.range n).map fun i => SMap.get 0 m (a + i)

/-- A calibration block passes MAGIC, FORMAT and CRC. -/
def calSound (m : SMap Byte) : Bool :=
  leNat (mapBytes m 0 4) == 0xCA1B0006 && leNat (mapBytes m 4 2) == 1
    && leNat (mapBytes m 0xFFC 4) == crc32 (mapBytes m 0 0xFFC)

/-- Its SOURCE byte. -/
def calSource (m : SMap Byte) : Nat := (SMap.get 0 m 6).toNat

/-- The checks of R100. -/
def calOk (m : SMap Byte) : Bool := calSound m && (calSource m == 1 || calSource m == 2)

/-- Load the calibration block at a reset of the die (R100). -/
def Dev.calLoad (s : Dev) (d : Fin 2) : Dev :=
  let m := (vget s.die d).calNv
  let good := calOk m
  let s := s.modDie d fun x => { x with calStage := m, calLive := if good then m else calDefault }
  ((s.setB R.CAL_STAT 31 (!good) d).setF R.CAL_STAT 19 16 (if good then calSource m else 0) d)

/-- The live view takes the committed block (R102). -/
def Dev.calApply (s : Dev) (d : Fin 2) (m : SMap Byte) : Dev :=
  let s := s.modDie d fun x => { x with calLive := m }
  (s.setB R.CAL_STAT 31 false d).setF R.CAL_STAT 19 16 (calSource m) d

/-- RESULT of the last commit. -/
def Dev.calResult (s : Dev) (d : Fin 2) (r : Nat) : Dev := s.setF R.CAL_STAT 23 20 r d

/-- A calibration commit or an OTP program has ended: the CAL source (log entry 20). -/
def Dev.setEnded (s : Dev) (d : Fin 2) (b : Bool) : Dev := s.modDie d fun x => { x with ended := b }

/-- Write of CAL_CMD (R101): only the warden of the die starts a commit. -/
def calCmdWrite (ini : Nat) (d : Fin 2) (v : Nat) (s : Dev) : Dev :=
  let x := vget s.die d
  if ini != 0x18 + d.val || bits v 31 24 != 0x5C || bit v 0 == 0 || x.commit.isSome then s
  else
    let m := x.calStage
    let refuse := fun r => (s.calResult d r).setEnded d true
    if (SMap.get 0 x.otp 16) / 8 % 2 = 1 then refuse 4
    else if 1000 ≤ x.wear then refuse 5
    else if leNat (mapBytes m 0 4) != 0xCA1B0006 || leNat (mapBytes m 4 2) != 1 || calSource m != 2 then
      refuse 3
    else if !calSound m then refuse 2
    else
      ((s.setB R.CAL_STAT 30 true d).setEnded d false).modDie d fun x =>
        { x with commit := some ⟨m⟩, wear := x.wear + 1 }

/-- A shot, an RTD conversion or a ledger tick of the die is in progress (R102). -/
def Dev.measuring (s : Dev) (d : Fin 2) : Bool :=
  let m := vget s.mtr d
  m.round.isSome || (List.finRange 2).any (fun p => (vget m.path p).shot.isSome)
    || (d == 0 && s.ldg.stage != .idle)

/-- CAL_COMMIT_DONE: the read-back ends, with the block as programmed or not, at a moment when
nothing is being measured (R102). -/
def calCommitDone (d : Fin 2) (good : Bool) (s : Dev) : Dev :=
  match (vget s.die d).commit with
  | none => s
  | some c =>
    if s.measuring d then s else
    let (x, s) := s.draw
    let m := if good then c.buf else SMap.set 0 c.buf (x % 4096) (SMap.get 0 c.buf (x % 4096) ^^^ 1)
    let s := (s.modDie d fun x => { x with calNv := m, commit := none }).setB R.CAL_STAT 30 false d
    let s := s.setEnded d true
    if calOk m then (s.calApply d m).calResult d 1 else s.calResult d 6

/-- CAL_STAT: WEAR and WORN from the block. -/
def Dev.calStat (s : Dev) (d : Fin 2) : Nat :=
  let w := (vget s.die d).wear
  s.rg R.CAL_STAT d + min w 0xFFFF + b2n (decide (1000 ≤ w)) * 2 ^ 29

/-! ### OTP (R97) -/

/-- DBGLOCK of I/O die 0 (R525). -/
def Dev.dbgLock (s : Dev) : Bool := SMap.get 0 (vget s.die 0).otp 16 / 4 % 2 == 1

/-- Write of OTP_CMD (R97). -/
def otpCmdWrite (ini : Nat) (d : Fin 2) (v : Nat) (s : Dev) : Dev :=
  let w := bits v 12 8
  let who := ini == 0x18 + d.val || (ini == 0x3F && !s.dbgLock)
  if !who || bits v 31 24 != 0x3C || bit v 0 == 0 || decide (18 < w) || (vget s.die d).otpBusy.isSome
  then s
  else
    ((s.setB R.OTP_STAT 31 true d).setEnded d false).modDie d fun x =>
      { x with otpBusy := some (w, s.rg R.OTP_DATA d) }

/-- OTP_PROGRAM_DONE: the bits of the word that came out 1 (R97); a bit can fail to program. -/
def otpProgramDone (d : Fin 2) (good : Bool) (s : Dev) : Dev :=
  match (vget s.die d).otpBusy with
  | none => s
  | some (w, x) =>
    let old := SMap.get 0 (vget s.die d).otp w
    let (r, s) := s.draw
    let new := if good then old ||| x else old ||| (x &&& r)
    let s := s.modDie d fun y => { y with otp := SMap.set 0 y.otp w new, otpBusy := none }
    let s := (s.setB R.OTP_STAT 31 false d).setEnded d true
    if new = old ||| x then s else s.setB R.OTP_STAT 30 true d

/-! ### Reset of an I/O die (R78 to R82) -/

/-- Kinds of reset of an I/O die, as RST_CAUSE.LAST names them. -/
inductive RstKind
  | powerOn | brownout | pin | watchdog | system | die0 | clockLoss
  deriving DecidableEq, Repr

/-- Code of LAST. -/
def RstKind.code : RstKind → Nat
  | .powerOn => 0
  | .brownout => 1
  | .pin => 2
  | .watchdog => 3
  | .system => 4
  | .die0 => 5
  | .clockLoss => 6

/-- The registers of the die return to their reset values, but the meridian and the retention fields
(R78, R80). -/
def Dev.dieRegs (s : Dev) (d : Fin 2) (k : RstKind) : Dev :=
  let b := ioBase d
  let cause := s.rg R.RST_CAUSE d
  let bod := s.rg R.BOD_STAT d % 2
  let s := (s.rstRange b (b + 0x20000)).rstRange (b + 0x20080) (b + 0x1000000)
  ((s.wr R.RST_CAUSE (setBits cause 10 8 k.code ||| 2 ^ k.code) d).wr R.BOD_STAT bod d)

/-- An OTP program that is cut off leaves any of its bits programmed. -/
def Dev.otpCut (s : Dev) (d : Fin 2) : Dev :=
  match (vget s.die d).otpBusy with
  | none => s
  | some (w, x) =>
    let (r, s) := s.draw
    s.modDie d fun y => { y with
      otp := SMap.set 0 y.otp w (SMap.get 0 y.otp w ||| (x &&& r)), otpBusy := none }

/-- The boot path of the die starts afresh; a commit that is cut off leaves a block that fails its
checks (R102). -/
def DieSt.restart (x : DieSt) (cold : Bool) : DieSt :=
  { x with
    inReset := true, cold := cold, rom := .start, romCdie := false
    deadPort := Vector.replicate 2 false, tcxo := 0, stnNum := 0
    calNv := if x.commit.isSome then [] else x.calNv
    commit := none, ended := false }

/-- Initiators of an I/O die. -/
def dieInis (d : Fin 2) : List Nat :=
  [0x18, 0x1A, 0x1C, 0x1E, 0x20, 0x22, 0x24, 0x26].map (· + d.val) ++ if d = 0 then [0x3F] else []

/-- One I/O die is reset. -/
def Dev.oneDieReset (s : Dev) (d : Fin 2) (k : RstKind) (cold : Bool) : Dev :=
  let s := if d = 0 then
      { s.cdieOff with ldg := .init, time := { TimeSt.init with units := s.time.units } }
    else s
  let s := (s.otpCut d).modDie d (·.restart cold)
  let s := (List.finRange 7).foldl (fun s i => s.blockReset d i) s
  let s := { s with
    ioIsl := vset s.ioIsl d (Vector.ofFn fun i : Fin 7 =>
      ⟨decide (i.val < 2), false, R.ioIccReset s.asm 0 i.val 0, false⟩)
    tt := vset s.tt d { TtSt.init with almDue := (vget s.tt d).almDue }
    mtr := vset s.mtr d .init
    test := if d = 0 ∧ cold = true then TestSt.init else s.test }
  let s := (dieInis d).foldl Dev.busReset s
  let s := if cold then s else s.zeroMem (wardenSram d) (wardenSram d + 0x4000)
  (s.dieRegs d k).modCore (warden d) fun _ => CoreSt.init

/-- A reset of I/O die 0 resets I/O die 1 in the same way (R79). -/
def Dev.dieReset (s : Dev) (d : Fin 2) (k : RstKind) (cold : Bool) : Dev :=
  let s := s.oneDieReset d k cold
  if d = 0 ∧ s.fitted 1 = true then s.oneDieReset 1 .die0 cold else s

/-- The retention latches lose their contents (R80). -/
def Dev.loseRetention (s : Dev) (d : Fin 2) : Dev :=
  (s.wr R.RST_CAUSE 0x80000000 d).setB R.BOD_STAT 0 false d

/-- POWER_ON_RESET: `vbatOut` says that VBAT too was out of range (R78, R80). -/
def powerOnReset (d : Fin 2) (vbatOut : Bool) (s : Dev) : Dev :=
  let s := if vbatOut then (s.loseRetention d).modDie d fun x => { x with vbat := false } else s
  let s := if vbatOut && d == 0 && s.fitted 1 then s.loseRetention 1 else s
  s.dieReset d .powerOn true

/-- BROWNOUT_VDD_AO (R54, R80): with VBAT out of range the retention latches are lost too. -/
def brownoutVddAo (d : Fin 2) (s : Dev) : Dev :=
  if (vget s.die d).vbat then (s.bod d 0).dieReset d .brownout true
  else (s.loseRetention d).dieReset d .powerOn true

/-- PIN_RESET: RESET_N resets the device (R79, R81). -/
def pinReset (s : Dev) : Dev := s.dieReset 0 .pin false

/-- CLOCK_LOSS: the one TCXO feeds both dies (R15, R81). -/
def clockLoss (s : Dev) : Dev :=
  if (vget s.die 0).inReset then s else s.dieReset 0 .clockLoss false

/-- Write of RST_CTL (R78). -/
def rstCtlWrite (d : Fin 2) (v : Nat) (s : Dev) : Dev :=
  if bits v 31 24 = 0xA5 ∧ bit v 0 = 1 then s.dieReset d .system false else s

/-- RESET_RELEASE: straps latched and the calibration block loaded; station time of I/O die 0 starts
from the meridian (R81, R82, R100, R442). -/
def resetRelease (d : Fin 2) (gpio : Nat) (s : Dev) : Dev :=
  if !(vget s.die d).inReset then s
  else
    let s := (s.modDie d fun x => { x with inReset := false }).wr R.STRAPS (gpio % 2 ^ 14) d
    let s := (s.calLoad d).trkStnInit d
    if d = 0 then
      let ns := s.fld R.MER_SEC 39 0 0 * 1000000000 + s.fld R.MER_SUB 14 0 0 * 1000000000 / 32768
      { s with time := { TimeSt.init with units := ns % 2 ^ 64 * tsNs } }
    else s

/-- TAP_RESET: TRST_N resets the TAP controller alone (R78, R521). -/
def tapReset (s : Dev) : Dev := { s with test := { s.test with ir := 2 } }

end Sys2Proof.Machine
end

