-- ==== Sys2Proof/Machine/Serial.lean ====
section
/-!
DEFINITION. Clocked serial ports (R490 to R497), GPIO (R498, R499) and flash ports (R500 to R505) of
an I/O die.
-/

namespace Sys2Proof.Machine

/-! ### Clocked serial ports -/

/-- A serial port. -/
def Dev.csp (s : Dev) (d : Fin 2) (p : Fin 4) : CspSt := vget (vget s.ser d).csp p

/-- Change of a serial port. -/
def Dev.modCsp (s : Dev) (d : Fin 2) (p : Fin 4) (f : CspSt → CspSt) : Dev :=
  s.modSer d fun x => { x with csp := vmod x.csp p f }

/-- Set bits of CSP_IRQ: 0 DONE, 1 TIMEOUT, 2 ABORTED, 3 ERR, 4 TXOVF, 5 RXUND. -/
def Dev.cspIrq (s : Dev) (d : Fin 2) (p : Fin 4) (b : Nat) : Dev := s.orR R.CSP_IRQ (2 ^ b) d p.val

/-- FLEN of the running transfer. -/
def CspSt.flen (x : CspSt) : Nat := bits x.xfer 13 8 + 1

/-- NFRM of the running transfer. -/
def CspSt.frames (x : CspSt) : Nat := bits x.nfrm 15 0 + 1

/-- Bits of the next unit (R495): the rest of the frame, a byte or a word at most. -/
def CspSt.unitBits (x : CspSt) : Nat :=
  let left := x.flen - x.bit
  match bits x.xfer 25 24 with
  | 2 => min 8 left
  | 3 => min 32 left
  | _ => left

/-- A transfer ends (R494, R496): RESULT 1 DONE, 2 TIMEOUT, 3 ABORTED. A DONE with HOLDSEL keeps its
select; the other endings empty the TX FIFO. -/
def Dev.cspEnd (s : Dev) (d : Fin 2) (p : Fin 4) (r : Nat) : Dev :=
  let s := s.modCsp d p fun x => { x with
    busy := false, why := 0, abort := false, bit := 0
    sel := if r = 1 ∧ bit x.xfer 29 = 1 then x.sel else none
    tx := if r = 1 then x.tx else [] }
  (s.setF R.CSP_STAT 27 24 r d p.val).cspIrq d p (r - 1)

/-- A write of CSP_XFER with GO (R492). -/
def Dev.cspGo (s : Dev) (d : Fin 2) (p : Fin 4) (v : Nat) : Dev :=
  let x := s.csp d p
  let n : Fin 4 := Fin.ofNat 4 (bits v 21 20)
  if x.busy || !s.bt R.CSP_CFG 31 d p.val || decide (bits v 13 8 < 3)
    || (x.sel.isSome && x.sel != some n) then s.cspIrq d p 3
  else
    let s := s.plainWrite R.CSP_XFER v d p.val
    let s := (s.setF R.CSP_STAT 27 24 0 d p.val).wr R.CSP_DONE 0 d p.val
    let cfg := s.rg R.CSP_CFG d p.val
    let nf := s.rg R.CSP_NFRM d p.val
    let tmo := s.rg R.CSP_TO d p.val
    s.modCsp d p fun x => { x with
      busy := true, xfer := v, cfg := cfg, nfrm := nf, tmo := tmo, frame := 0, bit := 0, cur := 0
      acc := 0, sel := some n, abort := false, why := 0, sent := [] }

/-- A write of CSP_XFER (R492, R496). A port in a wait stands at a unit boundary (log entry 26). -/
def cspXferWrite (d : Fin 2) (p : Fin 4) (v : Nat) (s : Dev) : Dev :=
  let s := if bit v 30 = 1 ∧ (s.csp d p).busy = true then
      if (s.csp d p).why ≠ 0 then s.cspEnd d p 3 else s.modCsp d p fun x => { x with abort := true }
    else s
  if bit v 31 = 1 then s.cspGo d p v
  else s.plainWrite R.CSP_XFER v d p.val

/-- A write of CSP_CFG, CSP_TIM, CSP_TO or CSP_NFRM: ignored with ERR while BUSY (R492). -/
def cspParamWrite (r : RegDef) (d : Fin 2) (p : Fin 4) (v : Nat) (s : Dev) : Dev :=
  if (s.csp d p).busy then s.cspIrq d p 3 else s.plainWrite r v d p.val

/-- A word is pushed to the TX FIFO (R493). -/
def cspPush (d : Fin 2) (p : Fin 4) (v : Nat) (s : Dev) : Dev :=
  if 16 ≤ (s.csp d p).tx.length then s.cspIrq d p 4
  else s.modCsp d p fun x => { x with tx := x.tx ++ [v % 2 ^ 64] }

/-- A word is popped from the RX FIFO (R493). -/
def Dev.cspPop (s : Dev) (d : Fin 2) (p : Fin 4) : Nat × Dev :=
  match (s.csp d p).rx with
  | [] => (0, s.cspIrq d p 5)
  | w :: l => (w, s.modCsp d p fun x => { x with rx := l })

/-- Put the `i`-th bit of a frame of `n` bits into its word, in the order of LSBF. -/
def frameBit (lsbf : Bool) (n i : Nat) (b : Bool) : Nat :=
  b2n b * 2 ^ (if lsbf then i else n - 1 - i)

/-- The bits `di` of a unit that begins at bit `i` of a frame. -/
def unitWord (lsbf : Bool) (n : Nat) : Nat → List Bool → Nat
  | _, [] => 0
  | i, b :: l => frameBit lsbf n i b + unitWord lsbf n (i + 1) l

/-- A unit runs: `di` are the levels sampled on DI, bit by bit (R491, R493). -/
def Dev.cspUnit (s : Dev) (d : Fin 2) (p : Fin 4) (di : List Bool) : Dev :=
  let x := s.csp d p
  let n := x.flen
  let u := x.unitBits
  let first := x.bit == 0
  let tx := bit x.xfer 28 == 1
  let rx := bit x.xfer 27 == 1
  let cur := if !first then x.cur else if tx then x.tx.headD 0 % 2 ^ n else 0
  let di := (List.range u).map fun i => di.getD i false
  let acc := (if first then 0 else x.acc) + if rx then unitWord (bit x.cfg 2 == 1) n x.bit di else 0
  let last := x.bit + u == n
  let s := s.modCsp d p fun x => { x with
    why := 0, cur := cur, acc := acc
    tx := if first && tx then x.tx.tail else x.tx
    bit := if last then 0 else x.bit + u
    frame := if last then x.frame + 1 else x.frame
    rx := if last && rx then x.rx ++ [acc] else x.rx
    sent := if last then x.sent ++ [cur] else x.sent }
  s.wr R.CSP_DONE (s.csp d p).frame d p.val

/-- CSP_UNIT_START: the next unit begins, or the port waits (R495); an abort ends the transfer at the
boundary (R496). `rdy` is CSPn_RDY as seen. -/
def cspUnitStart (d : Fin 2) (p : Fin 4) (rdy : Bool) (di : List Bool) (s : Dev) : Dev :=
  let x := s.csp d p
  if !x.busy then s
  else if x.abort then s.cspEnd d p 3
  else if x.frames ≤ x.frame then s
  else
    let wait := fun n => s.modCsp d p fun x => { x with why := n }
    if x.bit == 0 && bit x.xfer 28 == 1 && x.tx.isEmpty then wait 2
    else if x.bit == 0 && bit x.xfer 27 == 1 && decide (16 ≤ x.rx.length) then wait 3
    else if bits x.xfer 25 24 ≠ 0 ∧ rdy = false then wait 1
    else s.cspUnit d p di

/-- CSP_WAIT_TIMEOUT: the wait has lasted TO µs (R496). -/
def cspWaitTimeout (d : Fin 2) (p : Fin 4) (s : Dev) : Dev :=
  if (s.csp d p).busy && (s.csp d p).why != 0 then
    s.cspEnd d p (if (s.csp d p).abort then 3 else 2)
  else s

/-- CSP_TRANSFER_END: after the last bit (R494). -/
def cspTransferEnd (d : Fin 2) (p : Fin 4) (s : Dev) : Dev :=
  let x := s.csp d p
  if x.busy && (x.abort || decide (x.frames ≤ x.frame)) then
    s.cspEnd d p (if x.abort then 3 else 1)
  else s

/-- CSP_STAT: the level of RDY as seen is the board's, a free value (log entry 26). -/
def Dev.cspStat (s : Dev) (d : Fin 2) (p : Fin 4) : Nat :=
  let x := s.csp d p
  let rdy := b2n (Config.freeBool s.free)
  s.rg R.CSP_STAT d p.val + b2n x.busy * 2 ^ 31 + b2n (x.why != 0) * 2 ^ 30
    + b2n (!x.busy && x.sel.isSome) * 2 ^ 29 + x.why * 2 ^ 22 + x.tx.length * 2 ^ 16
    + x.rx.length * 2 ^ 8 + rdy

/-! ### GPIO (R498) -/

/-- Levels of GPIO[23:0]: what the device drives, and what the board drives elsewhere. -/
def Dev.gpioLevel (s : Dev) (d : Fin 2) : Nat :=
  let oe := s.rg R.GPIO_OE d
  (s.rg R.GPIO_OUT d &&& oe) ||| andNot (vget s.ser d).pins oe

/-- A change of the pins, with the edges that GPIO_RISE and GPIO_FALL name. -/
def Dev.gpioChange (s : Dev) (d : Fin 2) (f : Dev → Dev) : Dev :=
  let a := s.gpioLevel d
  let s := f s
  let b := s.gpioLevel d
  if s.ioUp d 5 then
    s.orR R.GPIO_IRQ ((andNot b a &&& s.rg R.GPIO_RISE d) ||| (andNot a b &&& s.rg R.GPIO_FALL d)) d
  else s

/-- GPIO_EDGE: the board drives pin `i` to a level. -/
def gpioEdge (d : Fin 2) (i : Fin 24) (up : Bool) (s : Dev) : Dev :=
  s.gpioChange d fun s => s.modSer d fun x => { x with pins := setBits x.pins i.val i.val (b2n up) }

/-- Writes of GPIO_OUT and GPIO_OE. -/
def gpioRegWrite (r : RegDef) (d : Fin 2) (v : Nat) (s : Dev) : Dev :=
  s.gpioChange d fun s => s.plainWrite r v d

/-- A write of GPIO_SET. -/
def gpioSetWrite (d : Fin 2) (v : Nat) (s : Dev) : Dev :=
  s.gpioChange d fun s => s.orR R.GPIO_OUT (v % 2 ^ 24) d

/-- A write of GPIO_CLR. -/
def gpioClrWrite (d : Fin 2) (v : Nat) (s : Dev) : Dev :=
  s.gpioChange d fun s => s.wr R.GPIO_OUT (andNot (s.rg R.GPIO_OUT d) (v % 2 ^ 24)) d

/-! ### Flash ports -/

/-- A flash port. -/
def Dev.fl (s : Dev) (d q : Fin 2) : FlSt := vget (vget s.ser d).fl q

/-- Change of a flash port. -/
def Dev.modFl (s : Dev) (d q : Fin 2) (f : FlSt → FlSt) : Dev :=
  s.modSer d fun x => { x with fl := vmod x.fl q f }

/-- CFGERR (R500, R503). -/
def Dev.flCfgErr (s : Dev) (d q : Fin 2) : Dev :=
  (s.setB R.FL_STAT 29 true d q.val).orR R.FL_IRQ 4 d q.val

/-- A write of FL_CFG (R500). -/
def flCfgWrite (d q : Fin 2) (v : Nat) (s : Dev) : Dev :=
  let m := bits v 29 28
  if m = 3 ∨ (m = 0 ∧ bits v 10 8 < 3) ∨ (s.fl d q).cmd.isSome = true ∨ (s.fl d q).rdact.isSome = true
  then s.flCfgErr d q
  else s.plainWrite R.FL_CFG v d q.val

/-- A session ends: RESULT 1 DONE, 2 POLLTO, 3 REFUSED. -/
def Dev.flEnd (s : Dev) (d q : Fin 2) (r : Nat) : Dev :=
  let s := s.modFl d q fun x => { x with cmd := none, polling := false }
  (s.setF R.FL_STAT 27 24 r d q.val).orR R.FL_IRQ (if r = 1 then 1 else if r = 2 then 2 else 8) d q.val

/-- A write of FL_CMD (R503). -/
def flCmdWrite (ini : Nat) (d q : Fin 2) (v : Nat) (s : Dev) : Dev :=
  if !(ini == 0x18 + d.val || (ini == 0x3F && !s.dbgLock)) || bit v 31 == 0 then s
  else if (s.fl d q).cmd.isSome then s.flCfgErr d q
  else if 256 < bits v 24 16 ∨ s.bt R.FL_CFG 31 d q.val = false then s.flEnd d q 3
  else
    (s.setF R.FL_STAT 27 24 0 d q.val).modFl d q fun x => { x with cmd := some v, polling := false }

/-- The flash device changes some of its contents: offsets from the start of its window, and the new
bytes. -/
def Dev.flashChange (s : Dev) (d q : Fin 2) (chg : List (Nat × Byte)) : Dev :=
  chg.foldl (fun s c =>
    if c.1 < 0x20000000 then s.setByte (flashBase (2 * d.val + q.val) + c.1) c.2 else s) s

/-- COMMAND_SESSION_END: the session has moved its LEN bytes (R503). `data` is what the flash device
answers, `chg` what it changes in itself. With POLL the session goes on polling. -/
def commandSessionEnd (d q : Fin 2) (data : List Byte) (chg : List (Nat × Byte)) (s : Dev) : Dev :=
  match (s.fl d q).cmd with
  | none => s
  | some v =>
    if (s.fl d q).polling then s
    else
      let s := s.flashChange d q chg
      let s := if bit v 30 = 0 then
          (List.range (bits v 24 16)).foldl (fun s i =>
            s.setF R.FL_BUF (8 * (i % 4) + 7) (8 * (i % 4)) (data.getD i 0).toNat d q.val (i / 4)) s
        else s
      if bit v 28 = 1 then s.modFl d q fun x => { x with polling := true } else s.flEnd d q 1

/-- FLASH_POLL: the status that a poll reads (R503). -/
def flashPoll (d q : Fin 2) (status : Byte) (chg : List (Nat × Byte)) (s : Dev) : Dev :=
  if (s.fl d q).polling then
    let s := (s.flashChange d q chg).setF R.FL_STAT 7 0 status.toNat d q.val
    let p := s.rg R.FL_POLL d q.val
    if status.toNat &&& bits p 23 16 = bits p 31 24 then s.flEnd d q 1 else s
  else s

/-- FLASH_POLL_TIMEOUT (R503). -/
def flashPollTimeout (d q : Fin 2) (s : Dev) : Dev :=
  if (s.fl d q).polling then s.flEnd d q 2 else s

/-- FLASH_TRANSACTION_END (R502). -/
def flashTransactionEnd (d q : Fin 2) (s : Dev) : Dev := s.modFl d q fun x => { x with rdact := none }

/-- Local port of a flash window. -/
def flashPort (p : Fin 4) : Fin 2 := if p.val % 2 = 0 then 0 else 1

/-- One granule of a window is served (R501): it extends the running transaction or makes another. -/
def Dev.flashGranule (s : Dev) (p : Fin 4) (g : Nat) : Dev :=
  let d := flashDie p
  let q := flashPort p
  let s := s.count R.FL_RDGRAN 1 d q.val
  let ext := match (s.fl d q).rdact with
    | some h => g == h + 1 && g % 64 != 0
    | none => false
  let s := if ext then s else s.count R.FL_TRANS 1 d q.val
  s.modFl d q fun x => { x with rdact := some g }

/-- A read of `n` bytes at `a`, where it lies in a flash window, is served granule by granule. -/
def Dev.flashServe (s : Dev) (a n : Nat) : Dev :=
  match regionOf a with
  | some (.flash p) =>
    (granules (a - flashBase p.val) n).foldl (fun s g => s.flashGranule p g) s
  | _ => s

/-- A window read waits while a session of its port runs (R504). -/
def Dev.flashBusy (s : Dev) (a : Nat) : Bool :=
  match regionOf a with
  | some (.flash p) => (s.fl (flashDie p) (flashPort p)).cmd.isSome
  | _ => false

/-- FL_STAT. -/
def Dev.flStat (s : Dev) (d q : Fin 2) : Nat :=
  s.rg R.FL_STAT d q.val + b2n (s.fl d q).cmd.isSome * 2 ^ 31 + b2n (s.fl d q).rdact.isSome * 2 ^ 30

end Sys2Proof.Machine
end

