-- ==== Sys2Proof/Machine/Metering.lean ====
section
/-!
DEFINITION. The metering engine of an I/O die (R391 to R420): shots, picks, flow and volume, RTD
rounds, heat and gas, accumulators, pulse outputs and the station-power channels.
-/

namespace Sys2Proof.Machine

/-! ### The engine -/

/-- Change of a metering engine's state. -/
def Dev.modMtr (s : Dev) (d : Fin 2) (f : MtrSt → MtrSt) : Dev := { s with mtr := vmod s.mtr d f }

/-- Change of a path. -/
def Dev.modPath (s : Dev) (d p : Fin 2) (f : MPath → MPath) : Dev :=
  s.modMtr d fun m => { m with path := vmod m.path p f }

/-- The shot of a path. -/
def Dev.shot (s : Dev) (d p : Fin 2) : Option Shot := (vget (vget s.mtr d).path p).shot

/-- Change of the shot in progress. -/
def Dev.modShot (s : Dev) (d p : Fin 2) (f : Shot → Shot) : Dev :=
  s.modPath d p fun x => { x with shot := x.shot.map f }

/-- Set bits of MTR_IRQ: 0 SHOT, 1 INVALID, 2 ROUND, 3 RTDINV, 4 POVF, 5 ACCSAT, 6 CFGERR,
7 PICKREJ. -/
def Dev.mtrIrq (s : Dev) (d : Fin 2) (b : Nat) : Dev := s.orR R.MTR_IRQ (2 ^ b) d

/-- A write is ignored (MTR_STAT.CFGERR). -/
def Dev.mtrCfgErr (s : Dev) (d : Fin 2) : Dev := (s.setB R.MTR_STAT 26 true d).mtrIrq d 6

/-- CAL_STAT.DEF of the die (R100, R418). -/
def Dev.calDef (s : Dev) (d : Fin 2) : Bool := s.bt R.CAL_STAT 31 d

/-- MTR_STAT: ROUND, BUSY and CALDEF are views. -/
def Dev.mtrStat (s : Dev) (d : Fin 2) : Nat :=
  let m := vget s.mtr d
  s.rg R.MTR_STAT d + b2n m.round.isSome * 2 ^ 30 + b2n (s.shot d 1).isSome * 2 ^ 29
    + b2n (s.shot d 0).isSome * 2 ^ 28 + b2n (s.calDef d) * 2 ^ 27

/-- A report to ring `r` of I/O die 0, or `r` + 4 of I/O die 1 (R417): whether it was taken. While the
compute die is unpowered the post fails. -/
def Dev.mtrPost (s : Dev) (d : Fin 2) (r : Nat) (fs : List (Nat × Nat × Nat)) : Bool × Dev :=
  if !s.cdieOn then (false, s.count R.MTR_POSTLOST 1 d)
  else
    match s.blockPost (r + 4 * d.val) (0x24 + d.val) fs with
    | (none, s) => (false, s)
    | (some c, s) => if c ≤ 1 then (true, s) else (false, s.count R.MTR_POSTLOST 1 d)

/-! ### Accumulators and pulse outputs (R409 to R413) -/

/-- Is a binary64 word finite? -/
def dFinite (w : Nat) : Bool := match f64.dec w with | .fin _ _ _ => true | _ => false

/-- Hold a total between -(2^63 - 1) and 2^63 - 1. -/
def sat63 (x : Int) : Int := max (-(2 ^ 63 - 1)) (min (2 ^ 63 - 1) x)

/-- One accumulator takes an increment (R410). An increment that is no finite number gives no stated
sum: a free value (log entry 27). -/
def Dev.accAdd (s : Dev) (d : Fin 2) (a : Fin 16) (x : Nat) : Dev :=
  let y := if s.bt R.ACC_CFG 8 d a.val then dAbs x else x
  let c := vget (vget s.mtr d).acc a
  let t := dAdd y c.r
  let (n, r, s) := if dFinite t then (dFloor t, dSub t (dInt (dFloor t)), s)
    else (toS 64 s.draw.1, c.r, s.draw.2)
  let sat := decide (sat63 (c.tot + n) ≠ c.tot + n) || decide (sat63 (c.rr + n) ≠ c.rr + n)
  let s := s.modMtr d fun m => { m with acc := vset m.acc a ⟨sat63 (c.tot + n), sat63 (c.rr + n), r⟩ }
  if sat then (s.setB R.ACC_STAT 31 true d a.val).mtrIrq d 5 else s

/-- Most pulses a backlog holds (R413). -/
def Dev.poLimit (s : Dev) (d : Fin 2) (o : Fin 4) : Nat := 2 ^ (s.fld R.PO_CFG 11 8 d o.val + 8)

/-- The backlog gains `n` pulses; those beyond the limit are lost (R413). -/
def Dev.poOwe (s : Dev) (d : Fin 2) (o : Fin 4) (n : Nat) : Dev :=
  let b := s.fld R.PO_STAT 23 0 d o.val
  let k := min (b + n) (max b (s.poLimit d o))
  let s := s.setF R.PO_STAT 23 0 k d o.val
  if k < b + n then
    ((s.count R.PO_LOST (b + n - k) d o.val).setB R.PO_STAT 31 true d o.val).mtrIrq d 4
  else s

/-- A pulse output takes an increment (R412). With WEIGHT 0 the quotient is not stated: a free
value (log entry 27). -/
def Dev.poAdd (s : Dev) (d : Fin 2) (o : Fin 4) (x : Nat) : Dev :=
  let mode := s.fld R.PO_CFG 17 16 d o.val
  let pos := fun w => if f64.neg w then 0 else w
  let y := if mode = 0 then pos x else if mode = 1 then pos (dNeg x) else dAbs x
  let w := dInt (s.rg R.PO_WEIGHT d o.val)
  let c := vget (vget s.mtr d).po o
  let t := dAdd y c.q
  let u := dDiv t w
  let (n, q, s) := if dFinite u then ((dFloor u).toNat, dSub t (dMul (dInt (dFloor u)) w), s)
    else (s.draw.1 % 2 ^ 24, c.q, s.draw.2)
  (s.modMtr d fun m => { m with po := vset m.po o { c with q := q } }).poOwe d o n

/-- An increment of a quantity of R409 reaches every accumulator and output that follows it. -/
def Dev.qty (s : Dev) (d : Fin 2) (q x : Nat) : Dev :=
  let s := (List.finRange 16).foldl (fun s a =>
    if s.fld R.ACC_CFG 3 0 d a.val = q then s.accAdd d a x else s) s
  (List.finRange 4).foldl (fun s o =>
    if s.fld R.PO_CFG 3 0 d o.val = q then s.poAdd d o x else s) s

/-- A write of ACC_CFG (R410, R411). -/
def accCfgWrite (d : Fin 2) (a : Fin 16) (v : Nat) (s : Dev) : Dev :=
  let old := s.rg R.ACC_CFG d a.val
  if bit old 31 = 1 then s
  else
    let s := s.plainWrite R.ACC_CFG v d a.val
    if s.rg R.ACC_CFG d a.val % 512 = old % 512 then s
    else s.modMtr d fun m => { m with acc := vmod m.acc a fun c => { c with r := 0 } }

/-- A write of the word of ACC_STAT and ACC_CLR (R411). -/
def accClrWrite (d : Fin 2) (a : Fin 16) (v : Nat) (s : Dev) : Dev :=
  let s := if bit v 31 = 1 then s.setB R.ACC_STAT 31 false d a.val else s
  if bit v 0 = 1 ∧ s.bt R.ACC_CFG 31 d a.val = false then
    s.modMtr d fun m => { m with acc := vset m.acc a ⟨0, 0, 0⟩ }
  else s

/-- The remainder of an output is cleared. -/
def Dev.poClear (s : Dev) (d : Fin 2) (o : Fin 4) : Dev :=
  s.modMtr d fun m => { m with po := vmod m.po o fun c => { c with q := 0 } }

/-- A write of PO_CFG (R412). -/
def poCfgWrite (d : Fin 2) (o : Fin 4) (v : Nat) (s : Dev) : Dev :=
  if bit v 31 = 1 ∧ s.rg R.PO_WEIGHT d o.val = 0 then s.mtrCfgErr d
  else (s.plainWrite R.PO_CFG v d o.val).poClear d o

/-- A write of PO_WEIGHT (R412). -/
def poWeightWrite (d : Fin 2) (o : Fin 4) (v : Nat) (s : Dev) : Dev :=
  (s.plainWrite R.PO_WEIGHT v d o.val).poClear d o

/-- A write of PO_TIME (R412). -/
def poTimeWrite (d : Fin 2) (o : Fin 4) (v : Nat) (s : Dev) : Dev :=
  if bits v 15 0 = 0 ∨ bits v 31 16 ≤ bits v 15 0 then s.mtrCfgErr d
  else s.plainWrite R.PO_TIME v d o.val

/-- PULSE_START: a 10 µs boundary (R413). 10 µs are 384 TCXO cycles. -/
def pulseStart (d : Fin 2) (o : Fin 4) (s : Dev) : Dev :=
  let c := vget (vget s.mtr d).po o
  let b := s.fld R.PO_STAT 23 0 d o.val
  let now := (vget s.die d).tcxo
  let t := s.rg R.PO_TIME d o.val
  let due := match c.start with | none => true | some x => decide (x + 384 * bits t 31 16 ≤ now)
  if s.bt R.PO_CFG 31 d o.val && b != 0 && !c.on && due then
    (s.setF R.PO_STAT 23 0 (b - 1) d o.val).modMtr d fun m => { m with
      po := vset m.po o { c with on := true, start := some now, width := bits t 15 0 } }
  else s

/-- PULSE_END (R413). -/
def pulseEnd (d : Fin 2) (o : Fin 4) (s : Dev) : Dev :=
  s.modMtr d fun m => { m with po := vmod m.po o fun c => { c with on := false } }

/-- Level of pin MPOo: active is the inverse of POL. -/
def Dev.mpo (s : Dev) (d : Fin 2) (o : Fin 4) : Bool :=
  s.bt R.PO_CFG 30 d o.val != (vget (vget s.mtr d).po o).on

/-! ### RTD inputs (R404 to R406) -/

/-- A of R405, and B and C. -/
def cvdA : Nat := dRat 39083 10000000
def cvdB : Nat := dNeg (dRat 5775 10000000000)
def cvdC : Nat := dNeg (dRat 4183 1000000000000000)

/-- One Newton step on 1 + Aθ + Bθ² + C(θ - 100)θ³ - W. -/
def cvdStep (w t : Nat) : Nat :=
  let t2 := dMul t t
  let t3 := dMul t2 t
  let f := dSub (dAdd (dAdd (dAdd (dInt 1) (dMul cvdA t)) (dMul cvdB t2))
    (dMul (dMul cvdC (dSub t (dInt 100))) t3)) w
  let g := dAdd (dAdd cvdA (dMul (dMul (dInt 2) cvdB) t))
    (dMul cvdC (dSub (dMul (dInt 4) t3) (dMul (dInt 300) t2)))
  dSub t (dDiv f g)

/-- Temperature in m°C of a resistance in mΩ against R0 in mΩ (R405); `none` where the radicand is
negative. -/
def rtdTemp (r : Int) (r0 : Nat) : Option Int :=
  let w := dDiv (dInt r) (dInt r0)
  let one := dInt 1
  let rad := dSub (dMul cvdA cvdA) (dMul (dMul (dInt 4) cvdB) (dSub one w))
  if f64.lt rad 0 then none
  else
    let t := dDiv (dAdd (dNeg cvdA) (dSqrt rad)) (dMul (dInt 2) cvdB)
    let t := if f64.le one w then t else cvdStep w (cvdStep w (cvdStep w t))
    some (dRint (dMul (dInt 1000) t))

/-- A write of RTD_CFG (MTR_STAT.CFGERR). -/
def rtdCfgWrite (d : Fin 2) (i : Fin 4) (v : Nat) (s : Dev) : Dev :=
  if bits v 1 0 = 3 then s.mtrCfgErr d else s.plainWrite R.RTD_CFG v d i.val

/-- A round completes (R406, R417). -/
def Dev.roundDone (s : Dev) (d : Fin 2) (valid : Vector Bool 4) : Dev :=
  let n := (s.rg R.RTD_ROUND d + 1) % 2 ^ 32
  let temp := fun (i : Fin 4) =>
    if s.bt R.RTD_CFG 31 d i.val then
      (⟨toS 32 (s.rg R.RTD_TEMP d i.val), s.bt R.RTD_STAT 1 d i.val⟩ : Temp)
    else .init
  let ts := Vector.ofFn temp
  let s := ((s.wr R.RTD_ROUND n d).setB R.MTR_STAT 31 true d).mtrIrq d 2
  let s := s.modMtr d fun m => { m with round := none, temps := ts }
  let b := (List.finRange 4).foldl (fun b i =>
    b + b2n (vget valid i) * 2 ^ i.val + b2n (vget ts i).tinv * 2 ^ (4 + i.val)) 0
  (s.mtrPost d 10 ([(0x10, 4, n), (0x14, 1, b)]
    ++ ((List.finRange 4).map fun i => (0x18 + 4 * i.val, 4, ofS 32 (vget ts i).t))
    ++ [(0x28, 8, s.ns)])).2

/-- A round starts (R406, R419). -/
def Dev.roundStart (s : Dev) (d : Fin 2) : Dev :=
  let left := (List.finRange 4).filter fun i => s.bt R.RTD_CFG 31 d i.val
  let cfg := Vector.ofFn fun i : Fin 4 => s.rg R.RTD_CFG d i.val
  if left.isEmpty then s.roundDone d (Vector.replicate 4 false)
  else s.modMtr d fun m => { m with round := some ⟨left, cfg, Vector.replicate 4 false, false⟩ }

/-- A write of MTR_CTL (R392, R403, R406): the rise of EN starts the first round, its fall ends a
running one. -/
def mtrCtlWrite (d : Fin 2) (v : Nat) (s : Dev) : Dev :=
  let was := s.bt R.MTR_CTL 31 d
  let s := s.plainWrite R.MTR_CTL v d
  if bit v 31 = 1 ∧ was = false then
    let s := s.setB R.MTR_STAT 31 false d
    let s := (List.range 4).foldl (fun s i =>
      (s.wr R.RTD_TEMP 20000 d i).setB R.RTD_STAT 1 true d i) s
    (s.modMtr d fun m => { m with
      seen := Vector.replicate 4 false, temps := Vector.replicate 4 .init
      path := m.path.map fun x => { x with prev := none } }).roundStart d
  else if bit v 31 = 0 then s.modMtr d fun m => { m with round := none }
  else s

/-- RTD_ROUND_START: a whole multiple of MINT ms (R406). -/
def rtdRoundStart (d : Fin 2) (s : Dev) : Dev :=
  if s.bt R.MTR_CTL 31 d && (vget s.mtr d).round.isNone then s.roundStart d else s

/-- RTD_CONVERSION_DONE with ratio code `D` (R404 to R406, R418). -/
def rtdConversionDone (d : Fin 2) (D : Nat) (s : Dev) : Dev :=
  match (vget s.mtr d).round with
  | none => s
  | some x =>
    match x.left with
    | [] => s.roundDone d x.valid
    | i :: rest =>
      let D : Nat := D % 2 ^ 24
      let r := rhe ((D : Int) * s.cal d 0x30 4) (2 ^ 23) + toS 32 (s.cal d (0x34 + 4 * i.val) 4)
      let ty := bits (vget x.cfg i) 1 0
      let r0 := if ty = 0 then 100000 else if ty = 1 then 500000 else 1000000
      let th := rtdTemp r r0
      let opened := decide (0xFFFF00 ≤ D)
      let short := decide (D < 256)
      let inRange := match th with
        | none => false
        | some t => decide (-50000 ≤ t) && decide (t ≤ 150000)
      let ok := !opened && !short && inRange && !x.brown
      let s := s.wr R.RTD_RES (ofS 32 r) d i.val
      let s := if ok then
          (s.wr R.RTD_TEMP (ofS 32 (th.getD 0)) d i.val).modMtr d fun m => { m with
            seen := vset m.seen i true }
        else (s.count R.MTR_RTDINV 1 d).mtrIrq d 3
      let s := s.wr R.RTD_STAT (b2n ok + 2 * b2n (!ok) + 4 * b2n opened + 8 * b2n short
        + 16 * b2n (!inRange) + 32 * b2n (s.calDef d)) d i.val
      let valid := vset x.valid i ok
      if rest.isEmpty then s.roundDone d valid
      else s.modMtr d fun m => { m with round := some { x with left := rest, valid := valid, brown := false } }

/-- A write of MTR_MINT (R406). -/
def mtrMintWrite (d : Fin 2) (v : Nat) (s : Dev) : Dev :=
  if 100 ≤ v % 65536 ∧ v % 65536 ≤ 60000 then s.plainWrite R.MTR_MINT v d else s.mtrCfgErr d

/-! ### Shots (R392 to R397) -/

/-- A write of PATH_DRV (R394). -/
def pathDrvWrite (d p : Fin 2) (v : Nat) (s : Dev) : Dev :=
  if bits v 20 16 = 0 ∨ bits v 9 0 < 76 ∨ 614 < bits v 9 0 then s.mtrCfgErr d
  else s.plainWrite R.PATH_DRV v d p.val

/-- A latched configuration word of a shot: 0 DRV, 1 CAP, 2 HIT, 3 HITREF, 4 L, 5 X, 6 AREA, 7 W,
8 OPT, 9 SETTLE, 10 PICK, 11 GAPMAX. -/
def Shot.c (x : Shot) (i : Nat) : Nat := x.cfg.getD i 0

/-- Temperature of the RTD input that a path names. -/
def Shot.theta (x : Shot) : Temp := vget x.temps (Fin.ofNat 4 (bits (x.c 8) 17 16))

/-- A meter-shot action of the timetable (R392). -/
def Dev.meterShot (s : Dev) (d p : Fin 2) : Dev :=
  if !s.bt R.MTR_CTL 31 d || !s.bt R.MTR_CTL p.val d || !s.bt R.MTR_STAT 31 d then
    s.count R.MTR_NOTREADY 1 d p.val
  else if (s.shot d p).isSome then s.count R.MTR_BUSY 1 d p.val
  else
    let s := s.count R.MTR_SHOTS 1 d p.val
    let (x, s) := s.draw
    let cfg := [R.PATH_DRV, R.PATH_CAP, R.PATH_HIT, R.PATH_HITREF, R.PATH_L, R.PATH_X, R.PATH_AREA,
      R.PATH_W, R.PATH_OPT, R.PATH_SETTLE, R.PATH_PICK, R.PATH_GAPMAX].map fun r => s.rg r d p.val
    let t0 := (s.ns + 5 + x % 21) % 2 ^ 64
    let rn := s.rg R.RTD_ROUND d
    let ts := (vget s.mtr d).temps
    s.modPath d p fun q => { q with
      seq := (q.seq + 1) % 2 ^ 32
      shot := some ⟨q.seq, t0, s.trust, s.calDef d, false, .down, cfg, ts, rn, none, none, 0, 0, none⟩ }

/-- Value of a temperature table (R400): 0 phase, 1 gain. -/
def Dev.ttab (s : Dev) (d p : Fin 2) (t : Nat) (th : Int) : Int :=
  let u := (min (max (th + 40000) 0) 160000).toNat
  let k := min (u / 5000) 31
  let r := u - 5000 * k
  let e := fun k => toS 16 (s.cal d (0x200 + ((2 * p.val + t) * 33 + k) * 2) 2)
  rhe (e k * (5000 - r : Nat) + e (k + 1) * (r : Nat)) 5000

/-- The corrected sample of R395. -/
def Dev.echo (s : Dev) (d p : Fin 2) (g : Int) (x : Int) : Int :=
  let off := toS 16 (s.cal d (0xF2 + 4 * p.val) 2)
  let gain : Int := s.cal d (0xF0 + 4 * p.val) 2
  clampS 12 (rhe ((clampS 12 x + off) * gain * (32768 + g)) (2 ^ 30))

/-- The classic method over one direction (R396, R397): raw samples and stamps of the crossings. -/
def Dev.classic (s : Dev) (d p : Fin 2) (x : Shot) (raw hits : List Int) : MeasDir :=
  let cap := x.c 1
  let len := 64 * (bits cap 15 12 + 1)
  let thr : Int := (max 1 (bits cap 10 0) : Nat)
  let raw := (List.range len).map fun i => clampS 12 (raw.getD i 0)
  let g := s.ttab d p 1 x.theta.t
  let past := fun v => let e := s.echo d p g v; if bit cap 11 = 0 then decide (thr ≤ e) else decide (e ≤ -thr)
  let ion := raw.findIdx? past
  let n := 2 ^ bits (x.c 2) 1 0
  let skip := bits (x.c 2) 6 4
  let kept := match ion with
    | none => []
    | some i =>
      let ton : Int := ((bits cap 31 16 + i) * 8000 : Nat)
      ((hits.filter fun h => decide (ton ≤ h) && decide (h < 2 ^ 29 - 1)).drop skip).take n
  let noecho := ion.isNone || decide (kept.length < n)
  ⟨raw, ion, if noecho then 0 else rhe (kept.foldl (· + ·) 0) n - toS 32 (x.c 3),
    !noecho && kept.any (· == 0), hits.any fun h => decide (h < 0), noecho⟩

/-- The capture buffer of a path and direction takes raw samples. -/
def Dev.putCap (s : Dev) (r : RegDef) (d p : Fin 2) (raw : List Int) : Dev :=
  (List.range (raw.length / 2)).foldl (fun s w =>
    s.wr r (ofS 16 (raw.getD (2 * w) 0) + ofS 16 (raw.getD (2 * w + 1) 0) * 65536) d p.val w) s

/-- SHOT_UP_START: the down measurement is taken and the up start edge drives (R393). -/
def shotUpStart (d p : Fin 2) (raw hits : List Int) (s : Dev) : Dev :=
  match s.shot d p with
  | none => s
  | some x =>
    if x.phase = .down then
      let m := s.classic d p x raw hits
      (s.putCap R.CAP_DN d p m.raw).modShot d p fun x => { x with phase := .up, dn := some m }
    else s

/-- NOECHO or ORDER in either direction. -/
def Shot.bad (x : Shot) : Bool :=
  let b := fun (m : Option MeasDir) => match m with | none => true | some m => m.noecho || m.order
  b x.dn || b x.up

/-- SHOT_MEASURE_END: the up measurement ends and a pick request may be posted (R393, R398). -/
def shotMeasureEnd (d p : Fin 2) (raw hits : List Int) (s : Dev) : Dev :=
  match s.shot d p with
  | none => s
  | some x =>
    if x.phase = .up then
      let m := s.classic d p x raw hits
      let x := { x with up := some m, phase := .ready }
      let s := s.putCap R.CAP_UP d p m.raw
      let win := bits (x.c 10) 31 16
      let (tk, s) := if win = 0 ∨ x.bad = true then (false, s)
        else match x.dn with
          | none => (false, s)
          | some dn => s.mtrPost d 9 [(0x10, 4, x.seq), (0x14, 1, p.val), (0x16, 2, m.raw.length),
              (0x18, 4, bits (x.c 1) 31 16), (0x1C, 2, dn.ion.getD 0), (0x1E, 2, m.ion.getD 0),
              (0x20, 4, ofS 32 dn.tc), (0x24, 4, ofS 32 m.tc), (0x28, 8, s.ns + 1000 * win),
              (0x30, 8, x.t0)]
      let now := (vget s.die d).tcxo
      s.modPath d p fun q => { q with shot := some (if tk then
          { x with phase := .pick, wend := now + 192 * win / 5 } else x) }
    else s

/-! ### Learned picks (R398, R399) -/

/-- The pick of a shot is settled: PSTAT with its counters. -/
def Dev.pickEnd (s : Dev) (d p : Fin 2) (pstat : Nat) (v : Option (Int × Int)) : Dev :=
  let s := s.modShot d p fun x => { x with phase := .ready, pstat := pstat, learned := v }
  let s := if pstat = 1 then s.count R.MTR_PICKOK 1 d p.val
    else if pstat = 2 then s.count R.MTR_PICKLATE 1 d p.val
    else s.count R.MTR_PICKREJ 1 d p.val
  if pstat = 1 then s else s.mtrIrq d 7

/-- A write of PICK_CMT (R399): the conditions in their order. A wrong SEQ is remembered, and only a
matching write ends the wait. -/
def pickCommitWrite (d p : Fin 2) (v : Nat) (s : Dev) : Dev :=
  match s.shot d p with
  | none => s
  | some x =>
    if x.phase ≠ .pick then s
    else if x.wend < (vget s.die d).tcxo then s.pickEnd d p 2 none
    else if v % 2 ^ 32 ≠ x.seq then s.modShot d p fun x => { x with pstat := 3 }
    else
      let a := toS 32 (s.rg R.PICK_DN d p.val)
      let b := toS 32 (s.rg R.PICK_UP d p.val)
      let inR := fun (t : Int) => decide (1 ≤ t) && decide (t < 2 ^ 29)
      let gate : Int := bits (x.c 10) 15 0
      let tc := fun (m : Option MeasDir) => match m with | none => 0 | some m => m.tc
      let near := fun (t c : Int) => decide ((t - c).natAbs ≤ gate)
      if !(inR a && inR b) then s.pickEnd d p 5 none
      else if !(near a (tc x.dn) && near b (tc x.up)) then s.pickEnd d p 4 none
      else s.pickEnd d p 1 (some (a, b))

/-- PICK_WINDOW_CLOSE (R399). -/
def pickWindowClose (d p : Fin 2) (s : Dev) : Dev :=
  match s.shot d p with
  | none => s
  | some x => if x.phase = .pick then s.pickEnd d p (if x.pstat = 3 then 3 else 2) none else s

/-! ### Flow, heat and gas (R400 to R408) -/

/-- Calibrated time of a direction (R400). -/
def Dev.tcal (s : Dev) (d p : Fin 2) (dir : Nat) (th : Int) (raw : Int) : Int :=
  let c := 2 * p.val + dir
  rhe (raw * s.cal d (0x20 + 4 * c) 4) (2 ^ 30) - toS 32 (s.cal d (0x10 + 4 * c) 4) - s.ttab d p 0 th

/-- TDC codes in seconds. -/
def tdcSec (t : Int) : Nat := dMul (dInt t) (dRat 78125 10000000000000000)

/-- The k-factor at |v| in mm/s, and KERR (R402). -/
def Dev.kFactor (s : Dev) (d p : Fin 2) (u : Nat) : Nat × Bool :=
  let kv := fun j => s.rg R.KV d p.val j
  let kf := fun j => dOfF32 (s.rg R.KF d p.val j)
  if (List.range 15).any fun j => decide (kv (j + 1) ≤ kv j) then (dInt 1, true)
  else if f64.lt u (dInt (kv 0)) then (kf 0, false)
  else if f64.lt (dInt (kv 15)) u then (kf 15, false)
  else
    let j := ((List.range 15).filter fun j => f64.le (dInt (kv j)) u).length - 1
    (dAdd (kf j) (dDiv (dMul (dSub (kf (j + 1)) (kf j)) (dSub u (dInt (kv j))))
      (dSub (dInt (kv (j + 1))) (dInt (kv j)))), false)

/-- Velocity, flow, KERR and CUT of a shot (R402). -/
def Dev.flow (s : Dev) (d p : Fin 2) (x : Shot) (tdn tup : Int) : Nat × Nat × Bool × Bool :=
  let l := dMul (dInt (x.c 4)) (dRat 1 1000000)
  let geo := dDiv (dMul l l) (dMul (dMul (dInt 2) (dInt (x.c 5))) (dRat 1 1000000))
  let zero := x.c 4 == 0 || x.c 5 == 0
  let v := if zero then 0
    else dDiv (dMul geo (tdcSec (tup - tdn))) (dMul (tdcSec tdn) (tdcSec tup))
  let u := dMul (dInt 1000) (dAbs v)
  let cut := f64.lt u (dInt (bits (x.c 8) 15 0))
  let v := if cut then 0 else v
  let (k, kerr) := s.kFactor d p (dMul (dInt 1000) (dAbs v))
  (v, dMul (dMul (dMul v k) (dInt (x.c 6))) (dRat 1 1000000), zero || kerr, cut)

/-- Linear interpolation in WTAB (R407). -/
def Dev.wtab (s : Dev) (r : RegDef) (d : Fin 2) (th : Int) : Nat :=
  let u := (min (max th 0) 160000).toNat
  let j := min (u / 10000) 15
  let e := fun j => dInt (s.rg r d j)
  dAdd (e j) (dDiv (dMul (dSub (e (j + 1)) (e j)) (dInt (u - 10000 * j : Nat))) (dInt 10000))

/-- Flags that a contribution adds: TINV, TRANGE, PSTALE. -/
structure QFlags where
  tinv : Bool
  trange : Bool
  pstale : Bool

/-- Heat energy of a contribution, J (R407). -/
def Dev.heat (s : Dev) (d : Fin 2) (x : Shot) (dv : Nat) : Nat × QFlags :=
  let c := s.rg R.HEAT_CFG d
  let f := vget x.temps (Fin.ofNat 4 (bits c 5 4))
  let r := vget x.temps (Fin.ofNat 4 (bits c 3 2))
  let m := if bit c 0 = 0 then f else r
  let out := fun (t : Int) => decide (t < 0) || decide (160000 < t)
  let e := if (f.t - r.t).natAbs < s.rg R.HEAT_DTMIN d then 0
    else dMul (dMul dv (dMul (s.wtab R.WTAB_D d m.t) (dRat 1 100)))
      (dSub (s.wtab R.WTAB_H d f.t) (s.wtab R.WTAB_H d r.t))
  (e, ⟨f.tinv || r.tinv, out f.t || out r.t, false⟩)

/-- Gas volume at base conditions of a contribution, m³ (R408). -/
def Dev.gas (s : Dev) (d : Fin 2) (x : Shot) (dv : Nat) : Nat × QFlags :=
  let g := vget x.temps (Fin.ofNat 4 (s.fld R.GAS_CFG 1 0 d))
  let stale := match (vget s.mtr d).press with
    | none => true
    | some t => decide (s.rg R.PMAXAGE d * 1000000 < s.ns - t)
  let v := if (vget s.mtr d).press.isNone then 0
    else dMul (dMul (dMul dv (dDiv (dInt (s.rg R.PRESS d)) (dInt (s.rg R.GAS_PB d))))
      (dDiv (dInt (s.rg R.GAS_TB d)) (dInt (g.t + 273150)))) (dOfF32 (s.rg R.GAS_Z d))
  (v, ⟨g.tinv, false, stale⟩)

/-- Does SRC of HEAT_CFG or GAS_CFG name a quantity to which path `p` contributes? -/
def srcNames (src : Nat) (p : Fin 2) : Bool := src == p.val + 1 || src == 3

/-- A contribution ΔV of path `p` (R403, R407 to R409). -/
def Dev.contribute (s : Dev) (d p : Fin 2) (x : Shot) (dv : Nat) : QFlags × Dev :=
  let ul := dMul dv (dInt 1000000000)
  let s := (s.qty d (1 + p.val) ul).qty d 3 ul
  let (hf, s) := if srcNames (s.fld R.HEAT_CFG 9 8 d) p then
      let (e, f) := s.heat d x dv
      (f, s.qty d 4 (dMul e (dInt 1000)))
    else (⟨false, false, false⟩, s)
  if srcNames (s.fld R.GAS_CFG 9 8 d) p then
    let (v, f) := s.gas d x dv
    (⟨hf.tinv || f.tinv, hf.trange, f.pstale⟩, s.qty d 5 (dMul v (dInt 1000000000)))
  else (hf, s)

/-- Interval of a valid shot in ns, the excess over GAPMAX, GAP and FIRST (R403). -/
def gapOf (t : Nat) (prev : Option Nat) (gapmax : Nat) : Nat × Nat × Bool × Bool :=
  match prev with
  | none => (0, 0, false, true)
  | some q =>
    if t < q then (0, 0, false, false)
    else
      let g := gapmax * 1000000
      (min (t - q) g, t - q - g, decide (g < t - q), false)

/-- The results of a shot that depend on both echoes: times, velocity and flow. A direction without an
echo has none, and its numbers are free values (log entry 27). -/
def Dev.shotTimes (s : Dev) (d p : Fin 2) (x : Shot) (dn up : MeasDir) :
    Int × Int × (Nat × Nat × Bool × Bool) × Dev :=
  let raw := x.learned.getD (dn.tc, up.tc)
  let th := x.theta.t
  let (a, s) := if dn.noecho then (toS 32 s.draw.1, s.draw.2) else (s.tcal d p 0 th raw.1, s)
  let (b, s) := if up.noecho then (toS 32 s.draw.1, s.draw.2) else (s.tcal d p 1 th raw.2, s)
  (a, b, s.flow d p x a b, s)

/-- SHOT_RESULT: the result is computed, accumulated and posted, and the path is free (R393, R400 to
R403, R417). -/
def shotResult (d p : Fin 2) (s : Dev) : Dev :=
  match s.shot d p with
  | none => s
  | some x =>
    match x.phase, x.dn, x.up with
    | .ready, some dn, some up =>
      let (tdn, tup, (v, q, kerr, cut), s) := s.shotTimes d p x dn up
      let noecho := dn.noecho || up.noecho
      let order := dn.order || up.order
      let under := dn.under || up.under
      let nonpos := (!dn.noecho && decide (tdn ≤ 0)) || (!up.noecho && decide (tup ≤ 0))
      let valid := !(order || noecho || nonpos || x.brown)
      let (dt, exc, gap, first) := if valid then
          gapOf x.t0 (vget (vget s.mtr d).path p).prev (x.c 11)
        else (0, 0, false, false)
      let dv := dMul (dMul q (dDiv (dInt dt) (dInt 1000000000))) (dOfF32 (x.c 7))
      let (f, s) := if valid && !first then s.contribute d p x dv else (⟨false, false, false⟩, s)
      let s := if valid then
          (s.modPath d p fun y => { y with prev := some x.t0 }).modMtr d fun m => { m with
            errNs := m.errNs + exc }
        else s
      let cnt := fun (b : Bool) (r : RegDef) (s : Dev) => if b then s.count r 1 d p.val else s
      let s := cnt nonpos R.MTR_NONPOS (cnt noecho R.MTR_NOECHO (cnt order R.MTR_ORDER
        (cnt under R.MTR_UNDER (cnt valid R.MTR_VALID s))))
      let fl := [valid, under, order, noecho, nonpos, x.theta.tinv || f.tinv, x.caldef, x.pstat == 1,
        x.brown, f.trange, f.pstale, x.trust, kerr, cut, gap, first]
      let flags := (fl.zipIdx.map fun b => b2n b.1 * 2 ^ b.2).sum
      let (v, q) := (dToF32 v, dToF32 q)
      let s := (s.wr R.LAST_SEQ x.seq d p.val).wr R.LAST_FLAGS (flags + x.pstat * 65536) d p.val
      let s := (s.wr R.LAST_TDN (ofS 32 tdn) d p.val).wr R.LAST_TUP (ofS 32 tup) d p.val
      let s := (s.wr R.LAST_V v d p.val).wr R.LAST_Q q d p.val
      let s := (s.wr R.LAST_TIME x.t0 d p.val).wr R.LAST_TEMP (ofS 32 x.theta.t) d p.val
      let s := if valid then s.mtrIrq d 0 else (s.mtrIrq d 0).mtrIrq d 1
      let s := s.modPath d p fun y => { y with shot := none }
      (s.mtrPost d 8 [(0x10, 4, x.seq), (0x14, 1, p.val), (0x15, 1, x.pstat), (0x16, 2, flags),
        (0x18, 4, ofS 32 tdn), (0x1C, 4, ofS 32 tup), (0x20, 4, v), (0x24, 4, q), (0x28, 8, x.t0),
        (0x30, 4, ofS 32 x.theta.t), (0x34, 2, x.round)]).2
    | _, _, _ => s

/-- A write of PRESS (R408). -/
def pressWrite (d : Fin 2) (v : Nat) (s : Dev) : Dev :=
  (s.plainWrite R.PRESS v d).modMtr d fun m => { m with press := some s.ns }

/-- ACC_TIME_TICK: a millisecond of station time (R409). -/
def accTimeTick (d : Fin 2) (s : Dev) : Dev :=
  let n := (vget s.mtr d).errNs / 1000000
  let s := if s.bt R.MTR_CTL 31 d then s.qty d 0xA (dInt 1) else s
  let s := if n = 0 then s else s.qty d 0xB (dInt n)
  s.modMtr d fun m => { m with errNs := m.errNs % 1000000 }

/-! ### Station-power channels (R414 to R416) -/

/-- A write of SP_CFG. -/
def spCfgWrite (d : Fin 2) (c : Fin 6) (v : Nat) (s : Dev) : Dev :=
  if bits v 1 0 = 3 then s.mtrCfgErr d else s.plainWrite R.SP_CFG v d c.val

/-- A sample converted to µV or µA (R414). -/
def Dev.spConv (s : Dev) (d : Fin 2) (c : Fin 6) (cfg r : Nat) (D : Int) : Int :=
  let v := rhe (D * s.rg R.SP_UNIT d c.val * s.cal d (0x100 + 8 * c.val) 4) (4 ^ r * 2 ^ 30 * 10 ^ 6)
    + toS 32 (s.cal d (0x104 + 8 * c.val) 4)
  if bit cfg 31 = 1 then -v else v

/-- One channel takes a sample (R415): its value and the channel after it. -/
def Dev.spSample (s : Dev) (d : Fin 2) (c : Fin 6) (D : Int) : Int × Dev :=
  let D := clampS 24 D
  let x := vget (vget s.mtr d).sp c
  let cfg := s.rg R.SP_CFG d c.val
  let cur := c.val % 2 == 1
  let fixed := bit cfg 8 == 1
  -- a new range takes effect at this boundary
  let x := if cur && fixed && bits cfg 1 0 != x.range then
      { x with range := bits cfg 1 0, hold := 4, quiet := 0 } else x
  let clip := cur && (D == 2 ^ 23 - 1 || D == -(2 ^ 23))
  let held := cur && x.hold != 0
  let rep := held || (clip && !fixed)
  let v := if rep then x.good else s.spConv d c cfg x.range D
  let good := if rep || clip then x.good else v
  let s := if held then s.count R.MTR_SPHELD 1 d else s
  let s := if clip then s.count R.MTR_SPCLIP 1 d else s
  let s := s.wr R.SP_STAT (b2n (s.calDef d) * 2 ^ 31 + b2n held * 2 ^ 30 + b2n clip * 2 ^ 29 + x.range)
    d c.val
  let quiet := if rep then x.quiet else if D.natAbs < 3 * 2 ^ 19 then x.quiet + 1 else 0
  let x := { x with cfg := cfg, good := good, hold := x.hold - 1, quiet := quiet, sum := x.sum + v }
  let x := if !cur || fixed then x
    else if (7 * 2 ^ 20 ≤ D.natAbs ∨ clip = true) ∧ 0 < x.range then
      { x with range := x.range - 1, hold := 4, quiet := 0 }
    else if 256 ≤ x.quiet ∧ x.range < 2 then { x with range := x.range + 1, hold := 4, quiet := 0 }
    else x
  (v, s.modMtr d fun m => { m with sp := vset m.sp c x })

/-- The energies and the charge of one sample (R409, R416): solar, battery and load voltages and
currents. -/
def Dev.spQuantities (s : Dev) (d : Fin 2) (v : List Int) : Dev :=
  let e := fun (k : Nat) (i : Int) => dMul (dMul (dInt (v.getD k 0)) (dInt i)) (dRat 625 10000000000000)
  let i := fun k => v.getD k 0
  let s := s.qty d 6 (e 0 (max 0 (i 1)))
  let s := s.qty d 7 (e 2 (i 3))
  let s := s.qty d 8 (e 4 (max 0 (i 5)))
  s.qty d 9 (dMul (dInt (i 3)) (dRat 625 10000000))

/-- SP_SAMPLE: the six channels sample; the 16th sample of a tick hands its means over (R414 to R416).
A sample taken in a brownout is left out and spoils the tick (R54). -/
def spSample (d : Fin 2) (codes : List Int) (s : Dev) : Dev :=
  let low := vget s.pwr.mtrLow d
  let s := s.modPwr fun p => { p with mtrLow := vset p.mtrLow d false }
  let (vs, s) := (List.finRange 6).foldl (fun (a : List Int × Dev) c =>
    let (v, s) := a.2.spSample d c (codes.getD c.val 0)
    (a.1 ++ [v], s)) ([], s)
  let s := if low then s else s.spQuantities d vs
  let s := s.modMtr d fun m => { m with spN := m.spN + 1, spBad := m.spBad || low }
  let m := vget s.mtr d
  if m.spN < 16 then s
  else
    let sum := fun (c : Fin 6) => (vget m.sp c).sum
    let s := (List.finRange 6).foldl (fun s c => s.wr R.SP_VAL (ofS 32 (rhe (sum c) 16)) d c.val) s
    let s := s.modMtr d fun m => { m with
      spN := 0, spBad := false, sp := m.sp.map fun x => { x with sum := 0 } }
    if d = 0 then
      s.modLdg fun l => { l with
        mean := if m.spBad then none else some (Vector.ofFn fun c => rhe (sum c) 16000) }
    else s

/-- BROWNOUT_VDDA_MTR: every shot, conversion and sample in progress is marked (R54, R401, R405). -/
def brownoutVddaMtr (d : Fin 2) (s : Dev) : Dev :=
  let s := (s.bod d 2).modPwr fun p => { p with mtrLow := vset p.mtrLow d true }
  s.modMtr d fun m => { m with
    round := m.round.map fun r => { r with brown := true }
    path := m.path.map fun x => { x with shot := x.shot.map fun y => { y with brown := true } } }

end Sys2Proof.Machine
end

