-- ==== Sys2Proof/Machine/Acoustic.lean ====
section
/-!
DEFINITION. The acoustic inputs of an I/O die (R422 to R435): gain correction, autoranging, capture
groups and their frames.
-/

namespace Sys2Proof.Machine

/-- Change of an acoustic block's state. -/
def Dev.modAco (s : Dev) (d : Fin 2) (f : AcoSt → AcoSt) : Dev := { s with aco := vmod s.aco d f }

/-- Change of a ΣΔ input. -/
def Dev.modSd (s : Dev) (d : Fin 2) (i : Fin 8) (f : SdSt → SdSt) : Dev :=
  s.modAco d fun a => { a with sd := vmod a.sd i f }

/-- Change of a capture group. -/
def Dev.modGrp (s : Dev) (d : Fin 2) (g : Fin 4) (f : GrpSt → GrpSt) : Dev :=
  s.modAco d fun a => { a with grp := vmod a.grp g f }

/-- A ΣΔ input. -/
def Dev.sdIn (s : Dev) (d : Fin 2) (i : Fin 8) : SdSt := vget (vget s.aco d).sd i

/-- A capture group. -/
def Dev.grp (s : Dev) (d : Fin 2) (g : Fin 4) : GrpSt := vget (vget s.aco d).grp g

/-- Raise a bit of AC_IRQ: 0 published, 1 dropped, 2 CFGERR, 3 REALIGN, 4 refused write, 5 clip at
GMIN. -/
def Dev.acIrq (s : Dev) (d : Fin 2) (b : Nat) : Dev := s.orR R.AC_IRQ (2 ^ b) d

/-- A write is ignored (AC_STAT.CFGERR). -/
def Dev.acCfgErr (s : Dev) (d : Fin 2) : Dev := (s.setB R.AC_STAT 30 true d).acIrq d 2

/-- Sample rate of a code (R422). -/
def acRate (c : Nat) : Nat := if c = 0 then 8000 else if c = 1 then 16000 else if c = 2 then 32000 else 48000

/-- A group is enabled. -/
def Dev.grpEn (s : Dev) (d : Fin 2) (g : Fin 4) : Bool := s.bt R.GRP_CFG 31 d g.val

/-- Channels of a group: input 0 to 7, then slot 8 to 23 of port 0 and 24 to 39 of port 1 (R430). -/
def Dev.grpChans (s : Dev) (d : Fin 2) (g : Fin 4) : List Nat :=
  let w := s.rg R.GRP_SDMASK d g.val % 256 + s.rg R.GRP_TDM d g.val * 2 ^ 8
  (List.range 40).filter fun i => bit w i == 1

/-- LOG2NBUF: values other than 1 to 8 act as 1. -/
def log2nbuf (cfg : Nat) : Nat :=
  let n := bits cfg 27 24
  if 1 ≤ n ∧ n ≤ 8 then n else 1

/-- FSIZE (R432). -/
def fsize (nch len : Nat) : Nat := 64 + 64 * ((nch + 3) / 4) + nch * len * 4

/-! ### Gain correction and autoranging (R426 to R429) -/

/-- SD_GAIN of an input at a gain step. -/
def Dev.sdGain (s : Dev) (d : Fin 2) (i : Fin 8) (j : Nat) : Nat := s.cal d (0x50 + 2 * (8 * i.val + j)) 2

/-- SD_OFF of an input. -/
def Dev.sdOff (s : Dev) (d : Fin 2) (i : Fin 8) : Int := toS 32 (s.cal d (0xD0 + 4 * i.val) 4)

/-- The corrected value of a code at step `j` (R426). -/
def Dev.sdCorr (s : Dev) (d : Fin 2) (i : Fin 8) (j : Nat) (D : Int) : Corr :=
  ⟨(D + s.sdOff d i) * s.sdGain d i j, 15 + j⟩

/-- The code that stands for a corrected value at step `j` (R428). With SD_GAIN 0 the quotient is not
stated: a free value (log entry 28). -/
def Dev.sdCode (s : Dev) (d : Fin 2) (i : Fin 8) (j : Nat) (c : Corr) : Int :=
  let g := s.sdGain d i j
  if g = 0 then toS 24 (Config.free s.free)
  else clampS 24 (rhe (c.num * 2 ^ (15 + j)) (g * 2 ^ c.e) - s.sdOff d i)

/-- A code at which the converter clipped (R424). -/
def acClipped (D : Int) : Bool := D == 2 ^ 23 - 1 || D == -2 ^ 23

/-- Sample word (R424). -/
def sampleWord (D : Int) (held clip tdm : Bool) (j : Nat) : Nat :=
  ofS 24 D * 256 + b2n held * 128 + b2n clip * 64 + b2n tdm * 32 + j

/-- The step that a configuration word gives an input that stands at step `j`. -/
def cfgStep (cfg j : Nat) : Nat :=
  if bit cfg 31 = 0 then bits cfg 2 0 else max (bits cfg 14 12) (min (bits cfg 10 8) j)

/-- A write of SD_CFG takes effect at the sample boundary (R429). -/
def Dev.sdTakeCfg (s : Dev) (d : Fin 2) (i : Fin 8) : Dev :=
  let c := s.rg R.SD_CFG d i.val
  s.modSd d i fun x =>
    if x.cfg = c then x
    else if cfgStep c x.step = x.step then { x with cfg := c }
    else { x with cfg := c, step := cfgStep c x.step, hold := 4, quiet := 0 }

/-- Show an input's hold and step in SD_STAT. -/
def Dev.sdShow (s : Dev) (d : Fin 2) (i : Fin 8) : Dev :=
  s.wr R.SD_STAT ((s.sdIn d i).hold * 256 + (s.sdIn d i).step) d i.val

/-- One sample of a ΣΔ input with raw code `D`: what is delivered, and the gain decision (R427,
R428). A clipped sample at GMIN is delivered as it is even during a hold (log entry 28). -/
def Dev.sdSample (s : Dev) (d : Fin 2) (i : Fin 8) (D : Int) : AcSample × Dev :=
  let D := clampS 24 D
  let s := s.sdTakeCfg d i
  let x := s.sdIn d i
  let j := x.step
  let auto := bit x.cfg 31 == 1
  let gmin := bits x.cfg 14 12
  let gmax := bits x.cfg 10 8
  let clip := acClipped D
  let held := decide (0 < x.hold) && !(clip && j == gmin)
  let down := auto && (decide (7 * 2 ^ 20 ≤ D.natAbs) || clip) && decide (gmin < j)
  let repl := held || (clip && down)
  let quiet := if 0 < x.hold then x.quiet else if D.natAbs < 3 * 2 ^ 19 then x.quiet + 1 else 0
  let up := !down && auto && x.hold == 0 && decide (j < gmax) && decide (2 ^ bits x.cfg 7 4 ≤ quiet)
  let E := if repl then s.sdCode d i j x.good else D
  let s := if repl ∧ s.sdGain d i j = 0 then { s with free := s.free + 1 } else s
  let c := s.sdCorr d i j E
  let s := s.when repl fun s => s.count R.AC_HELD 1 d
  let s := s.when (clip && j == gmin) fun s => (s.count R.AC_CLIPMIN 1 d).acIrq d 5
  let s := s.modSd d i fun x => { x with
    good := if !repl && !clip then c else x.good
    step := if down then j - 1 else if up then j + 1 else j
    hold := if down || up then 4 else x.hold - 1
    quiet := if down || up then 0 else quiet }
  (⟨sampleWord E held clip false j, c⟩, s.sdShow d i)

/-- One sample of a TDM slot (R424, R425). -/
def Dev.tdmSample (s : Dev) (d : Fin 2) (p w : Nat) : AcSample :=
  let D := if s.bt R.TDM_CFG 6 d p then toS 24 (w / 256) else toS 16 w * 256
  ⟨sampleWord D false (acClipped D) true 0, ⟨D, 0⟩⟩

/-- A write of SD_CFG (R429). -/
def sdCfgWrite (d : Fin 2) (i : Fin 8) (v : Nat) (s : Dev) : Dev :=
  if bits v 10 8 < bits v 14 12 ∨ bits v 7 4 < 6 ∨ 14 < bits v 7 4 then s.acCfgErr d
  else s.plainWrite R.SD_CFG v d i.val

/-- BCLK of a port configuration (R425). -/
def tdmBclk (v : Nat) : Nat :=
  acRate (bits v 1 0) * 2 ^ (bits v 5 4 + 1) * (if bit v 6 = 1 then 32 else 16)

/-- A write of TDM_CFG (R425). -/
def tdmCfgWrite (d p : Fin 2) (v : Nat) (s : Dev) : Dev :=
  if 49152000 % tdmBclk v ≠ 0 ∨ 24576000 < tdmBclk v then s.acCfgErr d
  else s.plainWrite R.TDM_CFG v d p.val

/-! ### Capture groups (R430 to R435) -/

/-- The conditions for enabling a group with configuration word `v` (R431). -/
def Dev.grpOk (s : Dev) (d : Fin 2) (g : Fin 4) (v : Nat) : Bool :=
  let ch := s.grpChans d g
  let len := 16 * bits v 8 0
  let a := s.fld R.GRP_BASE 39 6 d g.val * 64
  let n := 2 ^ log2nbuf v * fsize ch.length len
  let port := fun (p : Nat) =>
    let m := bits (s.rg R.GRP_TDM d g.val) (16 * p + 15) (16 * p)
    m == 0 || (s.bt R.TDM_CFG 31 d p && s.fld R.TDM_CFG 1 0 d p == bits v 29 28
      && decide (m < 2 ^ 2 ^ (s.fld R.TDM_CFG 5 4 d p + 1)))
  !ch.isEmpty
    && (List.finRange 4).all (fun h => h == g || !s.grpEn d h || !ch.any fun c => c ∈ s.grpChans d h)
    && port 0 && port 1 && (inAtrium a n || s.inStack a n) && decide (64 ≤ len) && decide (len ≤ 4096)

/-- Inputs of a group. -/
def Dev.grpIns (s : Dev) (d : Fin 2) (g : Fin 4) : List (Fin 8) :=
  (List.finRange 8).filter fun i => s.bt R.GRP_SDMASK i.val d g.val

/-- An input starts with its group (R429). -/
def Dev.sdStart (s : Dev) (d : Fin 2) (i : Fin 8) : Dev :=
  let c := s.rg R.SD_CFG d i.val
  (s.modSd d i fun _ => ⟨c, if bit c 31 = 0 then bits c 2 0 else bits c 10 8, 0, 0, ⟨0, 0⟩⟩).sdShow d i

/-- An input whose group is disabled: no hold and no last good value (R435). -/
def Dev.sdStop (s : Dev) (d : Fin 2) (i : Fin 8) : Dev :=
  (s.modSd d i fun x => { x with hold := 0, quiet := 0, good := ⟨0, 0⟩ }).sdShow d i

/-- The frame in progress is abandoned unpublished, and the next frame carries DISC (R423, R435).
Whether a complete frame that is not published yet counts as in progress is a free choice (log entry
28). -/
def Dev.acAbandon (s : Dev) (d : Fin 2) (g : Fin 4) : Dev :=
  let (b, s) := s.drawB
  let n := fun (f : Option AcFrame) => match f with | some f => f.dropped | none => 0
  s.modGrp d g fun x =>
    let y := if b then { x with done := none, dropped := x.dropped + n x.done } else x
    { y with frame := none, dropped := y.dropped + n y.frame, disc := true }

/-- A step of station time realigns the grid: every frame in progress is abandoned (R423). -/
def Dev.acRealign (s : Dev) (d : Fin 2) : Dev :=
  let s := (s.setB R.AC_STAT 31 true d).acIrq d 3
  (List.finRange 4).foldl (fun s g => if s.grpEn d g then s.acAbandon d g else s) s

/-- A write of GRP_CFG: GROUP_ENABLE where EN rises, GROUP_DISABLE where it falls (R431, R435). A
write that keeps EN 1 lands, and the frame in progress keeps its length (log entry 28). -/
def grpCfgWrite (d : Fin 2) (g : Fin 4) (v : Nat) (s : Dev) : Dev :=
  if s.grpEn d g then
    let s := s.plainWrite R.GRP_CFG v d g.val
    if bit v 31 = 1 then s
    else ((s.grpIns d g).foldl (fun s i => s.sdStop d i) s).acAbandon d g
  else if bit v 31 = 0 then s.plainWrite R.GRP_CFG v d g.val
  else if s.grpOk d g v then
    (s.grpIns d g).foldl (fun s i => s.sdStart d i) (s.plainWrite R.GRP_CFG v d g.val)
  else s.acCfgErr d

/-- A write of another register of a group: ignored while EN is 1 (R431). -/
def grpParamWrite (r : RegDef) (d : Fin 2) (g : Fin 4) (v : Nat) (s : Dev) : Dev :=
  if s.grpEn d g then s else s.plainWrite r v d g.val

/-- Corrected value as binary64: exact (R433). -/
def Corr.d (c : Corr) : Nat := (f64.roundInt .rne c.num (-(c.e : Int)) false).w

/-- Statistics of a channel from its samples in time order (R433). -/
def acStats (l : List AcSample) : List Byte :=
  let peak := l.foldl (fun m x => if f64.lt m (dAbs x.c.d) then dAbs x.c.d else m) 0
  let sum := l.foldl (fun a x => dAdd a (dMul x.c.d x.c.d)) 0
  let n := fun (b : Nat) => (l.filter fun x => bit x.w b == 1).length
  record 16 [(0, 4, dToF32 peak), (4, 4, dToF32 (dDiv sum (dInt l.length))), (8, 2, n 7), (10, 2, n 6),
    (12, 1, match l.getLast? with | some x => x.w % 8 | none => 0)]

/-- Sample words of a channel, as bytes. -/
def acWords (l : List AcSample) : List Byte := l.flatMap fun x => leBytes 4 x.w

/-- FLAGS of a frame. -/
def AcFrame.flags (f : AcFrame) (werr : Bool) : Nat :=
  let any := fun (b : Nat) => f.ch.any fun l => l.any fun x => bit x.w b == 1
  b2n f.disc + 2 * b2n f.trust + 4 * b2n (any 7) + 8 * b2n (any 6) + 16 * b2n f.caldef + 32 * b2n werr

/-- FRAME_PUBLISH: the complete frame is written, posted and counted (R434). How many writes are
refused is free (log entry 28). -/
def framePublish (d : Fin 2) (g : Fin 4) (s : Dev) : Dev :=
  match (s.grp d g).done with
  | none => s
  | some f =>
    let k := g.val
    let cfg := s.rg R.GRP_CFG d k
    let nch := f.ch.length
    let n := fsize nch f.len
    let b := f.seq % 2 ^ log2nbuf cfg
    let a := s.fld R.GRP_BASE 39 6 d k * 64 + n * b
    let bad := s.refusal (0x22 + d.val) a 8 .wr
    let fl := f.flags bad.isSome
    let h := record 64 [(0, 4, f.seq), (4, 1, nch), (5, 1, fl), (6, 2, f.len), (8, 8, f.t0),
      (0x10, 1, bits cfg 29 28), (0x14, 4, f.dropped), (0x18, 1, s.rg R.GRP_SDMASK d k % 256),
      (0x1A, 4, s.rg R.GRP_TDM d k)]
    let data := f.ch.map List.reverse
    let stats := data.flatMap acStats
    let pad : List Byte := List.replicate (64 * ((nch + 3) / 4) - 16 * nch) 0
    let s := match bad with
      | none => s.wrBytes a (h ++ stats ++ pad ++ data.flatMap acWords)
      | some c =>
        let (v, s) := s.draw
        ((s.berr (0x22 + d.val) a 8 .wr c).count R.AC_WERR (v + 1) d).acIrq d 4
    let s := s.modGrp d g fun x => { x with done := none }
    let e := [(0x10, 2, b), (0x12, 1, nch), (0x13, 1, fl), (0x14, 4, f.seq), (0x18, 8, f.t0), (0x20, 8, a)]
    let s := if s.cdieOn then s.report (16 + k + 4 * d.val) (0x22 + d.val) e R.AC_POSTLOST d
      else s.count R.AC_POSTLOST 1 d
    ((s.wr R.GRP_WSEQ (s.rg R.GRP_WSEQ d k + 1) d k).count R.AC_FRAMES 1 d k).acIrq d 0

/-- Stamp of the latest sample instant of a rate, in ns (R423). -/
def Dev.acStamp (s : Dev) (rate : Nat) : Nat :=
  let p := s.ns % 10 ^ 9
  s.ns - p + p * acRate rate / 10 ^ 9 * 10 ^ 9 / acRate rate

/-- A frame starts if none is in progress: its buffer is free, or it is dropped whole (R434). While the
compute die is off the release cell cannot be read: the choice is free. -/
def Dev.acFrameStart (s : Dev) (d : Fin 2) (g : Fin 4) : Dev :=
  if (s.grp d g).frame.isSome then s
  else
    let x := s.grp d g
    let cfg := s.rg R.GRP_CFG d g.val
    let seq := (s.rg R.GRP_WSEQ d g.val + b2n x.done.isSome) % 2 ^ 32
    let (b, s) := s.drawB
    let rel := s.cell (s.fld R.GRP_RELCELL 15 0 d g.val)
    let free := if s.cdieOn then decide ((seq + 2 ^ 32 - rel) % 2 ^ 32 < 2 ^ log2nbuf cfg) else b
    let len := 16 * bits cfg 8 0
    let ch := List.replicate (s.grpChans d g).length []
    if free then
      let f : AcFrame := ⟨seq, false, x.disc, s.acStamp (bits cfg 29 28), s.trust, s.calDef d, len,
        x.dropped, ch⟩
      s.modGrp d g fun x => { x with frame := some f, dropped := 0, disc := false }
    else
      let f : AcFrame := ⟨seq, true, false, 0, false, false, len, 0, ch⟩
      ((s.count R.AC_DROPS 1 d g.val).acIrq d 1).modGrp d g fun x => { x with
        frame := some f, dropped := x.dropped + 1, disc := true }

/-- One channel delivers its sample. -/
def Dev.acChannel (s : Dev) (d : Fin 2) (sd : List Int) (tdm : List (List Nat)) (c : Nat) :
    AcSample × Dev :=
  if h : c < 8 then s.sdSample d ⟨c, h⟩ (sd.getD c 0)
  else (s.tdmSample d ((c - 8) / 16) ((tdm.getD ((c - 8) / 16) []).getD ((c - 8) % 16) 0), s)

/-- One group takes a sample of each of its channels; a frame that is complete waits for its
publication, which an earlier one comes before. -/
def Dev.acGroup (s : Dev) (d : Fin 2) (g : Fin 4) (sd : List Int) (tdm : List (List Nat)) : Dev :=
  let s := s.acFrameStart d g
  let r := (s.grpChans d g).foldl (fun (p : List AcSample × Dev) c =>
    let q := p.2.acChannel d sd tdm c
    (p.1 ++ [q.1], q.2)) ([], s)
  let s := r.2
  match (s.grp d g).frame with
  | none => s
  | some f =>
    let f := { f with ch := (f.ch.zip r.1).map fun p => p.2 :: p.1 }
    if (f.ch.headD []).length < f.len then s.modGrp d g fun x => { x with frame := some f }
    else if f.drop then s.modGrp d g fun x => { x with frame := none }
    else
      let s := if (s.grp d g).done.isSome then framePublish d g s else s
      s.modGrp d g fun x => { x with frame := none, done := some f }

/-- AC_SAMPLE: one sample instant of rate code `rate` (R423). `sd` holds the raw codes of the inputs,
`tdm0` and `tdm1` the slot values of the ports. -/
def acSample (d : Fin 2) (rate : Fin 4) (sd : List Int) (tdm0 tdm1 : List Nat) (s : Dev) : Dev :=
  if !s.bt R.AC_CTL 31 d || !s.ioUp d 3 then s
  else (List.finRange 4).foldl (fun s g =>
    if s.grpEn d g && s.fld R.GRP_CFG 29 28 d g.val == rate.val then s.acGroup d g sd [tdm0, tdm1]
    else s) s

end Sys2Proof.Machine
end

