-- ==== Sys2Proof/Machine/Csr.lean ====
section
/-!
DEFINITION. Control registers (R106, R121, R136, R137) and the debug block of a core (R155, R166 to
R168).
-/

namespace Sys2Proof.Machine

/-- Is the CSR listed (R136)? -/
def csrListed (n : Nat) : Bool :=
  decide (n ≤ 6) || n == 8 || n == 9 || (decide (0x10 ≤ n) && decide (n ≤ 0x15)) || n == 0x18
    || (decide (0x20 ≤ n) && decide (n ≤ 0x26))

/-- Value a read of a CSR returns (R136). -/
def Dev.csrVal (s : Dev) (c : Fin 8) (n : Nat) : Nat :=
  let x := vget s.core c
  match n with
  | 0 => x.status
  | 1 => x.epc
  | 2 => x.cause
  | 3 => x.badaddr
  | 4 => x.evec
  | 5 => vget x.scratch 0
  | 6 => vget x.scratch 1
  | 8 => x.ien
  | 9 => s.ipend c
  | 0x10 => vget x.lc 0
  | 0x11 => vget x.ls 0
  | 0x12 => vget x.le 0
  | 0x13 => vget x.lc 1
  | 0x14 => vget x.ls 1
  | 0x15 => vget x.le 1
  | 0x18 => x.farbase
  | 0x20 => x.cycle % 2 ^ 32
  | 0x21 => x.cycleh
  | 0x22 => x.instret % 2 ^ 32
  | 0x23 => x.instreth
  | 0x24 => b2n x.charted
  | 0x25 => coreIni c
  | 0x26 => x.gxstat
  | _ => 0

/-- The capture of a read: CYCLE and INSTRET capture their high words (R137). -/
def CoreSt.csrTouch (x : CoreSt) (n : Nat) : CoreSt :=
  if n = 0x20 then { x with cycleh := x.cycle / 2 ^ 32 }
  else if n = 0x22 then { x with instreth := x.instret / 2 ^ 32 }
  else x

/-- Sources that IEN has on a core (R155). -/
def ienMask (c : Fin 8) : Nat := if c.val < 6 then 0xFF else 0x1FFF

/-- Write of a RW control register: reserved bits ignore it (R121). IPEND takes no value here. -/
def CoreSt.csrPut (x : CoreSt) (c : Fin 8) (n v : Nat) : CoreSt :=
  let v := v % 2 ^ 32
  match n with
  | 0 => { x with status := v % 16 }
  | 1 => { x with epc := v / 4 * 4 }
  | 2 => { x with cause := v &&& 0xFE0000FF }
  | 3 => { x with badaddr := v }
  | 4 => { x with evec := v / 4 * 4 }
  | 5 => { x with scratch := vset x.scratch 0 v }
  | 6 => { x with scratch := vset x.scratch 1 v }
  | 8 => { x with ien := v &&& ienMask c }
  | 0x10 => { x with lc := vset x.lc 0 v }
  | 0x11 => { x with ls := vset x.ls 0 (v / 4 * 4) }
  | 0x12 => { x with le := vset x.le 0 (v / 4 * 4) }
  | 0x13 => { x with lc := vset x.lc 1 v }
  | 0x14 => { x with ls := vset x.ls 1 (v / 4 * 4) }
  | 0x15 => { x with le := vset x.le 1 (v / 4 * 4) }
  | 0x18 => { x with farbase := v % 2 ^ 10 }
  | _ => x

/-- Operations of the CSR group. -/
inductive CsrOp
  | rw | rs | rc
  deriving DecidableEq, Repr

/-- Does the instruction write? CSRRS and CSRRC with s0 do not (R121). -/
def CsrOp.writes (op : CsrOp) (f : CF) : Bool := op == .rw || f.sa != 0

/-- The value an operation writes. -/
def CsrOp.value (op : CsrOp) (old v : Nat) : Nat :=
  match op with
  | .rw => v
  | .rs => old ||| v
  | .rc => andNot old v

/-- The exception of a CSR instruction (R106, R121). -/
def csrExc (x : CoreSt) (n : Nat) (writes : Bool) : Option Exc :=
  if !csrListed n then some .illegal
  else if x.task && (decide (n < 0x10) || (writes && decide (0x20 ≤ n))) then some .priv
  else if writes && decide (0x20 ≤ n) then some .illegal
  else none

/-- A CSR instruction: sd takes the old value, then the register is written. A written bit 0 of 1
clears IPEND.SOFT (log entry 21). -/
def Dev.csrInsn (s : Dev) (c : Fin 8) (op : CsrOp) (f : CF) : Dev :=
  s.insn c { legal := f.z.val == 0 } fun s x =>
    let n := f.csr.val
    match csrExc x n (op.writes f) with
    | some e => .exc e x.pc.toNat
    | none =>
      let old := s.csrVal c n
      let v := x.nat f.sa
      .commit (s.modCore c fun x =>
        let x := x.csrTouch n
        let x := if !op.writes f then x
          else if n = 9 then { x with soft := x.soft && bit v 0 == 0 }
          else x.csrPut c n (op.value old v)
        x.setReg f.sd (BitVec.ofNat 32 old)) CoreSt.advance

/-! ### Debug block -/

/-- The core is halted. -/
def Dev.halted (s : Dev) (c : Fin 8) : Bool := (vget s.core c).run == .halted

/-- A halted-only register was touched while the core ran (R168). -/
def Dev.notHalted (s : Dev) (c : Fin 8) : Dev := s.setB R.DBG_STAT 29 true c.val

/-- Write of DBG_CTL: STEP and BRKEN, a halt request, a resume (R166, R167). -/
def dbgCtlWrite (c : Fin 8) (v : Nat) (s : Dev) : Dev :=
  let s := s.settle c
  let s := s.plainWrite R.DBG_CTL v c.val
  let s := if bit v 30 = 1 && s.halted c then
      s.modCore c fun x => { x with run := .running, resumed := true } else s
  if bit v 31 = 1 && !s.halted c then s.modCore c fun x => { x with haltReq := true } else s

/-- Write of DOORBELL. -/
def doorbellWrite (c : Fin 8) (v : Nat) (s : Dev) : Dev :=
  if bit v 0 = 1 then s.modCore c fun x => { x with soft := true } else s

/-- Read of a halted-only register: DPC, CSRDATA or SREG, by its offset (R168). -/
def dbgRead (c : Fin 8) (off : Nat) (s : Dev) : Nat × Dev :=
  let s := s.settle c
  let x := vget s.core c
  if !s.halted c then (0, s.notHalted c)
  else if off = 8 then (x.pc.toNat, s)
  else if off = 0x14 then
    let n := s.rg R.CSRSEL c.val
    (s.csrVal c n, s.modCore c fun x => x.csrTouch n)
  else ((x.reg (Fin.ofNat 32 ((off - 0x100) / 4))).toNat, s)

/-- Write of a halted-only register (R168). -/
def dbgWrite (c : Fin 8) (off v : Nat) (s : Dev) : Dev :=
  let s := s.settle c
  if !s.halted c then s.notHalted c
  else s.modCore c fun x =>
    if off = 8 then { x with pc := BitVec.ofNat 32 (v / 4 * 4) }
    else if off = 0x14 then
      let n := s.rg R.CSRSEL c.val
      if n = 9 then { x with soft := x.soft && bit v 0 == 0 } else x.csrPut c n v
    else x.setReg (Fin.ofNat 32 ((off - 0x100) / 4)) (BitVec.ofNat 32 v)

end Sys2Proof.Machine
end

