-- ==== Sys2Proof/Machine/Radio.lean ====
section
/-!
DEFINITION. Field radio: sampling, detection, capture and transmission (R337, R352 to R367).
-/

namespace Sys2Proof.Machine

/-- Change of the trigger the detector follows. -/
def Dev.modTrig (s : Dev) (d : Fin 2) (f : Trig → Trig) : Dev :=
  s.modRad d fun r => { r with trig := r.trig.map f }

/-- Change of the open capture record. -/
def Dev.modCapt (s : Dev) (d : Fin 2) (f : Rec → Rec) : Dev :=
  s.modTrig d fun t => { t with capt := t.capt.map f }

/-- Some PA_EN of the radio is high. -/
def Dev.paHigh (s : Dev) (d : Fin 2) : Bool :=
  (List.finRange 4).any fun a => (vget (vget s.rad d).tx a).isSome

/-- SUPERFRAME_BOUNDARY (R337). -/
def superframeBoundary (d : Fin 2) (s : Dev) : Dev :=
  let s := s.wr R.RF_SFN (s.rg R.RF_SFN d + 1) d
  let b := s.sfBoundary d
  s.modRad d fun r => { r with bnd := b }

/-- A step of station time or a new SFOFS: the grid realigns at the next sample and a capture is
abandoned as by a squash (R337). -/
def Dev.radioRealign (s : Dev) (d : Fin 2) : Dev :=
  let s := s.abandon d true
  let s := s.modRad d fun r => { r with realign := true }
  (s.setB R.RF_STAT 30 true d).rfIrq d 5

/-- RF_SFOFS_WRITE: 10^9 or more is ignored. -/
def rfSfofsWrite (d : Fin 2) (v : Nat) (s : Dev) : Dev :=
  if 10 ^ 9 ≤ v then s else (s.wr R.RF_SFOFS v d).radioRealign d

/-- Arm the detector (R357). -/
def Dev.arm (s : Dev) (d : Fin 2) : Dev :=
  s.modRad d fun r => { r with det := .armed, armN := 0, rearm := false, trig := none }

/-- RADIO_ENABLE and every write of RF_CTL: ANTEN does not change while EN is 1 (R357, R360). A fall
of EN abandons an open capture (log entry 14). -/
def rfCtlWrite (d : Fin 2) (v : Nat) (s : Dev) : Dev :=
  let was := s.bt R.RF_CTL 31 d
  if was then
    if bit v 31 = 1 then s
    else (((s.abandon d true).setB R.RF_CTL 31 false d).setF R.RF_CTL 3 0 v d).arm d
  else
    let s := s.plainWrite R.RF_CTL v d
    if bit v 31 = 1 then
      let s := s.modRad d fun r => { r with cfgBad := false, realign := true }
      (s.arm d).checkRec d
    else s

/-- RF_QUAL: QDLY outside 80 to 144 is ignored. -/
def rfQualWrite (d : Fin 2) (v : Nat) (s : Dev) : Dev :=
  if bits v 15 8 < 80 ∨ 144 < bits v 15 8 then s else s.plainWrite R.RF_QUAL v d

/-- A baseband sample of an antenna `i` samples back; a sample from before the radio's history is a
free value. -/
def Dev.bbAt (s : Dev) (d : Fin 2) (a : Fin 4) (i : Nat) : Cpx :=
  (vget (vget s.rad d).bb a).getD i
    (toS 16 (Config.free (s.free + 2 * i)), toS 16 (Config.free (s.free + 2 * i + 1)))

/-- The bytes of a sample. -/
def smpBytes (z : Cpx) : List Byte := leBytes 2 (ofS 16 z.1) ++ leBytes 2 (ofS 16 z.2)

/-- Write sample `i` of the capture, taken `back` samples ago, for every enabled antenna. -/
def Dev.putSample (s : Dev) (d : Fin 2) (addr i back : Nat) : Dev :=
  (s.ants d).zipIdx.foldl (fun s p =>
    s.radWrite d (addr + 64 + 9216 * p.2 + 4 * i) (smpBytes (s.bbAt d p.1 back))) s

/-- Samples of a capture, once its burst's length is assumed or decided: NCAP (R361). -/
def Trig.ncap (t : Trig) : Option Nat := t.tau.map fun tau => tau - 8 + 512 * t.len

/-- RSSI_TRIGGER (R357, R360, R361): a free record opens the capture and an epoch. -/
def Dev.trigger (s : Dev) (d : Fin 2) (rssi : Nat) : Dev :=
  let s := s.count R.RF_TRIG 1 d
  let r := vget s.rad d
  let back := 129
  let p := r.pos + sfSamples - back
  let sf := if r.pos < back then r.sf - 10 ^ 9 else r.sf
  let t : Trig := ⟨back, p % sfSamples, sf, s.trust, rssi, none, 0, 0, none, 1, false, none⟩
  let s := s.modRad d fun r => { r with det := .qualifying, trig := some t }
  let w := s.rg R.RX_WSEQ d
  let free := decide ((w + 2 ^ 32 - s.radCell d R.RX_RELCELL) % 2 ^ 32 < 2 ^ s.log2nrec d)
  match s.radGal d with
  | some g =>
    if free && !r.cfgBad && !s.bt R.RF_STAT 29 d && s.cdieOn then
      let a := s.recAddr d w
      let c : Rec := ⟨a, w, 0, s.paHigh d, false, false⟩
      let s := s.modTrig d fun t => { t with capt := some c }
      let s := (List.range back).foldl (fun s i => s.putSample d a i (back - 1 - i)) s
      (s.radSet d R.RX_PCELL (32 * w % 2 ^ 32)).epRadioOpen d g
    else (s.count R.RF_NOREC 1 d).rfIrq d 3
  | none => (s.count R.RF_NOREC 1 d).rfIrq d 3

/-- RSSI of an antenna over its last 16 samples (R356): the formula's value, or one unit off. -/
def Dev.rssi (s : Dev) (d : Fin 2) (a : Fin 4) : Nat :=
  let p := ((List.range 16).map fun i => cabs2 (s.bbAt d a i)).sum
  if p = 0 then 0x8000
  else
    let off := toS 16 (s.cal d (0x130 + 2 * a.val) 2)
    ofS 16 (clampS 16 (rssiOf p + off + ((Config.free (s.free + a.val) % 3 : Nat) : Int) - 1))

/-- The largest RSSI over the enabled antennas. -/
def Dev.rssiMax (s : Dev) (d : Fin 2) : Int :=
  (s.ants d).foldl (fun m a => max m (toS 16 (s.rg R.RF_RSSI d a.val))) (-32768)

/-- One antenna takes two grid points and forms a baseband sample (R354). -/
def Dev.takeSample (s : Dev) (d : Fin 2) (x : List Nat) (a : Fin 4) : Dev :=
  let w := fun i => toS 12 (x.getD (4 * a.val + i) 0)
  let gp := ((w 2, w 3) :: (w 0, w 1) :: vget (vget s.rad d).gp a).take 19
  let (z, c) := rxSample gp
  let s := s.modRad d fun r => { r with
    gp := vset r.gp a gp, bb := vset r.bb a ((z :: vget r.bb a).take 512) }
  if c = 0 then s
  else (s.count R.RF_RXSAT c d).modCapt d fun t => { t with rxsat := true }

/-- RSSI_SAMPLE: one baseband sample of every enabled antenna (R354, R356, R357, R361). `x` holds,
for each antenna, I and Q of its two grid points. -/
def rssiSample (d : Fin 2) (x : List Nat) (s : Dev) : Dev :=
  if !s.bt R.RF_CTL 31 d then s
  else
    let s := if (vget s.rad d).realign then s.alignGrid d else s
    let s := (s.ants d).foldl (fun s a => s.takeSample d x a) s
    let r := vget s.rad d
    let newSlot := r.pos % 512 == 511
    let s := s.modRad d fun r => { r with
      pos := (r.pos + 1) % sfSamples, sf := if r.pos + 1 = sfSamples then r.sf + 10 ^ 9 else r.sf }
    let s := (s.ants d).foldl (fun s a => s.wr R.RF_RSSI (s.rssi d a) d a.val) s
    let s := { s with free := s.free + 1024 }
    let pa := s.paHigh d || decide ((vget s.rad d).paN < 16)
    let s := s.modRad d fun r => { r with paN := if s.paHigh d then 0 else min 16 (r.paN + 1) }
    let m := s.rssiMax d
    match r.det with
    | .armed =>
      let n := min 16 (r.armN + 1)
      let s := s.modRad d fun r => { r with armN := n }
      if n = 16 && !pa && decide (toS 16 (s.fld R.RF_DET 15 0 d) ≤ m) && !(s.ants d).isEmpty
      then s.trigger d (ofS 16 m) else s
    | .waiting =>
      let low := (s.ants d).all fun a => decide (toS 16 (s.rg R.RF_RSSI d a.val)
        < toS 16 (s.fld R.RF_DET 15 0 d) - s.fld R.RF_DET 23 16 d)
      s.modRad d fun r => { r with rearm := r.rearm || low || newSlot }
    | .qualifying | .capturing =>
      match r.trig with
      | none => s
      | some t =>
        let i := t.n
        let stop := match t.ncap with | some n => decide (n ≤ i) | none => false
        let s := match t.capt with
          | some c => if stop then s else s.putSample d c.addr i 0
          | none => s
        (s.modTrig d fun t => { t with n := i + 1 })

/-- Correlation of the window that starts at lag index `i` of the trigger on one antenna. -/
def Dev.lagCorr (s : Dev) (d : Fin 2) (a : Fin 4) (n i : Nat) : Nat × Nat :=
  corr ((List.range 64).map fun m => s.bbAt d a (n - 1 - (i + m)))

/-- The best lag index and its antenna: the lowest lag on equal values, and the lowest antenna
(R358). Lag indices count from t0 - 128. -/
def Dev.bestLag (s : Dev) (d : Fin 2) (n qdly : Nat) : Nat × Nat × (Nat × Nat) :=
  (List.range 80).foldl (fun b j =>
    (s.ants d).foldl (fun b a =>
      let i := 128 + qdly - 143 + j
      let c := s.lagCorr d a n i
      if rhoGt c b.2.2 then (i, a.val, c) else b) b) (128 + qdly - 143, 0, (0, 0))

/-- QUALIFIER_DECISION at t0 + QDLY (R358, R362). -/
def qualifierDecision (d : Fin 2) (s : Dev) : Dev :=
  let r := vget s.rad d
  match r.trig with
  | none => s
  | some t =>
    let q := s.fld R.RF_QUAL 15 8 d
    if t.decided || t.n < 129 + q || r.det != .qualifying then s
    else
      let (i, a, c) := s.bestLag d t.n q
      let thr := 4 * s.fld R.RF_QUAL 7 0 d
      let pass := if rhoGe c (thr + 1) then true
        else if !rhoGe c (thr - 1) then false else Config.freeBool s.free
      let s := { s with free := s.free + 1 }
      let had := t.capt.isSome
      if pass then
        let s := (s.count R.RF_QPASS 1 d).modTrig d fun t => { t with
          decided := true, tau := some i, qpeak := rhoPeak c, qant := a }
        let s := s.modRad d fun r => { r with det := .capturing }
        match s.radGal d with
        | some g => if had then s.epRadioDecide d g true else s
        | none => s
      else
        let s := s.count R.RF_QFAIL 1 d
        let s := match s.radGal d with
          | some g => if had then s.epRadioDecide d g false else s
          | none => s
        (s.abandon d false).modRad d fun r => { r with det := .waiting, trig := none, rearm := false }

/-- FORMAT_DECISION at sample τ̂ + 135 (R359). -/
def formatDecision (d : Fin 2) (s : Dev) : Dev :=
  match (vget s.rad d).trig with
  | none => s
  | some t =>
    match t.tau, t.fmt with
    | some tau, none =>
      if t.n < tau + 136 then s
      else
        let win := fun (a : Fin 4) (o : Nat) =>
          (List.range 64).map fun m => s.bbAt d a (t.n - 1 - (tau + o + m))
        let f := fmtWord ((s.ants d).map fun a => (win a 0, win a 72))
        let s := s.modTrig d fun t => { t with
          fmt := some f, len := if fmtValid f then fmtLen f else 1 }
        if fmtValid f then s else (s.count R.RF_FMTERR 1 d).rfIrq d 4
    | _, _ => s

/-- SYMBOL_PROGRESS: the next symbol of the burst has been written on every antenna (R361). -/
def symbolProgress (d : Fin 2) (s : Dev) : Dev :=
  match (vget s.rad d).trig with
  | none => s
  | some t =>
    match t.tau, t.capt with
    | some tau, some c =>
      let k := c.sym
      if k < 7 * t.len && decide (tau - 8 + 512 * (k / 7) + 72 * (k % 7) + 72 ≤ t.n)
          && (t.fmt.isSome || decide (k < 7)) then
        (s.modCapt d fun c => { c with sym := k + 1 }).radSet d R.RX_PCELL
          ((32 * c.seq + k + 1) % 2 ^ 32)
      else s
    | _, _ => s

/-- CAPTURE_PUBLISH: the header is written, RX_CELL is set and ring 0 or 4 takes a post (R361,
R364). -/
def capturePublish (d : Fin 2) (s : Dev) : Dev :=
  match (vget s.rad d).trig with
  | none => s
  | some t =>
    match t.tau, t.fmt, t.ncap, t.capt with
    | some tau, some f, some n, some c =>
      if t.n < n then s
      else
        let p := t.pos0 + tau - 8
        let sf := if sfSamples ≤ p then t.sf0 + 10 ^ 9 else t.sf0
        let p := p % sfSamples
        let slot := p / 512
        let bad := !fmtValid f
        let flags := b2n bad + 2 * b2n c.txovl + 4 * b2n c.rxsat + 8 * b2n t.trust + 16 * b2n c.werr
        let ants := (s.ants d).foldl (fun m a => m + 2 ^ a.val) 0
        let h := record 64 [(0, 4, c.seq), (4, 1, f), (5, 1, flags), (6, 2, n),
          (8, 8, posNs t.sf0 t.pos0), (0x10, 2, slot), (0x12, 2, (slot + t.len - 1) % 4000),
          (0x14, 4, s.sfnOf d sf), (0x18, 2, tau), (0x1A, 2, p % 512), (0x1C, 2, t.rssi),
          (0x1E, 1, t.qpeak), (0x1F, 1, t.qant + 16 * ants)]
        let s := s.radWrite d c.addr h
        let s := s.dropCapture d
        let w := (c.seq + 1) % 2 ^ 32
        let s := ((s.radSet d R.RX_CELL w).wr R.RX_WSEQ w d).count R.RF_RECS 1 d
        let s := s.rfIrq d 0
        s.report (4 * d.val) (0x20 + d.val)
          [(0x10, 2, c.seq % 2 ^ s.log2nrec d), (0x12, 1, f), (0x14, 4, c.seq)] R.RF_POSTLOST d
    | _, _, _, _ => s

/-- DETECTOR_REARM: after a pass at the end of the last slot, after a failure once a condition of
R357 has been met; never while a PA_EN blocks it. -/
def detectorRearm (d : Fin 2) (s : Dev) : Dev :=
  let r := vget s.rad d
  let pa := s.paHigh d || decide (r.paN < 16)
  match r.det with
  | .capturing =>
    match r.trig with
    | none => s
    | some t =>
      match t.ncap with
      | some n => if n ≤ t.n && t.fmt.isSome && t.capt.isNone && !pa then s.arm d else s
      | none => s
  | .waiting => if r.rearm && !pa then s.arm d else s
  | _ => s

/-- RXCLK_CHECK: over a 1 ms window the receive clock of antenna `a` differed by `ppm` (R352). -/
def rxclkCheck (d : Fin 2) (a : Fin 4) (ppm : Int) (s : Dev) : Dev :=
  if 20 < ppm.natAbs then (s.setB R.RF_STAT (20 + a.val) true d).rfIrq d 6 else s

/-! ### Transmission (R365 to R367) -/

/-- End of a transmission: VALID clears, the status is posted and counted. -/
def Dev.txEnd (s : Dev) (d : Fin 2) (k st first : Nat) : Dev :=
  let s := s.setB R.TX_CTL 31 false d k
  let s := if st = 0 then (s.count R.RF_TXDONE 1 d).rfIrq d 1 else (s.count R.RF_TXERR 1 d).rfIrq d 2
  s.report (1 + 4 * d.val) (0x20 + d.val)
    [(0x10, 1, k), (0x11, 1, st), (0x12, 1, b2n s.trust), (0x18, 8, first)] R.RF_POSTLOST d

/-- TRANSMIT_START of descriptor `k` fired at station time `f` in units (R365, R366). Where nothing
is sent, the time of the first sample that the post carries is a free value. -/
def Dev.transmit (s : Dev) (d : Fin 2) (k f : Nat) : Dev :=
  let c := s.rg R.TX_CTL d k
  let a := s.fld R.TX_ADDR 39 0 d k
  let ant : Fin 4 := ⟨bits c 1 0, by unfold bits; omega⟩
  if bit c 31 = 0 ∨ a % 64 ≠ 0 then
    let (v, s) := s.draw
    s.txEnd d k 2 v
  else if (vget (vget s.rad d).tx ant).isSome then
    let (v, s) := s.draw
    s.txEnd d k 3 v
  else
    let o := s.rg R.RF_SFOFS d * tsNs % gpUnits
    let g0 := o + (f + gpUnits - o + gpUnits - 1) / gpUnits * gpUnits - gpUnits
    let s := s.setB R.TX_CTL 30 true d k
    let s := s.modRad d fun r => { r with
      tx := vset r.tx ant (some ⟨k, bits c 3 2 + 1, a, g0, none, none, false⟩) }
    s.modCapt d fun c => { c with txovl := true }

/-- RAMP_UP_START: PA_LEAD grid points after G0 (R365, R367). -/
def rampUpStart (d : Fin 2) (a : Fin 4) (s : Dev) : Dev :=
  match vget (vget s.rad d).tx a with
  | none => s
  | some t =>
    if t.up.isSome then s
    else s.modRad d fun r => { r with
      tx := vset r.tx a (some { t with up := some (t.g0 + s.fld R.PA_LEAD 9 0 d * gpUnits) }) }

/-- Zero-stuffed components of a burst with its zero guards (R355, R366). -/
def Dev.txWave (s : Dev) (addr len o : Nat) : List Int :=
  (List.range (512 * len)).flatMap fun i =>
    let sl := i / 512
    let j := i % 512
    [if j < 504 then toS 16 (s.rdN (addr + 4 * (504 * sl + j) + o) 2) else 0, 0]

/-- A span of memory that the radio reads for a transmission answers: it lies in a tier that is
powered, and no sample of it is poisoned (R512). -/
def Dev.txReadable (s : Dev) (a n : Nat) : Bool :=
  s.cdieOn && !s.poisoned a n && (inAtrium a n || s.inStack a n
    || (List.finRange 6).any fun g => s.galUp g && decide (galStore g.val ≤ a)
      && decide (a + n ≤ galStore g.val + 0x1000000))

/-- RAMP_DOWN_START: at the last guard, or at an underrun (R366, R367). `under`: a sample was not
available. Clamped components of the burst count here (log entry 15). -/
def rampDownStart (d : Fin 2) (a : Fin 4) (under : Bool) (s : Dev) : Dev :=
  match vget (vget s.rad d).tx a with
  | none => s
  | some t =>
    match t.up, t.down with
    | some u, none =>
      let bad := under || !s.txReadable t.addr (2016 * t.len)
      let n := if bad then 0
        else txClamped (s.txWave t.addr t.len 0) + txClamped (s.txWave t.addr t.len 2)
      let dn := u + (16 + 1024 * t.len - 16) * gpUnits
      let s := if n = 0 then s else s.count R.RF_TXSAT n d
      s.modRad d fun r => { r with
        tx := vset r.tx a (some { t with
          down := some (if bad then s.time.units else dn), under := bad }) }
    | _, _ => s

/-- TRANSMIT_END: PA_EN falls and the status is posted (R366, R367). -/
def transmitEnd (d : Fin 2) (a : Fin 4) (s : Dev) : Dev :=
  match vget (vget s.rad d).tx a with
  | none => s
  | some t =>
    match t.up, t.down with
    | some u, some _ =>
      let s := s.modRad d fun r => { r with tx := vset r.tx a none, paN := 0 }
      (s.setB R.TX_CTL 30 false d t.k).txEnd d t.k (b2n t.under) ((u + 16 * gpUnits) / tsNs)
    | _, _ => s

/-- PA_EN of antenna `a`. -/
def Dev.paEn (s : Dev) (d : Fin 2) (a : Fin 4) : Bool := (vget (vget s.rad d).tx a).isSome

/-- PA_RAMP of antenna `a` at the present station time (R367). -/
def Dev.paRamp (s : Dev) (d : Fin 2) (a : Fin 4) : Nat :=
  match vget (vget s.rad d).tx a with
  | none => 0
  | some t =>
    match t.up, t.down with
    | none, _ => 0
    | some u, none => s.fld R.RAMP 9 0 d (min 15 ((s.time.units - u) / gpUnits))
    | some _, some w =>
      let i := (s.time.units - w) / gpUnits
      if i ≤ 15 then s.fld R.RAMP 9 0 d (15 - i) else 0

end Sys2Proof.Machine
end

