-- ==== Sys2Proof/Machine/Skip.lean ====
section
/-!
DEFINITION. The skip unit and the audit sampler (R246 to R261).
-/

namespace Sys2Proof.Machine

/-- The skip unit of a gallery. -/
def Dev.skip (s : Dev) (g : Fin 6) : SkipSt := (vget s.gal g).skip

/-- Change of the skip unit. -/
def Dev.modSkip (s : Dev) (g : Fin 6) (f : SkipSt → SkipSt) : Dev :=
  s.modGal g fun x => { x with skip := f x.skip }

/-! ### Jobs (R246) -/

/-- Row stride B of estimates and lists. -/
def SkipLatch.stride (l : SkipLatch) : Nat := (2 * l.np + 63) / 64 * 64

/-- The latch that a GO write of `v` would take. -/
def Dev.skipLatch (s : Dev) (g : Fin 6) (v : Nat) : SkipLatch :=
  let da := fun (r : RegDef) => (s.cur g).toDev (s.rg r g)
  { nq := s.fld R.SKP_DIM 24 16 g + 1, np := s.fld R.SKP_DIM 12 0 g + 1
    qpos := s.fld R.SKP_POS 31 16 g, kpos := s.fld R.SKP_POS 15 0 g
    wback := s.fld R.SKP_WIN 31 16 g, wfwd := s.fld R.SKP_WIN 15 0 g
    thr := s.fld R.SKP_THR 15 0 g
    est := da R.SKP_EST, list := da R.SKP_LIST, cnt := da R.SKP_CNT
    qrow := da R.SKP_QROW, krow := da R.SKP_KROW, sscale := s.rg R.SKP_SSCALE g
    zq := (s.leg g (s.fld R.SKP_ZP 25 16 g)).zp, zk := (s.leg g (s.fld R.SKP_ZP 9 0 g)).zp
    minr := bits v 7 4, exact := bit v 3 == 1, deadline := bit v 2 == 1, weak := bit v 1 == 1
    far := bit v 0 == 1 }

/-- A positive finite FP32 value. -/
def fPos (w : Nat) : Bool :=
  match fdec w with | .fin false m _ => m != 0 | _ => false

/-- ERR of a GO write; 0 where it is accepted. An open job is tested first (log entry 23). -/
def Dev.skipErr (s : Dev) (g : Fin 6) (l : SkipLatch) : Nat :=
  let okA := fun (a n : Nat) => a % 64 == 0 && inStore g a n
  let okZ := fun (z : Int) => decide (-128 ≤ z) && decide (z ≤ 127)
  if (s.skip g).job.isSome then 3
  else if 65535 < l.qpos + l.nq - 1 ∨ 65535 < l.kpos + l.np - 1 then 1
  else if !(okA l.est (l.nq * l.stride) && okA l.list (l.nq * l.stride) && okA l.cnt (4 * l.nq)
      && okA l.qrow (512 * l.nq) && okA l.krow (512 * l.np)) then 2
  else if !(fPos l.sscale && okZ l.zq && okZ l.zk) then 4
  else 0

/-- A deadline-mode job. -/
def SkipLatch.dl (l : SkipLatch) : Bool := l.deadline && !l.exact

/-! ### Selection (R247 to R250) -/

/-- Estimate of row `i`, position `j`. -/
def Dev.est (s : Dev) (l : SkipLatch) (i j : Nat) : Int := toS 16 (s.rdN (l.est + i * l.stride + 2 * j) 2)

/-- Is position `j` far for row `i`? -/
def SkipLatch.isFar (l : SkipLatch) (i j : Nat) : Bool :=
  let d : Int := ((l.qpos + i : Nat) : Int) - ((l.kpos + j : Nat) : Int)
  l.far && (decide ((l.wback : Int) < d) || decide ((l.wfwd : Int) < -d))

/-- Kept positions of a row with their estimates, in ascending order: `r` is the running maximum. -/
def keptScan (weak : Bool) (thr : Int) : Option Int → List (Nat × Int × Bool) → List (Nat × Int)
  | _, [] => []
  | r, (j, e, far) :: l =>
    if far then keptScan weak thr r l
    else
      let m := match r with | some x => max x e | none => e
      if weak && decide (thr < m - e) then keptScan weak thr (some m) l
      else (j, e) :: keptScan weak thr (some m) l

/-- Insert into a list of descending estimates, after its equals. -/
def insDesc (p : Nat × Int) : List (Nat × Int) → List (Nat × Int)
  | [] => [p]
  | q :: l => if p.2 ≤ q.2 then q :: insDesc p l else p :: q :: l

/-- The kept list of row `i` in its order. -/
def Dev.keptRow (s : Dev) (l : SkipLatch) (i : Nat) : List Nat :=
  let js := (List.range l.np).map fun j => (j, s.est l i j, !l.exact && l.isFar i j)
  let k := keptScan (l.weak && !l.exact) l.thr none js
  if l.dl then (k.foldl (fun a p => insDesc p a) []).map (·.1) else k.map (·.1)

/-- Write the list of row `i`. -/
def Dev.putList (s : Dev) (l : SkipLatch) (i : Nat) (k : List Nat) : Dev :=
  s.wrBytes (l.list + i * l.stride)
    ((k ++ List.replicate (l.stride / 2 - k.length) 0xFFFF).flatMap fun j => leBytes 2 j)

/-- Scan the first `n` rows: their lists are written and their kept counts recorded. -/
def Dev.scanRows (s : Dev) (g : Fin 6) (l : SkipLatch) (n : Nat) : List Nat × Dev :=
  let s := s.meet (8 + g.val) l.est (n * l.stride)
  let rows := (List.range n).map fun i => s.keptRow l i
  (rows.map (·.length), rows.zipIdx.foldl (fun s p => s.putList l p.2 p.1) s)

/-! ### Closing (R255, R257) -/

/-- The sampler counts a row of a closed job, and queues it when it is sampled (R257). -/
def Dev.sampleRow (s : Dev) (g : Fin 6) (l : SkipLatch) (i used : Nat) : Dev :=
  let n := s.rg R.AUD_ROWCTR g
  let pick := n % 2 ^ s.fld R.AUD_CTL 12 8 g == 0
  let s := s.wr R.AUD_ROWCTR (n + 1) g
  if !pick then s
  else if 4 ≤ (s.skip g).pend.length then (s.count R.AUD_DROPS 1 g).orR R.AUD_FLAGS 2 g
  else s.modSkip g fun x => { x with pend := x.pend ++ [⟨l, i, used, []⟩] }

/-- Close the job with the kept and used counts of its rows. -/
def Dev.skipClose (s : Dev) (g : Fin 6) (l : SkipLatch) (kept used : List Nat) : Dev :=
  let ws := kept.zip used
  let s := ws.zipIdx.foldl (fun s p => s.wrN (l.cnt + 4 * p.2) 4 (p.1.1 % 2 ^ 16 + p.1.2 * 2 ^ 16)) s
  let cut := s.bt R.SKP_STAT 29 g
  let s := s.modSkip g fun x => { x with job := none }
  let s := (s.setB R.SKP_STAT 31 false g).setB R.SKP_STAT 28 true g
  let s := ((s.count R.SKP_USED used.sum g).count R.SKP_JOBS 1 g).count R.SKP_CONSID (l.nq * l.np) g
  let s := if cut && l.dl then s.count R.SKP_CUTS 1 g else s
  if s.bt R.AUD_CTL 31 g && !l.exact then
    used.zipIdx.foldl (fun s p => s.sampleRow g l p.2 p.1) s
  else s

/-- Rows that an unfinished job has scanned: a free number, and the kept counts of the others are
free values (log entry 23). -/
def Dev.partScan (s : Dev) (g : Fin 6) (l : SkipLatch) : List Nat × Nat × Dev :=
  let (v, s) := s.draw
  let n := v % (l.nq + 1)
  let (k, s) := s.scanRows g l n
  let rest := (List.range (l.nq - n)).map fun i => Config.free (s.free + i) % (l.np + 1)
  (k ++ rest, n, { s with free := s.free + (l.nq - n) })

/-- Close a deadline-mode job: used = min(kept, 32 × GRANTED). -/
def Dev.closeDl (s : Dev) (g : Fin 6) (j : SkipJob) : Dev :=
  let n := 32 * s.fld R.SKP_GRANT 8 0 g
  if s.bt R.SKP_STAT 30 g then s.skipClose g j.l j.kept (j.kept.map (min n))
  else
    let (k, _, s) := s.partScan g j.l
    s.skipClose g j.l k (k.map (min n))

/-- The closing conditions of a deadline-mode job (R255). -/
def Dev.dlDone (s : Dev) (g : Fin 6) (l : SkipLatch) : Bool :=
  let n := s.fld R.SKP_GRANT 8 0 g
  (s.bt R.SKP_STAT 30 g && n == s.fld R.SKP_GRANT 24 16 g)
    || (s.bt R.SKP_STAT 29 g && decide (l.minr ≤ n))

/-- Close a deadline-mode job whose condition holds. -/
def Dev.checkDl (s : Dev) (g : Fin 6) : Dev :=
  match (s.skip g).job with
  | some j => if j.l.dl && s.dlDone g j.l then s.closeDl g j else s
  | none => s

/-! ### Register writes and events -/

/-- ABORT of the open job (R255). -/
def Dev.skipAbort (s : Dev) (g : Fin 6) : Dev :=
  match (s.skip g).job with
  | none => s
  | some j =>
    if j.l.dl then s.closeDl g j
    else
      let (k, n, s) := s.partScan g j.l
      s.skipClose g j.l k (k.take n ++ List.replicate (j.l.nq - n) 0)

/-- SKIP_JOB_START, SKIP_JOB_ABORT and every write of SKP_CTL (R246, R255). -/
def skpCtlWrite (g : Fin 6) (v : Nat) (s : Dev) : Dev :=
  if bit v 31 = 1 then
    let l := s.skipLatch g v
    let e := s.skipErr g l
    if e ≠ 0 then s.setF R.SKP_STAT 27 24 e g
    else
      let s := (s.plainWrite R.SKP_CTL v g).wr R.SKP_STAT (2 ^ 31) g
      let s := if l.dl then s.wr R.SKP_GRANT 0 g else s
      s.modSkip g fun x => { x with job := some ⟨l, []⟩ }
  else
    let s := s.plainWrite R.SKP_CTL v g
    if bit v 30 = 1 then s.skipAbort g else s

/-- SKIP_LISTS_READY (R251 to R253). -/
def skipListsReady (g : Fin 6) (s : Dev) : Dev :=
  match (s.skip g).job with
  | some j =>
    if !j.l.dl || s.bt R.SKP_STAT 30 g || !s.galUp g then s
    else
      let (k, s) := s.scanRows g j.l j.l.nq
      let m := (k.foldl max 0 + 31) / 32
      let s := (s.setB R.SKP_STAT 30 true g).setF R.SKP_GRANT 24 16 m g
      let s := s.modSkip g fun x => { x with job := some ⟨j.l, k⟩ }
      s.checkDl g
  | none => s

/-- SKIP_JOB_DONE (R250, R251). -/
def skipJobDone (g : Fin 6) (s : Dev) : Dev :=
  match (s.skip g).job with
  | some j =>
    if j.l.dl || !s.galUp g then s
    else
      let (k, s) := s.scanRows g j.l j.l.nq
      s.skipClose g j.l k k
  | none => s

/-- ROUND_TAKE: a write of SKP_TAKE (R253). -/
def skpTakeWrite (g : Fin 6) (v : Nat) (s : Dev) : Dev :=
  if bit v 0 = 0 then s
  else
    let cut := s.bt R.SKP_STAT 29 g
    let n := s.fld R.SKP_GRANT 8 0 g
    match (s.skip g).job with
    | some j =>
      if !j.l.dl || !s.bt R.SKP_STAT 30 g then s.wr R.SKP_ROUND (2 ^ 28) g
      else if n = s.fld R.SKP_GRANT 24 16 g then s.wr R.SKP_ROUND (2 ^ 29) g
      else if cut && decide (j.l.minr ≤ n) then s.wr R.SKP_ROUND (2 ^ 30 + 2 ^ 29) g
      else
        let s := s.wr R.SKP_ROUND (2 ^ 31 + b2n cut * 2 ^ 30 + n) g
        (s.setF R.SKP_GRANT 8 0 (n + 1) g).checkDl g
    | none => s.wr R.SKP_ROUND (2 ^ 28) g

/-- DEADLINE_MARK_ARRIVE (R254): the oldest mark on its way to this gallery. -/
def deadlineMarkArrive (g : Fin 6) (s : Dev) : Dev :=
  match (List.finRange 2).find? fun d => g.val ∈ (vget s.tt d).galMarks with
  | none => s
  | some d =>
    let s := s.modTt d fun t => { t with galMarks := t.galMarks.erase g.val }
    match (s.skip g).job with
    | some j => if j.l.dl && s.galUp g then (s.setB R.SKP_STAT 29 true g).checkDl g else s
    | none => s

/-! ### Audit sampler (R257 to R260) -/

/-- AUDIT_CONTROL_WRITE, AUDIT_FLUSH and every write of AUD_CTL. -/
def audCtlWrite (g : Fin 6) (v : Nat) (s : Dev) : Dev :=
  if bits v 12 8 < 4 ∨ 16 < bits v 12 8 ∨ 12 < bits v 3 0 then s.orR R.AUD_FLAGS 4 g
  else
    let was := s.bt R.AUD_CTL 31 g
    let n := (s.skip g).pend.length
    let s := s.plainWrite R.AUD_CTL v g
    let s := if !was && bit v 31 == 1 then s.wr R.AUD_ROWCTR 0 g else s
    let s := if bit v 30 = 1 then
        (s.count R.AUD_DROPS n g).modSkip g fun x => { x with pend := [] } else s
    if bit v 31 = 0 then s.modSkip g fun x => { x with pend := [], wcnt := 0, wmax := 0, wsum := 0 } else s

/-- Element of an INT8 row. -/
def Dev.row8 (s : Dev) (a d : Nat) : Int := toS 8 (s.byte (a + d)).toNat

/-- Exact score of position `j` for a row (R258). -/
def Dev.auditScore (s : Dev) (r : AuditRow) (j : Nat) : Int :=
  ((List.range 512).map fun d =>
    (s.row8 (r.l.krow + 512 * j) d - r.l.zk) * (s.row8 (r.l.qrow + 512 * r.row) d - r.l.zq)).foldl (· + ·) 0

/-- AUDIT_ROW_SLOT: one audit row meets an idle slot. -/
def auditRowSlot (g : Fin 6) (s : Dev) : Dev :=
  match (s.skip g).pend with
  | r :: rest =>
    if !s.galUp g || decide (r.l.np ≤ r.scores.length) || (s.arr g).frozen != 0 then s
    else
      let j := r.scores.length
      let s := (s.meet (8 + g.val) (r.l.krow + 512 * j) 512).meet (8 + g.val) (r.l.qrow + 512 * r.row) 512
      let v := s.auditScore r j
      let s := s.modSkip g fun x => { x with pend := { r with scores := r.scores ++ [v] } :: rest }
      (s.count R.AUD_SLOTS 1 g).activity g 0 512
  | [] => s

/-- An exact integer times an FP32 value, rounded once. -/
def fScaled (x : Int) (w : Nat) : Nat :=
  match fdec w with
  | .fin n m e => fround 24 .even (n != decide (x < 0)) (x.natAbs * m) e
  | _ => w

/-- Sequential FP32 sum. -/
def fsum (l : List Nat) : Nat := l.foldl (faddW 24) 0

/-- EXP(s - m) as a word. -/
def fexpDiff (x m : Nat) : Nat := (fexp (fsub 24 (fc x) (fc m))).w

/-- MAXABS and L1 of a row (R259): `u` says which positions are used. -/
def auditMetrics (s : List Nat) (u : List Bool) : Nat × Nat :=
  let max0 := fun (l : List Nat) => match l with | [] => 0 | a :: l => l.foldl fmaxW a
  let m := max0 s
  let us := ((s.zip u).filter (·.2)).map (·.1)
  let mh := max0 us
  let z := fsum (s.map fun x => fexpDiff x m)
  let zh := fsum (us.map fun x => fexpDiff x mh)
  let w := s.map fun x => fdivW 24 (fexpDiff x m) z
  let wh := (s.zip u).map fun p => if p.2 then fdivW 24 (fexpDiff p.1 mh) zh else 0
  let d := (w.zip wh).map fun p => faddW 24 p.1 (fnegW p.2) % 2 ^ 31
  (max0 d, fdivW 24 (fsum d) (fsum w))

/-- AUDIT_ROW_EVALUATE (R259, R260). -/
def auditRowEvaluate (g : Fin 6) (s : Dev) : Dev :=
  match (s.skip g).pend with
  | r :: rest =>
    if !s.galUp g || decide (r.scores.length < r.l.np)
      || decide (2 ^ s.fld R.AUD_CTL 3 0 g ≤ (s.skip g).wcnt) then s
    else
      let us := (List.range r.used).map fun i => s.rdN (r.l.list + r.row * r.l.stride + 2 * i) 2
      let sc := r.scores.map fun v => fScaled v r.l.sscale
      let (mx, l1) := auditMetrics sc ((List.range r.l.np).map fun j => j ∈ us)
      let s := s.modSkip g fun x => { x with
        pend := rest, wcnt := x.wcnt + 1, wmax := fmaxW x.wmax mx, wsum := faddW 24 x.wsum l1 }
      s.count R.AUD_ROWS 1 g
  | [] => s

/-- FP32 comparison a > b, false for a NaN. -/
def fGt (a b : Nat) : Bool := !fIsNan a && !fIsNan b && decide (fval b < fval a)

/-- AUDIT_WINDOW_COMPLETE (R260). -/
def auditWindowComplete (g : Fin 6) (s : Dev) : Dev :=
  let k := s.fld R.AUD_CTL 3 0 g
  let x := s.skip g
  if !s.galUp g || decide (x.wcnt < 2 ^ k) then s
  else
    let l1 := fmulW 24 x.wsum ((127 - k) * 2 ^ 23)
    let s := ((s.wr R.AUD_LWMAX x.wmax g).wr R.AUD_LWL1 l1 g).wr R.AUD_LWSEQ (s.rg R.AUD_LWSEQ g + 1) g
    let s := s.setB R.AUD_STAT 31 true g
    let s := if fGt x.wmax (s.rg R.AUD_BMAX g) || fGt l1 (s.rg R.AUD_BL1 g) then
        (s.orR R.AUD_FLAGS 1 g).count R.AUD_ALERTS 1 g else s
    s.modSkip g fun x => { x with wcnt := 0, wmax := 0, wsum := 0 }

/-- AUD_STAT. -/
def Dev.audStat (s : Dev) (g : Fin 6) : Nat :=
  let x := s.skip g
  let act := match x.pend with | r :: _ => !r.scores.isEmpty | [] => false
  b2n (s.bt R.AUD_STAT 31 g) * 2 ^ 31 + b2n act * 2 ^ 30 + x.pend.length * 2 ^ 27 + x.wcnt

/-! ### Commands -/

def execSkipListsReady (g : Fin 6) := ok (skipListsReady g)
def execSkipJobDone (g : Fin 6) := ok (skipJobDone g)
def execDeadlineMarkArrive (g : Fin 6) := ok (deadlineMarkArrive g)
def execAuditRowSlot (g : Fin 6) := ok (auditRowSlot g)
def execAuditRowEvaluate (g : Fin 6) := ok (auditRowEvaluate g)
def execAuditWindowComplete (g : Fin 6) := ok (auditWindowComplete g)

end Sys2Proof.Machine
end

