-- ==== Sys2Proof/Machine/Timetable.lean ====
section
/-!
DEFINITION. What fires with time: the alarms and flags of the meridian (R436 to R441), the corrections
of station time and its lock (R444 to R448), and the timetable (R449 to R459).
-/

namespace Sys2Proof.Machine

/-! ### Reports (R457) -/

/-- A timetable report of die `d` to ring `r` of die 0 or `r` + 3 of die 1, while the AO domain and
the compute die are up. -/
def Dev.ttReport (s : Dev) (d : Fin 2) (r : Nat) (fs : List (Nat × Nat × Nat)) : Dev :=
  if s.cdieOn && !(vget s.die d).inReset then s.report (r + 3 * d.val) (0x1A + d.val) fs R.TT_POSTLOST d
  else s

/-- Report of an alarm, or of OSF (0xFF). -/
def Dev.merReport (s : Dev) (d : Fin 2) (k : Nat) : Dev :=
  s.ttReport d 43 [(0x10, 1, k), (0x11, 1, s.fld R.MER_STAT 31 24 d), (0x14, 8, s.fld R.MER_SEC 39 0 d),
    (0x1C, 4, s.fld R.MER_SUB 14 0 d)]

/-! ### The meridian -/

/-- CRYSTAL_MISS (R438). -/
def crystalMiss (d : Fin 2) (s : Dev) : Dev :=
  ((s.setB R.MER_STAT 31 true d).setB R.MER_STAT 29 true d).merReport d 0xFF

/-- VBAT_BROWNOUT (R54, R438): VBAT lies below 1.60 V as well. -/
def vbatBrownout (d : Fin 2) (s : Dev) : Dev :=
  (((s.setB R.MER_STAT 31 true d).setB R.MER_STAT 28 true d).setB R.MER_STAT 30 true d).merReport d 0xFF

/-- ALM_SEC rises by the period until the alarm lies above the count. -/
def almNext (per count sub : Nat) (sec : Nat) : Nat :=
  let n := if sec * 2 ^ 15 + sub ≤ count then (count - (sec * 2 ^ 15 + sub)) / (per * 2 ^ 15) + 1 else 0
  sec + n * per

/-- ALARM_FIRE: an alarm whose time the count has passed (R441). -/
def alarmFire (d : Fin 2) (k : Fin 4) (s : Dev) : Dev :=
  if bit (vget s.tt d).almDue k.val = 0 then s
  else
    let s := s.modTt d fun t => { t with almDue := setBits t.almDue k.val k.val 0 }
    let s := s.setB R.MER_STAT k.val true d
    let per := s.rg R.ALM_PER d k.val
    let s := if per = 0 then s.setB R.ALM_CTL 31 false d k.val
      else s.setF R.ALM_SEC 39 0 (almNext per (s.merCount d) (s.fld R.ALM_CTL 14 0 d k.val)
        (s.fld R.ALM_SEC 39 0 d k.val)) d k.val
    s.merReport d k.val

/-! ### Corrections of station time (R444, R445) -/

/-- TS_STAT.WERR. -/
def Dev.tsWerr (s : Dev) : Dev := s.setB R.TS_STAT 26 true 0

/-- An initiator whose correction is ignored while the survey disciplines station time (R445). -/
def Dev.tsBlocked (s : Dev) (ini : Nat) : Bool := s.tsSrc == 2 && ini != 0x1C

/-- TS_FADJ_WRITE. -/
def tsFadjWrite (ini v : Nat) (s : Dev) : Dev :=
  if s.tsBlocked ini then s.tsWerr else s.wr R.TS_FADJ v 0

/-- TS_SLEW_WRITE: the write replaces the remaining amount. -/
def tsSlewWrite (ini v : Nat) (s : Dev) : Dev :=
  if s.tsBlocked ini then s.tsWerr else { s with time := { s.time with slew := toS 32 v * (tsNs : Int) } }

/-- TS_STEP_WRITE: the step takes effect at the next TCXO cycle. -/
def tsStepWrite (ini v : Nat) (s : Dev) : Dev :=
  if s.tsBlocked ini then s.tsWerr
  else { s with time := { s.time with step := some (s.time.step.getD 0 + toS 64 v) } }

/-- LOCK falls, and the run of good captures starts anew. -/
def Dev.unlock (s : Dev) : Dev := { s.setLock false with time := { s.time with ppsGood := 0 } }

/-- TS_CTL_WRITE: at any change of SRC, LOCK falls; the PPSMISS timer runs from a change to 1 (R445,
R447). While the trunk asserts survey lock, LOCK rises with SRC 2. -/
def tsCtlWrite (v : Nat) (s : Dev) : Dev :=
  let src := bits v 1 0
  if src = 3 ∨ bits v 20 16 < 8 ∨ 20 < bits v 20 16 then s.tsWerr
  else
    let old := s.tsSrc
    let s := s.plainWrite R.TS_CTL v 0
    if src = old then s
    else
      let s := s.unlock
      let s := { s with time := { s.time with ppsTimer := if src = 1 then some 0 else none } }
      if src = 2 ∧ s.bt R.TS_STAT 27 0 = true then s.setLock true else s

/-- SLEW_COMPLETE: the last cycle adds the remainder (R444). -/
def slewComplete (s : Dev) : Dev :=
  let q : Int := 625 * 2 ^ (40 - s.fld R.TS_CTL 20 16 0)
  let x := s.time.slew
  if x ≤ q ∧ -q ≤ x then { s with time := { s.time with units := tsAdd s.time.units x, slew := 0 } } else s

/-- TS_STAT as a read shows it on either die: LOCK, SLEWING and SLOCK are those of I/O die 0 (R448). -/
def Dev.tsStat (s : Dev) (d : Fin 2) : Nat :=
  let own := s.rg R.TS_STAT d
  bit (s.rg R.TS_STAT 0) 31 * 2 ^ 31 + bits own 30 29 * 2 ^ 29 + b2n (s.time.slew != 0) * 2 ^ 28
    + bit (s.rg R.TS_STAT 0) 27 * 2 ^ 27 + bit own 26 * 2 ^ 26

/-- TS_INFO. -/
def Dev.tsInfo (s : Dev) : Nat :=
  b2n s.trust * 2 ^ 31 + b2n s.lock * 2 ^ 30 + b2n s.osf * 2 ^ 29 + s.frac

/-! ### PPS (R446, R447) -/

/-- ERR of a capture. -/
def ppsErr (ns : Nat) : Int :=
  let r : Nat := ns % 10 ^ 9
  if r ≤ 500000000 then (r : Int) else (r : Int) - 10 ^ 9

/-- LOCK at a capture while SRC is 1. -/
def Dev.ppsLock (s : Dev) (err : Int) : Dev :=
  let thr := s.fld R.PPS_CFG 15 0 0
  let n := if err.natAbs ≤ thr then s.time.ppsGood + 1 else 0
  let s := { s with time := { s.time with ppsGood := n, ppsTimer := some 0 } }
  if 4 * thr < err.natAbs then s.unlock else if 4 ≤ n then s.setLock true else s

/-- PPS_CAPTURE: an edge of PPS_IN, `up` rising, `off` units after the current TCXO cycle began. The
capture lies within 1 ns of it: which value is free. -/
def ppsCapture (up : Bool) (off : Nat) (s : Dev) : Dev :=
  if up == s.bt R.TS_CTL 8 0 then s
  else
    match s.time.ppsAge with
    | some a =>
      if a < 19200000 then s.count R.PPS_IGN 1 0 else take s
    | none => take s
where
  take (s : Dev) : Dev :=
    let (r, s) := s.draw
    let u := tsAdd s.time.units (Int.ofNat (off % tsTickUnits + r % (2 * tsNs + 1)) - (tsNs : Int))
    let ns := u / tsNs
    let err := ppsErr ns
    let seq := (s.rg R.PPS_SEQ 0 + 1) % 2 ^ 32
    let s := ((s.wr R.PPS_CAP ns 0).wr R.PPS_INFO (ofS 32 err) 0).wr R.PPS_SEQ seq 0
    let s := { s with time := { s.time with ppsAge := some 0 } }
    let s := if s.tsSrc = 1 then s.ppsLock err else s
    s.ttReport 0 44 [(0x10, 4, seq), (0x14, 4, ofS 32 err), (0x18, 8, ns),
      (0x20, 2, u * 2 ^ 16 / tsNs % 2 ^ 16), (0x22, 1, b2n s.lock), (0x23, 1, b2n s.trust)]

/-- PPS_MISS_TIMEOUT: 1.5 s, which is 57,600,000 TCXO cycles, without a captured edge (R447). -/
def ppsMissTimeout (s : Dev) : Dev :=
  match s.time.ppsTimer with
  | none => s
  | some t =>
    if s.tsSrc = 1 ∧ 57600000 ≤ t then
      let s := (s.unlock).setB R.TS_STAT 29 true 0
      { s with time := { s.time with ppsTimer := none } }
    else s

/-! ### The timetable (R449 to R456) -/

/-- Raise a bit of TT_IRQ: 0 FIRE, 1 LATE, 2 DISCARD, 3 ERR, 4 TGTOFF. -/
def Dev.ttIrq (s : Dev) (d : Fin 2) (b : Nat) : Dev := s.orR R.TT_IRQ (2 ^ b) d

/-- An access to an entry that is refused (TT_STAT.ERR). -/
def Dev.ttErr (s : Dev) (d : Fin 2) (n : Nat) : Dev := (s.setB R.TT_STAT 29 true d n).ttIrq d 3

/-- VALID of an entry. -/
def Dev.ttValid (s : Dev) (d : Fin 2) (n : Nat) : Bool := s.bt R.TT_CTL 29 d n

/-- An entry leaves the armed state. -/
def Dev.ttUnarm (s : Dev) (d : Fin 2) (n : Nat) : Dev :=
  (s.setB R.TT_CTL 29 false d n).modTt d fun t => { t with late := t.late.filter (·.1 != n) }

/-- A report of an entry with REPORT = 1. `cause`: 0 late fire, 1 discard at arming, 2 discard after a
step, 3 compute die off, 4 target off, 5 ring not enabled (R457). -/
def Dev.ttEntryReport (s : Dev) (d : Fin 2) (n cause time : Nat) : Dev :=
  if s.bt R.TT_CTL 26 d n then
    s.ttReport d 42 [(0x10, 2, n), (0x12, 1, cause), (0x13, 1, b2n s.trust),
      (0x14, 4, ofS 32 ((s.tk : Int) - time)), (0x18, 8, time), (0x20, 8, s.ns)]
  else s

/-- Occurrences passed over count in SKIPS and TT_SKIPS. -/
def Dev.ttSkip (s : Dev) (d : Fin 2) (n k : Nat) : Dev :=
  if k = 0 then s
  else (s.setF R.TT_STAT 15 0 (min (s.fld R.TT_STAT 15 0 d n + k) 0xFFFF) d n).count R.TT_SKIPS k d

/-- An entry is discarded: flag, counter and RESULT (R452, R454). -/
def Dev.ttDiscard (s : Dev) (d : Fin 2) (n : Nat) : Dev :=
  ((((s.setB R.TT_STAT 30 true d n).setF R.TT_STAT 27 24 3 d n).count R.TT_DISCARDS 1 d).ttIrq d 2)

/-- R452 for an armed entry whose TIME is at or before TK + 2: at arming, or after a forward step
(R453). -/
def Dev.ttLate (s : Dev) (d : Fin 2) (n : Nat) (step : Bool) : Dev :=
  let time := s.rg R.TT_TIME d n
  let per := s.rg R.TT_PER d n
  if s.bt R.TT_CTL 28 d n then
    let s := if per = 0 then s.ttUnarm d n
      else
        let k := (s.tk + 2 - time) / per + 1
        (s.wr R.TT_TIME (time + k * per) d n).ttSkip d n k
    (s.ttDiscard d n).ttEntryReport d n (if step then 2 else 1) time
  else
    let c := (vget s.die d).tcxo
    s.modTt d fun t => { t with late := t.late ++ [(n, c)] }

/-- The bits of ACT that a kind defines (R451). -/
def actMask (kind : Nat) : Option Nat :=
  match kind with
  | 1 => some 0x1F0F
  | 2 => some 0x3FF
  | 3 => some 0x1FFFF
  | 4 => some 7
  | 5 => some 1
  | 6 => some 0xF
  | _ => none

/-- May an entry with these fields be armed (R449, R451)? -/
def actOk (act arg : Nat) : Bool :=
  let k := bits act 31 28
  match actMask k with
  | none => false
  | some m => andNot (act % 2 ^ 28) m == 0 && (k == 2 || k == 3 || arg == 0)
      && !(k == 1 && bits act 3 2 == 3) && !(k == 6 && (decide (6 ≤ act % 16) && act % 16 != 8))

/-- A write of TT_CTL: TT_ARM and TT_DISARM (R449, R455). -/
def ttCtlWrite (d : Fin 2) (n : Fin 256) (v : Nat) (s : Dev) : Dev :=
  let k := n.val
  let dis := bit v 30 == 1
  if s.ttValid d k && !dis then
    if bit v 31 = 1 ∨ bits v 28 26 ≠ s.fld R.TT_CTL 28 26 d k then s.ttErr d k else s
  else
    let s := if dis then s.ttUnarm d k else s
    let s := s.setF R.TT_CTL 28 26 (bits v 28 26) d k
    if bit v 31 = 0 then s
    else if !actOk (s.rg R.TT_ACT d k) (s.rg R.TT_ARG d k) then s.ttErr d k
    else
      let s := (s.setB R.TT_CTL 29 true d k).setF R.TT_STAT 15 0 0 d k
      if s.rg R.TT_TIME d k ≤ s.tk + 2 then s.ttLate d k false else s

/-- A write of TT_TIME, TT_ACT, TT_ARG or TT_PER (R449). -/
def ttParamWrite (r : RegDef) (d : Fin 2) (n : Fin 256) (v : Nat) (s : Dev) : Dev :=
  if s.ttValid d n.val then s.ttErr d n.val else s.plainWrite r v d n.val

/-- RESULT becomes `r`. -/
def Dev.ttResult (s : Dev) (d : Fin 2) (n r : Nat) : Dev := s.setF R.TT_STAT 27 24 r d n

/-- An action whose target is off is not performed (R454). -/
def Dev.ttOff (s : Dev) (d : Fin 2) (n time : Nat) : Dev :=
  (((s.ttResult d n 2).count R.TT_TGTOFF 1 d).ttIrq d 4).ttEntryReport d n 4 time

/-- Perform the action of an entry that fires with TIME `time` (R451, R454, R456). -/
def Dev.ttAct (s : Dev) (d : Fin 2) (n time : Nat) (late : Bool) : Dev :=
  let act := s.rg R.TT_ACT d n
  let arg := s.rg R.TT_ARG d n
  match bits act 31 28 with
  | 1 =>
    let p := act % 4
    let e := bits act 3 2
    let lv := if e < 2 then e == 1 else !s.bt R.TT_PINS p d
    (s.setB R.TT_PINS p lv d).ttResult d n 1
  | 2 =>
    let r := act % 1024
    if !s.ringEn r then (s.ttResult d n 4).ttEntryReport d n 5 time
    else
      let e := entry64 [(0xE, 2, n), (0x10, 4, arg), (0x14, 4, ofS 32 ((s.tk : Int) - time)),
        (0x18, 8, time), (0x20, 8, s.ns), (0x28, 1, b2n s.trust + 2 * b2n late)]
      let (code, _, s) := s.ringPost r ⟨0x1A + d.val, 0, none⟩ e
      (s.serve.ttResult d n 1).setF R.TT_STAT 23 20 code d n
  | 3 =>
    let c := act % 65536
    (if bit act 16 = 1 then s.cellSet c arg (0x1A + d.val) else s.cellAdd c arg (0x1A + d.val)).ttResult d n 1
  | 4 => if s.ioUp d 2 then (s.transmit d (act % 8) s.time.units).ttResult d n 1 else s.ttOff d n time
  | 5 => if s.ioUp d 1 then (s.meterShot d (Fin.ofNat 2 act)).ttResult d n 1 else s.ttOff d n time
  | _ =>
    if act % 16 = 8 then
      if s.ioUp d 2 then
        (s.modTt d fun t => { t with radMarks := t.radMarks ++ [⟨s.ns, late⟩] }).ttResult d n 1
      else s.ttOff d n time
    else
      match toGal (act % 16) with
      | none => s
      | some g =>
        if s.galUp g then
          ((s.orR R.TT_MARKST (2 ^ g.val) d).modTt d fun t => { t with
            galMarks := t.galMarks ++ [g.val] }).ttResult d n 1
        else s.ttOff d n time

/-- One entry fires (R450, R452, R454). A ring post or cell operation whose time comes while the
compute die is off is discarded (R14). -/
def Dev.ttFire (s : Dev) (d : Fin 2) (n : Nat) (late : Bool) : Dev :=
  let time := s.rg R.TT_TIME d n
  let per := s.rg R.TT_PER d n
  let kind := s.fld R.TT_ACT 31 28 d n
  let s := s.modTt d fun t => { t with late := t.late.filter (·.1 != n) }
  if (kind = 2 ∨ kind = 3) ∧ s.cdieOn = false then
    ((s.ttUnarm d n).ttDiscard d n).ttEntryReport d n 3 time
  else
    let s := (s.wr R.TT_LATEBY (ofS 32 ((s.tk : Int) - time)) d n).count R.TT_FIRES 1 d
    let s := if late then
        (((s.setB R.TT_STAT 31 true d n).count R.TT_LATES 1 d).ttIrq d 1).ttEntryReport d n 0 time
      else s
    let s := if s.bt R.TT_CTL 27 d n then s.ttIrq d 0 else s
    let s := s.ttAct d n time late
    if per = 0 then s.ttUnarm d n
    else if late then
      let j := (s.tk + 2 - time) / per + 1
      (s.wr R.TT_TIME (time + j * per) d n).ttSkip d n (j - 1)
    else s.wr R.TT_TIME (time + per) d n

/-- How an entry is due in this TCXO cycle: `some late`, or not at all. -/
def Dev.ttDue (s : Dev) (d : Fin 2) (n : Nat) : Option Bool :=
  if !s.ttValid d n then none
  else match (vget s.tt d).late.find? (·.1 == n) with
    | some (_, c) => if c < (vget s.die d).tcxo then some true else none
    | none => if s.rg R.TT_TIME d n ≤ s.tk then some false else none

/-- TIMETABLE_FIRE: every entry due in this TCXO cycle, in ascending order (R450). -/
def timetableFire (d : Fin 2) (s : Dev) : Dev :=
  if (vget s.die d).inReset then s
  else (List.range 256).foldl (fun s n => match s.ttDue d n with
    | some late => s.ttFire d n late
    | none => s) s

/-! ### A step takes effect (R337, R423, R444, R447, R453) -/

/-- R453 on one timetable, after a forward step. -/
def Dev.ttStepped (s : Dev) (d : Fin 2) : Dev :=
  (List.range 256).foldl (fun s n =>
    if s.ttValid d n && !((vget s.tt d).late.any (·.1 == n)) && decide (s.rg R.TT_TIME d n ≤ s.tk + 2)
    then s.ttLate d n true else s) s

/-- What a step of `x` ns does on one I/O die. -/
def Dev.dieStepped (s : Dev) (x : Int) (d : Fin 2) : Dev :=
  if !s.fitted d.val || (vget s.die d).inReset then s
  else
    let s := s.setB R.TS_STAT 30 true d
    let s := if 0 < x then s.ttStepped d else s
    let s := if s.ioUp d 2 then s.radioRealign d else s
    if s.ioUp d 3 then s.acRealign d else s

/-- What the step of the TCXO cycle that has just begun does besides moving the count. -/
def Dev.stepped (s : Dev) (x : Int) : Dev :=
  let s := if s.tsSrc = 1 then s.unlock else s
  (s.dieStepped x 0).dieStepped x 1

end Sys2Proof.Machine
end

