-- ==== Sys2Proof/Machine/Frame.lean ====
section
/-!
DEFINITION. Survey frames (R462, R463, R468) and the transmit side of a trunk link (R460, R465, R466).
-/

namespace Sys2Proof.Machine

/-! ### Frames -/

/-- One bit step of the CRC-16 with polynomial 0x1021. -/
def crc16Bit (c : Nat) : Nat := if 2 ^ 15 ≤ c then (2 * c % 2 ^ 16) ^^^ 0x1021 else 2 * c

/-- CRC-16 of HCS (R463). -/
def crc16 (l : List Byte) : Nat :=
  l.foldl (fun c b => crc16Bit (crc16Bit (crc16Bit (crc16Bit (crc16Bit (crc16Bit (crc16Bit (crc16Bit
    (c ^^^ b.toNat * 256))))))))) 0xFFFF

/-- The `n` big-endian bytes of a value. -/
def beBytes (n v : Nat) : List Byte := (leBytes n v).reverse

/-- Big-endian field of `n` bytes at `o`. -/
def beAt (l : List Byte) (o n : Nat) : Nat := beNat ((l.drop o).take n)

/-- A frame with bytes 6, 7, 14 and 15 taken as 0 (R463). -/
def crcView (l : List Byte) : List Byte := putBytes (putBytes l 6 [0, 0]) 14 [0, 0]

/-- Put the HCS of a header. -/
def sealHcs (l : List Byte) : List Byte := putBytes l 14 (beBytes 2 (crc16 (l.take 14)))

/-- A frame's CRC-32, sent least significant byte first. -/
def frameCrc (l : List Byte) : List Byte := leBytes 4 (crc32 (crcView l))

/-- Fields of a frame's header that the originator chooses. -/
structure Head where
  cls : Nat
  typ : Nat
  bcast : Bool
  dst : Nat
  src : Nat
  ttl : Nat
  tag : Nat

/-- A frame (R462). -/
def mkFrame (h : Head) (payload : List Byte) : List Byte :=
  let b := sealHcs ([BitVec.ofNat 8 (64 + 16 * h.cls + h.typ), BitVec.ofNat 8 (128 * b2n h.bcast)]
    ++ beBytes 2 h.dst ++ beBytes 2 h.src ++ beBytes 2 h.ttl ++ beBytes 2 payload.length
    ++ beBytes 4 h.tag ++ [0, 0]) ++ payload
  b ++ frameCrc b

/-- CLASS, TYPE, BCAST, DST, SRC, PROT, TTL, LEN and TAG of a frame. -/
def fCls (l : List Byte) : Nat := bits (beAt l 0 1) 5 4
def fTyp (l : List Byte) : Nat := bits (beAt l 0 1) 3 0
def fBcast (l : List Byte) : Bool := bit (beAt l 1 1) 7 == 1
def fDst (l : List Byte) : Nat := beAt l 2 2 % 1024
def fSrc (l : List Byte) : Nat := beAt l 4 2 % 1024
def fProt (l : List Byte) : Bool := bit (beAt l 6 1) 7 == 1
def fTtl (l : List Byte) : Nat := beAt l 6 2 % 1024
def fLen (l : List Byte) : Nat := beAt l 8 2
def fTag (l : List Byte) : Nat := beAt l 10 4

/-- Field of a frame's payload. -/
def fPay (l : List Byte) (o n : Nat) : Nat := beAt l (16 + o) n

/-- HCS, VER and LEN are good (R463). -/
def headOk (l : List Byte) : Bool :=
  decide (16 ≤ l.length) && beAt l 14 2 == crc16 (l.take 14) && bits (beAt l 0 1) 7 6 == 1
    && decide (fLen l ≤ 2048) && fLen l % 4 == 0

/-- CLASS and TYPE name a frame of R468. -/
def typeOk (l : List Byte) : Bool :=
  match fCls l with
  | 0 => decide (fTyp l ≤ 3)
  | 3 => fTyp l == 0
  | _ => decide (fTyp l ≤ 1)

/-- The CRC-32 passes; a frame that is not as long as its LEN says fails. -/
def crcOk (l : List Byte) : Bool :=
  let n := 16 + fLen l
  l.length == n + 4 && (l.drop n == frameCrc (l.take n))

/-- Rewrite TTL, PROT and HCS (R463). -/
def reTtl (l : List Byte) (prot : Bool) (ttl : Nat) : List Byte :=
  sealHcs (putBytes l 6 (beBytes 2 (2 ^ 15 * b2n prot + ttl)))

/-- Stomp a frame: its CRC is sent inverted (R463). -/
def stomp (l : List Byte) : List Byte :=
  let n := l.length - 4
  l.take n ++ (l.drop n).map (~~~ ·)

/-- Replace part of the payload and seal the CRC again. -/
def rePay (l : List Byte) (o : Nat) (b : List Byte) : List Byte :=
  let l := putBytes (l.take (16 + fLen l)) (16 + o) b
  l ++ frameCrc l

/-- Credits of a frame (R466). -/
def credits (l : List Byte) : Nat := (20 + fLen l + 63) / 64

/-! ### State of a trunk -/

/-- Change of a trunk's state. -/
def Dev.modTrk (s : Dev) (d : Fin 2) (f : TrunkSt → TrunkSt) : Dev := { s with trk := vmod s.trk d f }

/-- Change of a link. -/
def Dev.modLink (s : Dev) (d l : Fin 2) (f : LinkSt → LinkSt) : Dev :=
  s.modTrk d fun t => { t with link := vmod t.link l f }

/-- A link. -/
def Dev.lnk (s : Dev) (d l : Fin 2) : LinkSt := vget (vget s.trk d).link l

/-- The other link of a die. -/
def otherLink (l : Fin 2) : Fin 2 := if l = 0 then 1 else 0

/-- TCXO cycles since the release of the die's reset. -/
def Dev.cyc (s : Dev) (d : Fin 2) : Nat := (vget s.die d).tcxo

/-- The trunk is powered and enabled. -/
def Dev.trkOn (s : Dev) (d : Fin 2) : Bool := s.ioUp d 4 && s.bt R.TRK_CTL 31 d

/-- A link is enabled. -/
def Dev.lnkOn (s : Dev) (d l : Fin 2) : Bool := s.trkOn d && s.bt R.TRK_CTL l.val d

/-- The number is valid (R472). -/
def Dev.numOk (s : Dev) (d : Fin 2) : Bool := s.bt R.TRK_STN 31 d

/-- The station's number. -/
def Dev.num (s : Dev) (d : Fin 2) : Nat := s.fld R.TRK_STN 9 0 d

/-- The die's identifier. -/
def trkUid (d : Fin 2) : Nat := Config.factoryUid d.val % 2 ^ 64

/-- Raise a bit of TRK_IRQ: 0 LINK, 1 TOPO, 2 NUM, 3 DUP, 4 ROOT, 5 SLOCK, 6 WRAP, 7 ACAL, 8 RXDROP. -/
def Dev.trkIrq (s : Dev) (d : Fin 2) (b : Nat) : Dev := s.orR R.TRK_IRQ (2 ^ b) d

/-- A survey event (R487). LINK and ARG are free where the event has none. A post that is not taken is
lost. -/
def Dev.trkEvent (s : Dev) (d : Fin 2) (code : Nat) (link arg : Option Nat) : Dev :=
  let (x, s) := s.draw
  let (y, s) := s.draw
  if !s.cdieOn then s
  else
    (s.blockPost (27 + 8 * d.val) (0x1C + d.val) [(0x10, 1, code), (0x11, 1, link.getD x),
      (0x12, 2, arg.getD y), (0x14, 8, s.ns)]).2

/-- A stamp at the pins, within 2 ns of the true instant (R476). -/
def Dev.pinStamp (s : Dev) : Nat × Dev :=
  let (x, s) := s.draw
  (s.ns + x % 5 - 2, s)

/-! ### Transmit queues (R465, R466) -/

/-- The frame a class would send next: transit frames and frames originated here take turns. -/
def LinkSt.head (x : LinkSt) (k : Fin 4) : Option (Bool × QFrame) :=
  match vget x.own k, vget x.transit k with
  | [], [] => none
  | f :: _, [] => some (true, f)
  | [], f :: _ => some (false, f)
  | f :: _, g :: _ => if vget x.turn k then some (true, f) else some (false, g)

/-- Credits of a class suffice for a frame; time frames need none. -/
def LinkSt.fits (x : LinkSt) (k : Fin 4) (f : QFrame) : Bool :=
  if h : k.val = 0 then true
  else
    let i : Fin 3 := ⟨k.val - 1, by omega⟩
    let room := (vget x.grant i + 2 ^ 32 - vget x.sent i) % 2 ^ 32
    decide (f.credits ≤ room) && decide (room < 2 ^ 31)

/-- The frame to send next, in strict priority; a link that is down sends only HELLO. -/
def LinkSt.pick (x : LinkSt) : Option (Fin 4 × Bool × QFrame) :=
  if x.up then
    (List.finRange 4).findSome? fun k =>
      (x.head k).bind fun p => if x.fits k p.2 then some (k, p.1, p.2) else none
  else
    ((vget x.own 0).find? fun f => fTyp f.bytes == 2).map fun f => (0, true, f)

/-- Take a frame from its queue and count its credits. -/
def LinkSt.take (x : LinkSt) (k : Fin 4) (own : Bool) (f : QFrame) : LinkSt :=
  let x := if own then { x with own := vmod x.own k fun l => l.erase f }
    else { x with transit := vmod x.transit k fun l => l.erase f }
  let x := { x with turn := vset x.turn k (!own) }
  if h : k.val = 0 then x
  else
    let i : Fin 3 := ⟨k.val - 1, by omega⟩
    { x with sent := vmod x.sent i fun n => (n + f.credits) % 2 ^ 32 }

/-- A link that sends nothing starts its next frame. A TT_REQ records t1 and a TT_RESP takes t3 as it
leaves (R476). -/
def Dev.kick (s : Dev) (d l : Fin 2) : Dev :=
  if !s.lnkOn d l || (s.lnk d l).tx.isSome then s
  else
    match (s.lnk d l).pick with
    | none => s
    | some (k, own, f) =>
      let s := s.modLink d l fun x => x.take k own f
      if fCls f.bytes = 0 ∧ fTyp f.bytes = 0 then
        let (t, s) := s.pinStamp
        s.modLink d l fun x => { x with
          tx := some f, exch := some ⟨fPay f.bytes 0 4, fTag f.bytes, t, s.cyc d⟩ }
      else if fCls f.bytes = 0 ∧ fTyp f.bytes = 1 then
        let (t, s) := s.pinStamp
        s.modLink d l fun x => { x with
          tx := some { f with bytes := rePay f.bytes 16 (beBytes 8 t) } }
      else s.modLink d l fun x => { x with tx := some f }

/-- Return the credits of a frame to the link it arrived on. -/
def Dev.giveBack (s : Dev) (d l : Fin 2) (b : List Byte) : Dev :=
  let k := fCls b
  if h : 1 ≤ k ∧ k ≤ 3 then
    s.modLink d l fun x => { x with
      given := vmod x.given ⟨k - 1, by omega⟩ fun n => (n + credits b) % 2 ^ 32 }
  else s

/-- Put a frame on a link's queue. -/
def Dev.enq (s : Dev) (d l : Fin 2) (f : QFrame) : Dev :=
  let k : Fin 4 := Fin.ofNat 4 f.cls
  let s := s.modLink d l fun x =>
    if f.ingress.isSome then { x with transit := vmod x.transit k (· ++ [f]) }
    else { x with own := vmod x.own k (· ++ [f]) }
  s.kick d l

/-- Send a frame out of a link; one that would leave by a link whose wrap is active leaves by the other
link (R471). TOPO frames and hop-local frames are not wrapped (log entry 30). -/
def Dev.sendOut (s : Dev) (d l : Fin 2) (f : QFrame) : Dev :=
  match (s.lnk d l).wrap with
  | some n =>
    if (s.lnk d l).up then s.enq d l f
    else if f.cls = 0 then
      if fTyp f.bytes = 3 then s else s.enq d l f
    else if fProt f.bytes then
      match f.ingress with
      | some i => s.giveBack d i f.bytes
      | none => s
    else
      (s.count R.WRAPS 1 d l.val).enq d (otherLink l) { f with bytes := reTtl f.bytes true (n - 1) }
  | none => s.enq d l f

/-- A frame originated here. -/
def Dev.sendOwn (s : Dev) (d l : Fin 2) (b : List Byte) (bulk : Option Nat) : Dev :=
  s.sendOut d l ⟨b, fCls b, credits b, none, bulk⟩

/-- Number for SRC; what stands there while the station has none is free. -/
def Dev.srcNum (s : Dev) (d : Fin 2) : Nat × Dev :=
  if s.numOk d then (s.num d, s) else
    let (x, s) := s.draw
    (x % 1024, s)

/-- A fresh TAG. -/
def Dev.freshTag (s : Dev) (d : Fin 2) : Nat × Dev :=
  ((vget s.trk d).tag, s.modTrk d fun t => { t with tag := (t.tag + 1) % 2 ^ 32 })

/-- A hop-local frame; its DST and TTL are not stated: free values. -/
def Dev.sendLocal (s : Dev) (d l : Fin 2) (typ tag : Nat) (payload : List Byte) : Dev :=
  let (x, s) := s.draw
  let (y, s) := s.draw
  let (n, s) := s.srcNum d
  s.enq d l (let b := mkFrame ⟨0, typ, false, x % 1024, n, y % 1024, tag⟩ payload
    ⟨b, 0, 0, none, none⟩)

end Sys2Proof.Machine
end

