-- ==== Sys2Proof/Machine/Survey.lean ====
section
/-!
DEFINITION. The survey as a trunk sees it: topology, root, routes and station numbers (R469 to R475).
-/

namespace Sys2Proof.Machine

/-! ### The map (R469) -/

/-- Hop count of a heard station by link. -/
def TopoEnt.hop (e : TopoEnt) (l : Fin 2) : Option Nat := (vget e.hear l).map (·.1)

/-- Number of a heard station, if valid. -/
def TopoEnt.num (e : TopoEnt) : Option Nat :=
  let w := beAt e.payload 8 2
  if bit w 15 = 1 then some (w % 1024) else none

/-- STATE bit of a heard station. -/
def TopoEnt.st (e : TopoEnt) (b : Nat) : Bool := bit (beAt e.payload 10 1) b == 1

/-- The smaller hop count, and its link; west (link 0) on a tie. -/
def TopoEnt.near (e : TopoEnt) : Option (Nat × Fin 2) :=
  match e.hop 0, e.hop 1 with
  | some w, some x => if x < w then some (x, 1) else some (w, 0)
  | some w, none => some (w, 0)
  | none, some x => some (x, 1)
  | none, none => none

/-- NSTN. -/
def Dev.nstn (s : Dev) (d : Fin 2) : Nat := (vget s.trk d).map.length + 1

/-- TOPO: 0 alone, 1 chain, 2 ring. -/
def Dev.topoKind (s : Dev) (d : Fin 2) : Nat :=
  let t := vget s.trk d
  if t.ring.isSome then 2 else if t.map.isEmpty then 0 else 1

/-- TRK_STAT. -/
def Dev.trkStat (s : Dev) (d : Fin 2) : Nat :=
  let x := s.rg R.TRK_STAT d
  b2n (s.lnk d 1).up * 2 ^ 31 + b2n (s.lnk d 0).up * 2 ^ 30 + bits x 29 26 * 2 ^ 26
    + s.topoKind d * 2 ^ 24 + b2n (s.lnk d 1).wrap.isSome * 2 ^ 23
    + b2n (s.lnk d 0).wrap.isSome * 2 ^ 22 + bits x 21 20 * 2 ^ 20 + s.nstn d % 2 ^ 11

/-! ### The root (R475) -/

/-- SRC as the trunk of a die takes it: that of I/O die 1 never follows the survey (R488). -/
def Dev.follows (s : Dev) (d : Fin 2) : Bool := d == 0 && s.tsSrc == 2

/-- This station is root-eligible. -/
def Dev.eligibleRoot (s : Dev) (d : Fin 2) : Bool :=
  decide (s.fld R.TRK_TCFG 31 24 d < 255) && !s.follows d

/-- A candidate: LOCK, ROOTPRI, number, UID. -/
structure Cand where
  lock : Bool
  pri : Nat
  num : Nat
  uid : Nat

/-- Order of candidates (R475). -/
def Cand.before (a b : Cand) : Bool :=
  if a.lock != b.lock then a.lock
  else if a.pri ≠ b.pri then decide (a.pri < b.pri)
  else decide (a.num < b.num)

/-- The root by the present map. -/
def Dev.bestRoot (s : Dev) (d : Fin 2) : Option Cand :=
  let own := if s.eligibleRoot d then [⟨s.lock, s.fld R.TRK_TCFG 31 24 d, s.num d, trkUid d⟩] else []
  let heard := ((vget s.trk d).map.filter (·.st 0)).map fun e =>
    (⟨e.st 1, beAt e.payload 11 1, beAt e.payload 8 2 % 1024, e.uid⟩ : Cand)
  (own ++ heard).foldl (fun b c => match b with
    | none => some c
    | some x => if c.before x then some c else b) none

/-- A heard station by its UID. -/
def Dev.heard (s : Dev) (d : Fin 2) (uid : Nat) : Option TopoEnt :=
  (vget s.trk d).map.find? (·.uid == uid)

/-- This station is the root. -/
def Dev.isRoot (s : Dev) (d : Fin 2) : Bool := (vget s.trk d).root == some (trkUid d)

/-- Map entry of the root, where another station is. -/
def Dev.rootEnt (s : Dev) (d : Fin 2) : Option TopoEnt :=
  if s.isRoot d then none else (vget s.trk d).root.bind fun u => s.heard d u

/-- Number of the root. -/
def Dev.rootNum (s : Dev) (d : Fin 2) : Option Nat :=
  if s.isRoot d then some (s.num d) else (s.rootEnt d).map fun e => beAt e.payload 8 2 % 1024

/-- Hop count to the root. -/
def Dev.rhops (s : Dev) (d : Fin 2) : Option Nat :=
  if s.isRoot d then some 0 else ((s.rootEnt d).bind TopoEnt.near).map (·.1)

/-- Upstream link of a station that follows the survey and is not root. -/
def Dev.upLink (s : Dev) (d : Fin 2) : Option (Fin 2) :=
  if s.follows d then ((s.rootEnt d).bind TopoEnt.near).map (·.2) else none

/-- The root announces TRUST (R479). -/
def Dev.rootTrust (s : Dev) (d : Fin 2) : Bool :=
  if s.isRoot d then s.trust else match s.rootEnt d with | some e => e.st 2 | none => false

/-- SLOCK. -/
def Dev.slock (s : Dev) (d : Fin 2) : Bool := s.bt R.TRK_TSTAT 30 d

/-- TRK_TSTAT. RHOPS and ROOTNUM read 0 while no root is known. -/
def Dev.trkTstat (s : Dev) (d : Fin 2) : Nat :=
  b2n (s.isRoot d) * 2 ^ 31 + b2n (s.slock d) * 2 ^ 30 + b2n (s.upLink d).isSome * 2 ^ 29
    + (match s.upLink d with | some l => l.val | none => 0) * 2 ^ 28
    + (s.rhops d).getD 0 % 2 ^ 10 * 2 ^ 16 + (s.rootNum d).getD 0

/-- Survey lock rises or falls (R479); with SRC 2, LOCK follows it (R447). -/
def Dev.setSlock (s : Dev) (d : Fin 2) (b : Bool) : Dev :=
  if s.slock d == b then s
  else
    let s := (s.setB R.TRK_TSTAT 30 b d).trkIrq d 5
    let s := s.modTrk d fun t => { t with slGood := if b then t.slGood else 0 }
    let s := if d = 0 then s.setB R.TS_STAT 27 b 0 else s
    let s := if d = 0 ∧ s.tsSrc = 2 then s.setLock b else s
    s.trkEvent d (if b then 7 else 8) none none

/-! ### TOPO (R468, R469, R471) -/

/-- Payload of TOPO. `flags`: bit 4 BREAK, 5 REPAIR, 6 west side; `far`: number of the station across
the span. What ROOT and RHOPS show while no root is known is free. -/
def Dev.topoPayload (s : Dev) (d : Fin 2) (flags : Nat) (far : Option Nat) : List Byte × Dev :=
  let (x, s) := s.draw
  let (y, s) := s.draw
  let mode := s.fld R.TRK_STN 29 28 d
  let v := s.numOk d
  let st := b2n (s.eligibleRoot d) + 2 * b2n s.lock + 4 * b2n s.trust + 8 * bit (s.rg R.TRK_STAT d) 20
    + flags
  (beBytes 8 (trkUid d) ++ beBytes 2 (2 ^ 15 * b2n v + 2 ^ 14 * b2n (v && mode != 0) + s.num d)
    ++ beBytes 1 st ++ beBytes 1 (s.fld R.TRK_TCFG 31 24 d)
    ++ beBytes 2 (far.getD ((s.rootNum d).getD x)) ++ beBytes 2 ((s.rhops d).getD y), s)

/-- Send TOPO out of a link that is up. -/
def Dev.topoOut (s : Dev) (d l : Fin 2) (flags : Nat) (far : Option Nat) : Dev :=
  if !(s.lnk d l).up then s
  else
    let (p, s) := s.topoPayload d flags far
    let (n, s) := s.srcNum d
    let (t, s) := s.freshTag d
    s.sendOwn d l (mkFrame ⟨0, 3, true, 0, n, 1023, t⟩ p) none

/-- Send TOPO out of both links. -/
def Dev.sendTopo (s : Dev) (d : Fin 2) : Dev := (s.topoOut d 0 0 none).topoOut d 1 0 none

/-- TOPO_SEND. -/
def topoSend (d : Fin 2) (s : Dev) : Dev := if s.trkOn d then s.sendTopo d else s

/-- A change of the topology: flag and event (R469). -/
def Dev.topoChanged (s : Dev) (d : Fin 2) : Dev :=
  (s.trkIrq d 1).trkEvent d 3 none (some (s.nstn d))

/-- The root is chosen anew; a change is reported and sent (R475, R479). -/
def Dev.reroot (s : Dev) (d : Fin 2) : Dev :=
  let r := (s.bestRoot d).map (·.uid)
  let s := if r == (vget s.trk d).root then s
    else
      let s := s.modTrk d fun t => { t with root := r }
      ((s.trkIrq d 4).trkEvent d 6 none (s.rootNum d)).sendTopo d
  if s.slock d && !s.rootTrust d then s.setSlock d false else s

/-- BREAK or REPAIR frames (R471): the station lies west of the span of its link 1. -/
def Dev.sendSpan (s : Dev) (d out l : Fin 2) (repair : Bool) : Dev :=
  s.topoOut d out ((if repair then 32 else 16) + 64 * l.val) (some (s.fld R.LNK_NBR 9 0 d l.val))

/-! ### Numbers (R472 to R474) -/

/-- TRK_STAT.NONUM. -/
def Dev.setNonum (s : Dev) (d : Fin 2) (b : Bool) : Dev := s.setB R.TRK_STAT 20 b d

/-- The station's number changes. -/
def Dev.putNum (s : Dev) (d : Fin 2) (n : Option Nat) : Dev :=
  let s := match n with
    | some n => ((s.setB R.TRK_STN 31 true d).setF R.TRK_STN 9 0 n d).setNonum d false
    | none => s.setB R.TRK_STN 31 false d
  (s.sendTopo d).reroot d

/-- A write of TRK_STN (R472). On I/O die 1, modes 1 and 2 act as 3 (R488). -/
def trkStnWrite (d : Fin 2) (v : Nat) (s : Dev) : Dev :=
  let m := bits v 29 28
  let s := s.setF R.TRK_STN 29 28 m d
  if m = 0 then (s.setNonum d false).putNum d none
  else if m = 3 ∨ d = 1 then s.putNum d (some (bits v 9 0))
  else if m = 1 then s.putNum d (some (s.fld R.STRAPS 13 4 d))
  else s.putNum d (some (vget s.die d).stnNum)

/-- A write of TRK_CMD.REELECT: an elected number is given up (R473). -/
def Dev.reelect (s : Dev) (d : Fin 2) : Dev :=
  if s.fld R.TRK_STN 29 28 d = 0 then (s.setNonum d false).putNum d none else s

/-- TRK_TOPOPER in TCXO cycles. -/
def Dev.topoPer (s : Dev) (d : Fin 2) : Nat := max 1 (s.fld R.TRK_TOPOPER 7 0 d) * 38400

/-- The lowest number that no station of the map holds. -/
def lowestFree (used : List Nat) : Nat := ((List.range 1024).find? fun n => !used.contains n).getD 0

/-- The number that an electing station takes (R473). -/
def Dev.elect (s : Dev) (d : Fin 2) : Nat :=
  let m := (vget s.trk d).map
  let used := m.filterMap TopoEnt.num
  if !used.isEmpty then lowestFree used
  else if (vget s.trk d).ring.isSome then
    match m.foldl (fun (b : Option TopoEnt) e => match b with
      | none => some e
      | some x => if e.uid < x.uid then some e else b) none with
    | none => 0
    | some e => if trkUid d < e.uid then 0 else (e.hop 0).getD 0
  else (m.filter fun e => (e.hop 0).isSome).length

/-- ELECTION: once the map has not changed for three periods (R473). -/
def election (d : Fin 2) (s : Dev) : Dev :=
  if !s.trkOn d || s.fld R.TRK_STN 29 28 d != 0 || s.numOk d
      || decide (s.cyc d < (vget s.trk d).changed + 3 * s.topoPer d) then s
  else
    let n := s.elect d
    ((s.putNum d (some n)).trkIrq d 2).trkEvent d 4 none (some n)

/-! ### TOPO frames received, and entries that expire -/

/-- Put what a TOPO says of a station into the map; `changed` where the map changes. -/
def Dev.mapPut (s : Dev) (d l : Fin 2) (uid hops : Nat) (payload : List Byte) : Dev :=
  let now := s.cyc d
  match s.heard d uid with
  | none =>
    let e : TopoEnt := ⟨uid, vset (Vector.replicate 2 none) l (some (hops, now)), payload⟩
    (s.modTrk d fun t => { t with map := t.map ++ [e], changed := now }).topoChanged d
  | some e =>
    let same := e.hop l == some hops
    let e' : TopoEnt := { e with hear := vset e.hear l (some (hops, now)), payload := payload }
    let s := s.modTrk d fun t => { t with
      map := t.map.map fun x => if x.uid = uid then e' else x
      changed := if same && e.payload == payload then t.changed else now }
    if same then s else s.topoChanged d

/-- A BREAK or REPAIR of the station `uid` (R471). -/
def Dev.spanNews (s : Dev) (d : Fin 2) (uid st : Nat) : Dev :=
  let b := (uid, bit st 6 == 1)
  if bit st 4 = 1 then s.modTrk d fun t => { t with breaks := b :: t.breaks.filter (· != b) }
  else if bit st 5 = 1 then s.modTrk d fun t => { t with breaks := t.breaks.filter (· != b) }
  else s

/-- A duplicate of this station's number (R474). -/
def Dev.dupCheck (s : Dev) (d : Fin 2) (uid num : Nat) : Dev :=
  if s.numOk d && bit num 15 == 1 && num % 1024 == s.num d then
    let s := (((s.setB R.TRK_STAT 21 true d).count R.DUPS 1 d).trkIrq d 3).trkEvent d 5 none (some (s.num d))
    if uid < trkUid d then (s.setNonum d true).putNum d none else s
  else s

/-- Take the oldest delivered frame if it is of a class and type. -/
def Dev.takeIn (s : Dev) (d : Fin 2) (cls typ : Nat) : Option (InFrame × Dev) :=
  match (vget s.trk d).inbox with
  | [] => none
  | f :: fs =>
    if fCls f.bytes = cls ∧ fTyp f.bytes = typ then
      let s := s.modTrk d fun t => { t with inbox := fs }
      some (f, if f.ret then s.giveBack d f.link f.bytes else s)
    else none

/-- TOPO_RECEIVE (R469, R471, R474, R475). A BREAK or REPAIR leaves the ROOT field's place to the
number across the span. -/
def topoReceive (d : Fin 2) (s : Dev) : Dev :=
  match s.takeIn d 0 3 with
  | none => s
  | some (f, s) =>
    let p := (f.bytes.drop 16).take 16
    let uid := beAt p 0 8
    let hops := 1024 - fTtl f.bytes
    if uid = trkUid d then
      let was := (vget s.trk d).ring.map (·.1)
      let now := s.cyc d
      let s := s.modTrk d fun t => { t with
        ring := some (hops, now), changed := if was == some hops then t.changed else now }
      if was == some hops then s else s.topoChanged d
    else
      let s := s.mapPut d f.link uid hops p
      let s := s.spanNews d uid (beAt p 10 1)
      (s.dupCheck d uid (beAt p 8 2)).reroot d

/-- TOPO_ENTRY_EXPIRE: what was not refreshed within three periods leaves the map; the station's own
UID stands for the ring (R469). -/
def topoEntryExpire (d : Fin 2) (uid : Nat) (s : Dev) : Dev :=
  let old := fun (t : Nat) => decide (t + 3 * s.topoPer d < s.cyc d)
  let now := s.cyc d
  if uid = trkUid d then
    match (vget s.trk d).ring with
    | some (_, t) => if old t then
        (s.modTrk d fun x => { x with ring := none, changed := now }).topoChanged d else s
    | none => s
  else
    match s.heard d uid with
    | none => s
    | some e =>
      let keep := fun (l : Fin 2) => match vget e.hear l with
        | some (h, t) => if old t then none else some (h, t)
        | none => none
      let h := (#v[keep 0, keep 1] : Vector (Option (Nat × Nat)) 2)
      if h == e.hear then s
      else
        let gone := (keep 0).isNone && (keep 1).isNone
        let s := s.modTrk d fun t => { t with
          changed := now
          map := if gone then t.map.filter (·.uid != uid)
            else t.map.map fun x => if x.uid = uid then { x with hear := h } else x }
        (s.topoChanged d).reroot d

/-! ### Routes (R470, R471) -/

/-- Does the path of `n` hops by link `l` cross a broken span? The span lies beyond its reporter at
`k` hops where the reporter is on the near side, else before it. -/
def Dev.crosses (s : Dev) (d l : Fin 2) (n : Nat) : Bool :=
  (vget s.trk d).breaks.any fun b =>
    let near := if l = 1 then b.2 else !b.2
    let k := if b.1 = trkUid d then some 0 else (s.heard d b.1).bind fun e => e.hop l
    match k with
    | some k => if near then decide (k < n) else decide (k ≤ n) && k != 0
    | none => false

/-- Link and hop count toward station `n`: the smaller hop count, east on a tie, broken spans
avoided. -/
def Dev.route (s : Dev) (d : Fin 2) (n : Nat) : Option (Fin 2 × Nat) :=
  match (vget s.trk d).map.find? fun e => e.num == some n with
  | none => none
  | some e =>
    let via := fun (l : Fin 2) => (e.hop l).bind fun h => if s.crosses d l h then none else some h
    match via 0, via 1 with
    | some w, some x => if w < x then some (0, w) else some (1, x)
    | some w, none => some (0, w)
    | none, some x => some (1, x)
    | none, none => none

/-- Copies of a bulk frame to every station: link and TTL (R470). -/
def Dev.castRoutes (s : Dev) (d : Fin 2) : List (Fin 2 × Nat) :=
  match (vget s.trk d).ring with
  | some (n, _) => [(1, n / 2), (0, (n - 1) / 2)].filter fun p => decide (0 < p.2)
  | none => [1, 0].filterMap fun l =>
      let m := (vget s.trk d).map.foldl (fun m e => max m ((e.hop l).getD 0)) 0
      if m = 0 then none else some (l, m)

/-! ### Links up and down (R461, R471) -/

/-- LINK_UP: after 20 good HELLO frames. Every grant starts at the buffer's size (R466). -/
def linkUp (d l : Fin 2) (s : Dev) : Dev :=
  let x := s.lnk d l
  if !s.lnkOn d l || x.up || decide (x.good < 20) then s
  else
    let now := s.cyc d
    let s := s.modLink d l fun x => { x with
      up := true, upAt := now, sent := Vector.replicate 3 0
      grant := LinkSt.init.grant, given := LinkSt.init.given }
    let s := s.setF R.TRK_STAT (28 + l.val) (28 + l.val) 0 d
    let s := s.setF R.TRK_STAT (26 + l.val) (26 + l.val) 0 d
    let s := (s.trkIrq d 0).trkEvent d 1 (some l.val) none
    (s.sendTopo d).kick d l

/-- Frames queued for a link that went down in a ring leave by the other link (R471). -/
def Dev.rewrap (s : Dev) (d l : Fin 2) : Dev :=
  let x := s.lnk d l
  let q := (List.finRange 4).flatMap fun k => vget x.transit k ++ vget x.own k
  let s := s.modLink d l fun x => { x with
    transit := Vector.replicate 4 [], own := Vector.replicate 4 [] }
  q.foldl (fun s f => s.sendOut d l f) s

/-- A link goes down: in a ring it wraps, with BREAK out of the other link. -/
def Dev.linkFall (s : Dev) (d l : Fin 2) : Dev :=
  let ring := (vget s.trk d).ring
  let s := s.modLink d l fun x => { x with up := false, good := 0 }
  let s := (s.trkIrq d 0).trkEvent d 2 (some l.val) none
  let s := match ring with
    | none => s
    | some (n, _) =>
      let s := s.modLink d l fun x => { x with wrap := some n }
      let s := (s.trkIrq d 6).trkEvent d 9 (some l.val) none
      let b := (trkUid d, l == 1)
      let s := s.modTrk d fun t => { t with breaks := b :: t.breaks.filter (· != b) }
      (s.sendSpan d (otherLink l) l false).rewrap d l
  s.sendTopo d

/-- LINK_DOWN: lock lost, LOS, or 100 µs without a good frame; the pins read as given. -/
def linkDown (d l : Fin 2) (los modabs : Bool) (s : Dev) : Dev :=
  let s := s.setF R.TRK_STAT (28 + l.val) (28 + l.val) (b2n los) d
  let s := s.setF R.TRK_STAT (26 + l.val) (26 + l.val) (b2n modabs) d
  if (s.lnk d l).up then s.linkFall d l else s.modLink d l fun x => { x with good := 0 }

/-- SPAN_REPAIR: a link up for 1 s ends its wrap (R471). -/
def spanRepair (d l : Fin 2) (s : Dev) : Dev :=
  let x := s.lnk d l
  if !x.up || x.wrap.isNone || decide (s.cyc d < x.upAt + 38400000) then s
  else
    let s := s.modLink d l fun x => { x with wrap := none }
    let s := s.modTrk d fun t => { t with breaks := t.breaks.filter (· != (trkUid d, l == 1)) }
    let s := (s.sendSpan d 0 l true).sendSpan d 1 l true
    (s.trkIrq d 6).trkEvent d 10 (some l.val) none

/-- A write of TRK_CTL: RATE stays while EN is 1, and a link that is disabled goes down. -/
def trkCtlWrite (d : Fin 2) (v : Nat) (s : Dev) : Dev :=
  let v := if s.bt R.TRK_CTL 31 d then setBits v 30 30 (bit (s.rg R.TRK_CTL d) 30) else v
  let s := s.plainWrite R.TRK_CTL v d
  (List.finRange 2).foldl (fun s l =>
    if (s.lnk d l).up && !s.lnkOn d l then s.linkFall d l else s) s

/-! ### HELLO (R461, R466) -/

/-- HELLO_SEND. -/
def helloSend (d l : Fin 2) (s : Dev) : Dev :=
  if !s.lnkOn d l then s
  else
    let g := (s.lnk d l).given
    let (t, s) := s.freshTag d
    s.sendLocal d l 2 t (beBytes 8 (trkUid d) ++ beBytes 2 (2 ^ 15 * b2n (s.numOk d) + s.num d)
      ++ beBytes 1 l.val ++ beBytes 1 (b2n s.cdieOn + 2 * bit (s.rg R.TRK_STAT d) 20)
      ++ beBytes 4 (vget g 0) ++ beBytes 4 (vget g 1) ++ beBytes 4 (vget g 2))

/-- HELLO_RECEIVE. -/
def helloReceive (d : Fin 2) (s : Dev) : Dev :=
  match s.takeIn d 0 2 with
  | none => s
  | some (f, s) =>
    let l := f.link
    let n := fPay f.bytes 8 2
    let s := s.wr R.LNK_NBR (bit n 15 * 2 ^ 31 + n % 1024) d l.val
    let s := s.wr R.LNK_NBRUID (fPay f.bytes 0 8) d l.val
    let s := s.modLink d l fun x => { x with
      grant := #v[fPay f.bytes 12 4, fPay f.bytes 16 4, fPay f.bytes 20 4] }
    s.kick d l

end Sys2Proof.Machine
end

