-- ==== Sys2Proof/Machine/Trunk.lean ====
section
/-!
DEFINITION. Frames that a trunk receives, time transfer, remote operations and bulk data (R463, R464,
R476 to R488).
-/

namespace Sys2Proof.Machine

/-! ### Receiving a frame (R463, R464) -/

/-- A frame is put before its receiver. -/
def Dev.deliverIn (s : Dev) (d l : Fin 2) (b : List Byte) (ret : Bool) : Dev :=
  let (t, s) := s.pinStamp
  s.modTrk d fun x => { x with inbox := x.inbox ++ [⟨l, b, t, ret⟩] }

/-- The outcome of a remote operation has arrived; on I/O die 1 nothing waits for one (R482, R488). -/
def Dev.outcomeIn (s : Dev) (d : Fin 2) (b : List Byte) : Dev :=
  if d = 0 then
    if fCls b = 1 then remoteOutcome (fTag b) (fPay b 0 1 % 16) 0 (fPay b 4 4) s
    else remoteOutcome (fTag b) (fPay b 0 1 % 16) (fPay b 4 4) 0 s
  else s

/-- A frame for this station: delivered once its CRC-32 has passed (R463). -/
def Dev.acceptIn (s : Dev) (d l : Fin 2) (b : List Byte) (ret : Bool) : Dev :=
  if !crcOk b then
    let s := s.count R.CRCERR 1 d l.val
    if ret then s.giveBack d l b else s
  else if (fCls b = 1 ∨ fCls b = 2) ∧ fTyp b = 1 then
    let s := if ret then s.giveBack d l b else s
    s.outcomeIn d b
  else s.deliverIn d l b ret

/-- A frame is forwarded out of the other link; one whose CRC-32 fails is stomped. -/
def Dev.forward (s : Dev) (d l : Fin 2) (b : List Byte) : Dev :=
  let bad := !crcOk b
  let s := if bad then s.count R.STOMP 1 d l.val else s
  let b' := reTtl b (fProt b) (fTtl b - 1)
  s.sendOut d (otherLink l) ⟨if bad then stomp b' else b', fCls b, credits b, some l, none⟩

/-- Consecutive good HELLO frames (R461). -/
def Dev.helloCount (s : Dev) (d l : Fin 2) (good : Bool) : Dev :=
  s.modLink d l fun x => { x with good := if good then x.good + 1 else 0 }

/-- A frame with a good header (R464). A TOPO with this station's own UID ends here (R469); NONUM has
nothing delivered but time frames (R474). -/
def Dev.handleFrame (s : Dev) (d l : Fin 2) (b : List Byte) : Dev :=
  let local' := fCls b == 0 && decide (fTyp b ≤ 2)
  let topo := fCls b == 0 && fTyp b == 3
  let s := if local' && fTyp b == 2 then s.helloCount d l (crcOk b) else s
  if local' then s.acceptIn d l b false
  else if s.numOk d && fDst b == s.num d && !fBcast b then s.acceptIn d l b true
  else if fBcast b then
    let own := topo && crcOk b && fPay b 0 8 == trkUid d
    let on := !own && decide (1 < fTtl b)
    let here := topo || bit (s.rg R.TRK_STAT d) 20 == 0
    let s := if here then s.acceptIn d l b (!on) else if on then s else s.giveBack d l b
    if on then s.forward d l b else s
  else if fTtl b ≤ 1 then (s.count R.TTLDROP 1 d l.val).giveBack d l b
  else s.forward d l b

/-- FRAME_RECEIVE. -/
def frameReceive (d l : Fin 2) (b : List Byte) (s : Dev) : Dev :=
  if !s.lnkOn d l then s
  else if !headOk b then (s.count R.HCSERR 1 d l.val).helloCount d l false
  else if !typeOk b then (s.count R.HCSERR 1 d l.val).giveBack d l b
  else (s.count R.RXFRM 1 d l.val).handleFrame d l b

/-- A ring post of the trunk that counts for nothing if it is not taken. -/
def Dev.trkPost (s : Dev) (d : Fin 2) (r : Nat) (fs : List (Nat × Nat × Nat)) : Dev :=
  if s.cdieOn then (s.blockPost (r + 8 * d.val) (0x1C + d.val) fs).2 else s

/-- Completion of a bulk send: 0 SENT, 1 NOROUTE, 2 BADREQ, 3 READERR (R486). -/
def Dev.bulkDone (s : Dev) (d : Fin 2) (seq st : Nat) : Dev :=
  let s := if st = 1 then s.count R.NOROUTE 1 d else s
  s.trkPost d 26 [(0x10, 4, seq), (0x14, 1, st)]

/-- One copy of a bulk request has left: SENT after the last. -/
def Dev.bulkLeft (s : Dev) (d : Fin 2) (seq : Nat) : Dev :=
  match (vget s.trk d).bulk.find? (·.seq == seq) with
  | none => s
  | some r =>
    let s := s.modTrk d fun t => { t with bulk := t.bulk.erase r }
    if r.left ≤ 1 then s.bulkDone d seq 0
    else s.modTrk d fun t => { t with bulk := t.bulk ++ [{ r with left := r.left - 1 }] }

/-- FRAME_TRANSMITTED (R465). -/
def frameTransmitted (d l : Fin 2) (s : Dev) : Dev :=
  match (s.lnk d l).tx with
  | none => s
  | some f =>
    let s := (s.modLink d l fun x => { x with tx := none }).count R.TXFRM 1 d l.val
    let s := match f.ingress with
      | some i => s.giveBack d i f.bytes
      | none => s
    let s := match f.bulk with
      | some q => s.bulkLeft d q
      | none => s
    s.kick d l

/-! ### Time transfer (R476 to R480) -/

/-- TT_EXCHANGE_START. -/
def ttExchangeStart (d l : Fin 2) (s : Dev) : Dev :=
  if !s.lnkOn d l || !(s.lnk d l).up then s
  else
    let q := (s.lnk d l).seq
    let s := s.modLink d l fun x => { x with seq := (q + 1) % 2 ^ 32 }
    let (t, s) := s.freshTag d
    s.sendLocal d l 0 t (beBytes 4 q ++ beBytes 4 0)

/-- TT_REQ_RECEIVE: answered with TT_RESP, whose t3 goes in as it leaves. -/
def ttReqReceive (d : Fin 2) (s : Dev) : Dev :=
  match s.takeIn d 0 0 with
  | none => s
  | some (f, s) =>
    s.sendLocal d f.link 1 (fTag f.bytes) (beBytes 4 (fPay f.bytes 0 4)
      ++ beBytes 4 (b2n s.trust + 2 * b2n s.lock) ++ beBytes 8 f.t ++ beBytes 8 0)

/-- u of R477. -/
def xferU (t1 t2 t3 t4 asym : Int) : Int := rhe (1000 * ((t2 - t1) - (t4 - t3)) - asym) 2

/-- d of R477. -/
def xferD (t1 t2 t3 t4 : Int) : Int := rhe (1000 * ((t4 - t1) - (t3 - t2))) 2

/-- The calibration of a link takes an exchange (R480). -/
def Dev.acalTake (s : Dev) (d l : Fin 2) (raw : Int) (nbrLock : Bool) : Dev :=
  match (s.lnk d l).acal with
  | none => s
  | some a =>
    if !s.lock || !nbrLock then
      ((s.modLink d l fun x => { x with acal := none }).setB R.LNK_ACAL 31 false d l.val).setB
        R.LNK_ACAL 30 true d l.val
    else
      let a : Acal := { a with k := a.k + 1, sum := a.sum + raw }
      if a.k < a.n then s.modLink d l fun x => { x with acal := some a }
      else
        ((((s.modLink d l fun x => { x with acal := none }).wr R.LNK_ASYM (ofS 32 (rhe a.sum a.n)) d
          l.val).setB R.LNK_ACAL 31 false d l.val).trkIrq d 7)

/-- The servo of a station that follows the survey (R478): whether it stepped. -/
def Dev.servo (s : Dev) (u : Int) : Bool × Dev :=
  if 1000 * (s.rg R.TRK_STEPTHR 0 : Int) < (u.natAbs : Int) then
    (true, tsStepWrite 0x1C (ofS 64 (rhe u 1000)) s)
  else
    let s := tsSlewWrite 0x1C (ofS 32 (rhe u 1000)) s
    let ksh := s.fld R.TRK_TCFG 19 16 0
    let f := toS 32 (s.rg R.TS_FADJ 0) + rhe (u * 2 ^ (40 - ksh)) (125000000 * 1000)
    (false, tsFadjWrite 0x1C (ofS 32 (clampS 32 f)) s)

/-- Survey lock after an exchange on the upstream link (R479). -/
def Dev.slockTake (s : Dev) (d : Fin 2) (u : Int) (stepped : Bool) : Dev :=
  let thr := s.fld R.TRK_TCFG 15 0 d * 1000
  let n := if u.natAbs ≤ thr then (vget s.trk d).slGood + 1 else 0
  let now := s.cyc d
  let s := s.modTrk d fun t => { t with slGood := n, slAt := now }
  if stepped || decide (4 * thr < u.natAbs) || !s.rootTrust d then
    (s.setSlock d false).modTrk d fun t => { t with slGood := 0 }
  else if max 1 (s.fld R.TRK_TCFG 23 20 d) ≤ n then s.setSlock d true
  else s

/-- TT_RESP_RECEIVE: an exchange is complete (R477 to R480). -/
def ttRespReceive (d : Fin 2) (s : Dev) : Dev :=
  match s.takeIn d 0 1 with
  | none => s
  | some (f, s) =>
    let l := f.link
    match (s.lnk d l).exch with
    | none => s
    | some e =>
      if e.tag ≠ fTag f.bytes ∨ e.seq ≠ fPay f.bytes 0 4 then s
      else
        let lk := bit (fPay f.bytes 4 4) 1 == 1
        let t1 : Int := e.t1
        let t2 : Int := fPay f.bytes 8 8
        let t3 : Int := fPay f.bytes 16 8
        let t4 : Int := f.t
        let u := xferU t1 t2 t3 t4 (toS 32 (s.rg R.LNK_ASYM d l.val))
        let s := s.modLink d l fun x => { x with exch := none, nbrLock := lk }
        let s := ((s.wr R.LNK_OFS (ofS 32 u) d l.val).wr R.LNK_DLY (ofS 32 (xferD t1 t2 t3 t4)) d
          l.val).wr R.LNK_SEQ (s.rg R.LNK_SEQ d l.val + 1) d l.val
        let s := s.acalTake d l (1000 * ((t2 - t1) - (t4 - t3))) lk
        let s := s.reroot d
        if s.upLink d = some l then
          let (st, s) := s.servo u
          s.slockTake d u st
        else s

/-- TT_EXCHANGE_LOST: no TT_RESP within 5 ms, which is 192,000 TCXO cycles. -/
def ttExchangeLost (d l : Fin 2) (s : Dev) : Dev :=
  match (s.lnk d l).exch with
  | none => s
  | some e =>
    if s.cyc d < e.start + 192000 then s
    else (s.modLink d l fun x => { x with exch := none }).count R.TTLOST 1 d l.val

/-- SLOCK_TIMEOUT: 1 s without an upstream exchange (R479). -/
def slockTimeout (d : Fin 2) (s : Dev) : Dev :=
  if s.cyc d < (vget s.trk d).slAt + 38400000 then s else s.setSlock d false

/-- Start asymmetry calibration on a link, or refuse it (R480). -/
def Dev.acalStart (s : Dev) (d l : Fin 2) : Dev :=
  if s.tsSrc = 1 ∧ s.lock = true ∧ (s.lnk d l).nbrLock = true then
    let n := max 1 (s.fld R.LNK_ACAL 7 0 d l.val)
    (s.modLink d l fun x => { x with acal := some ⟨n, 0, 0⟩ }).setB R.LNK_ACAL 31 true d l.val
  else s.setB R.LNK_ACAL 30 true d l.val

/-- A write of TRK_CMD; ACAL is reserved on I/O die 1 (R473, R480, R488). -/
def trkCmdWrite (d : Fin 2) (v : Nat) (s : Dev) : Dev :=
  let s := if bit v 31 = 1 then s.reelect d else s
  if d = 1 then s
  else
    let s := if bit v 0 = 1 then s.acalStart d 0 else s
    if bit v 1 = 1 then s.acalStart d 1 else s

/-! ### Remote operations (R482 to R485, R488) -/

/-- OP of a CELL_OP. SY.GATE travels as WAITGE (R307). -/
def cellOpCode : HubKind → Nat
  | .add => 1
  | .set => 2
  | .test => 3
  | .waitge | .gate => 4
  | .waiteq => 5
  | _ => 0

/-- Send a frame to a station by the map, or report that there is no way. -/
def Dev.sendTo (s : Dev) (d : Fin 2) (dst cls typ tag : Nat) (payload : List Byte) : Option Dev :=
  if !s.trkOn d || !s.numOk d then none
  else match s.route d dst with
    | none => none
    | some (l, n) => some (s.sendOwn d l (mkFrame ⟨cls, typ, false, dst, s.num d, n, tag⟩ payload) none)

/-- One item that the hub hands to the trunk of I/O die 0, or an outcome for its own die. -/
def Dev.pumpOne (s : Dev) (x : HubTx) : Dev :=
  match x with
  | .req op e =>
    let p := if op.kind == .post then
        beBytes 2 op.index ++ beBytes 2 (leNat ((e.drop 14).take 2)) ++ beBytes 4 0 ++ (e.drop 16).take 48
      else
        beBytes 1 (cellOpCode op.kind) ++ beBytes 1 0 ++ beBytes 2 op.index ++ beBytes 4 op.opnd
          ++ beBytes 4 (if op.kind == .gate then s.rto else op.timeout.getD 0) ++ beBytes 4 0
    match s.sendTo 0 op.stn (if op.kind == .post then 2 else 1) 0 op.tag p with
    | some s => s
    | none => remoteOutcome op.tag 5 0 0 (s.count R.NOROUTE 1 0)
  | .resp d stn tag code _ value =>
    (s.sendTo d stn 1 1 tag (beBytes 1 code ++ beBytes 3 0 ++ beBytes 4 value)).getD s
  | .cancel stn tag =>
    (s.sendTo 0 stn 1 0 tag (beBytes 1 6 ++ List.replicate 15 0)).getD s

/-- What the hub has for the trunk leaves it, oldest first (R485). An outcome may put a new item
behind the present ones: the next pump takes it. -/
def Dev.trunkPump (s : Dev) : Dev :=
  let q := s.hub.txq
  let s := s.modHub fun h => { h with txq := [] }
  q.foldl Dev.pumpOne s

/-- Answer a POST or a CELL_OP. -/
def Dev.respond (s : Dev) (d : Fin 2) (f : InFrame) (cls code b : Nat) : Dev :=
  (s.sendTo d (fSrc f.bytes) cls 1 (fTag f.bytes) (beBytes 1 code ++ beBytes 3 0 ++ beBytes 4 b)).getD s

/-- The trunk's own REFUSED_REMOTE (R483). -/
def Dev.refuseRemote (s : Dev) (d : Fin 2) (f : InFrame) (cls : Nat) : Dev :=
  (s.count R.RREMOTE 1 d).respond d f cls 5 0

/-- REMOTE_POST_RECEIVE (R306, R483). -/
def remotePostReceive (d : Fin 2) (s : Dev) : Dev :=
  match s.takeIn d 2 0 with
  | none => s
  | some (f, s) =>
    let r := fPay f.bytes 0 2 % 1024
    if d = 1 ∨ s.cdieOn = false ∨ s.ringEn r = false ∨ s.bt R.RING_CFG 25 0 r = false then s.refuseRemote d f 2
    else
      let e := putBytes (entry64 [(0xE, 2, fPay f.bytes 2 2)]) 16 ((f.bytes.drop 24).take 48)
      let (code, stamp, s) := s.ringPost r ⟨0x1C + d.val, 0, some (fSrc f.bytes)⟩ e
      s.serve.respond d f 2 code stamp

/-- A remote wait of this target. -/
def Wait.isRemote (w : Wait) : Bool := match w.who with | .remote _ _ _ => true | _ => false

/-- REMOTE_CELL_OP_RECEIVE (R306, R483, R484). On a poisoned cell only a SET completes (R509). -/
def remoteCellOpReceive (d : Fin 2) (s : Dev) : Dev :=
  match s.takeIn d 1 0 with
  | none => s
  | some (f, s') =>
    let op := fPay f.bytes 0 1
    if op = 6 then s
    else
      let s := s'
      let ini := 0x1C + d.val
      let c := fPay f.bytes 2 2
      let x := fPay f.bytes 4 4
      if d = 1 ∨ s.cdieOn = false ∨ op = 0 ∨ 6 < op then s.refuseRemote d f 1
      else if (op = 4 ∨ op = 5) ∧ 1024 ≤ (s.hub.waits.filter Wait.isRemote).length then s.refuseRemote d f 1
      else
        let s := s.cellMeet ini c
        let v := s.cell c
        if s.cellBad c && op != 2 then s.refuseRemote d f 1
        else if op = 1 then (s.cellAdd c x ini).respond d f 1 0 v
        else if op = 2 then (s.cellSet c x ini).respond d f 1 0 v
        else if op = 3 then s.respond d f 1 0 v
        else s.armWait ⟨.remote d (fSrc f.bytes) (fTag f.bytes), c, op == 5, x, some (fPay f.bytes 8 4), 0⟩

/-- The remote wait of a station and tag. -/
def Wait.isOf (w : Wait) (d : Fin 2) (stn tag : Nat) : Bool := w.who == .remote d stn tag

/-- REMOTE_CANCEL_RECEIVE (R484). -/
def remoteCancelReceive (d : Fin 2) (s : Dev) : Dev :=
  match s.takeIn d 1 0 with
  | none => s
  | some (f, s') =>
    if fPay f.bytes 0 1 = 6 then
      s'.modHub fun h => { h with waits := h.waits.filter fun w => !w.isOf d (fSrc f.bytes) (fTag f.bytes) }
    else s

/-- REMOTE_WAIT_EXPIRE: 10 ms, which is 10,000 hub ticks, past its TIMEOUT (R484). -/
def remoteWaitExpire (d : Fin 2) (stn tag : Nat) (s : Dev) : Dev :=
  s.modHub fun h => { h with waits := h.waits.filter fun w =>
    !(w.isOf d stn tag && decide (w.timeout.getD 0 + 10000 < w.age)) }

/-! ### Bulk data (R486) -/

/-- A bulk request's fields are in range. -/
def bulkReqOk (dst len : Nat) : Bool :=
  bits dst 14 10 == 0 && decide (4 ≤ len) && decide (len ≤ 2040) && len % 4 == 0

/-- BULK_SEND: the trunk pops the oldest request of its ring. -/
def bulkSend (d : Fin 2) (s : Dev) : Dev :=
  let r := 24 + 8 * d.val
  if !s.trkOn d || !s.cdieOn || !s.ringEn r || s.ringOcc r == 0 then s
  else
    let s := s.meet (0x1C + d.val) (s.ringHead r) 64
    let (e, s) := s.ringTake r
    let s := s.complete r e (leNat ((e.drop 4).take 4) % 16)
    let fld := fun (o n : Nat) => leNat ((e.drop o).take n)
    let seq := fld 0 4
    let dst := fld 0x10 2
    let len := fld 0x14 2
    let addr := fld 0x20 8
    if !bulkReqOk dst len || !(inAtrium addr len || s.inStack addr len) then s.bulkDone d seq 2
    else
      let ways := if !s.numOk d then [] else if bit dst 15 = 1 then s.castRoutes d
        else match s.route d (dst % 1024) with | some p => [p] | none => []
      if ways.isEmpty then s.bulkDone d seq 1
      else
        let (bad, s) := s.memRead (0x1C + d.val) addr len
        if bad.isSome || s.poisoned addr len then s.bulkDone d seq 3
        else
          let (t, s) := s.freshTag d
          let p := beBytes 4 (fld 0x18 4) ++ beBytes 4 0 ++ s.rdBytes addr len
          let s := s.modTrk d fun x => { x with bulk := x.bulk ++ [⟨seq, ways.length⟩] }
          ways.foldl (fun s w => s.sendOwn d w.1
            (mkFrame ⟨3, 0, bit dst 15 == 1, dst % 1024, s.num d, w.2, t⟩ p) (some seq)) s

/-- LOG2NBUF of TRK_RXCFG: values other than 1 to 8 act as 1. -/
def Dev.rxBufs (s : Dev) (d : Fin 2) : Nat :=
  let n := s.fld R.TRK_RXCFG 3 0 d
  2 ^ (if 1 ≤ n ∧ n ≤ 8 then n else 1)

/-- BULK_RECEIVE: written to the next buffer and posted, or dropped. -/
def bulkReceive (d : Fin 2) (s : Dev) : Dev :=
  match s.takeIn d 3 0 with
  | none => s
  | some (f, s) =>
    let k := (vget s.trk d).rxK
    let rel := s.cell (s.fld R.TRK_RXREL 15 0 d)
    let free := decide ((k + 2 ^ 32 - rel) % 2 ^ 32 < s.rxBufs d)
    let ini := 0x1C + d.val
    let i := k % s.rxBufs d
    let a := s.fld R.TRK_RXBASE 39 11 d * 2048 + 2048 * i
    let n := fLen f.bytes - 8
    let drop := fun (s : Dev) => (s.count R.RXDROP 1 d).trkIrq d 8
    if !s.cdieOn || !free then drop s
    else match s.refusal ini a 8 .wr with
      | some c => drop (s.berr ini a 8 .wr c)
      | none =>
        let s := s.wrBytes a ((f.bytes.drop 24).take n)
        let s := s.modTrk d fun t => { t with rxK := (k + 1) % 2 ^ 32 }
        s.trkPost d 25 [(0x10, 2, fSrc f.bytes), (0x12, 2, i), (0x14, 2, n), (0x18, 4, fPay f.bytes 0 4)]

/-! ### After an event -/

/-- What the hub has for the trunk goes out after every event of the trunk. -/
def pumped (f : Dev → Dev) (s : Dev) : Dev := (f s).trunkPump

end Sys2Proof.Machine
end

