-- ==== Sys2Proof/Machine/Boot.lean ====
section
/-!
DEFINITION. The boot ROM (R82 to R96): image header, segments, key, signature and SVN, retries, and
the start of I/O die 1. The host core that it releases is started by `hostStart`.
-/

namespace Sys2Proof.Machine

/-- An image copy: boot port and flash offset. -/
structure Copy where
  port : Fin 2
  sec : Bool
  deriving DecidableEq, Repr

/-- Device address of byte 0 of a copy. -/
def Copy.base (c : Copy) : Nat := flashBase c.port.val + if c.sec then 0x800000 else 0

/-- Copies in the order of R88. -/
def Dev.copies (s : Dev) : List Copy :=
  let p0 : List Copy := [⟨0, false⟩, ⟨0, true⟩]
  let p1 : List Copy := [⟨1, false⟩, ⟨1, true⟩]
  let src := s.fld R.STRAPS 1 0
  if src = 0 then p0 else if src = 1 then p1 else p0 ++ p1

/-- A little-endian field of a copy's header. -/
def Dev.hdr (s : Dev) (c : Copy) (o n : Nat) : Nat := s.rdN (c.base + o) n

/-- FLAGS of the header. -/
def Dev.imgFlag (s : Dev) (c : Copy) (b : Nat) : Bool := bit (s.hdr c 0x10 4) b == 1

/-- A listed segment: flash offset, length and load address. -/
structure Seg where
  off : Nat
  len : Nat
  addr : Nat

/-- The listed segments. -/
def Dev.segs (s : Dev) (c : Copy) : List Seg :=
  (List.range (min 6 (s.hdr c 0x14 1))).map fun i =>
    ⟨s.hdr c (0x90 + 16 * i) 4, s.hdr c (0x94 + 16 * i) 4, s.hdr c (0x98 + 16 * i) 8⟩

/-- Destination wholly inside die-0 warden SRAM. -/
def Seg.inSram0 (g : Seg) : Bool := decide (0x10804000 ≤ g.addr) && decide (g.addr + g.len ≤ 0x10820000)

/-- Destination wholly inside die-1 warden SRAM. -/
def Seg.inSram1 (g : Seg) : Bool := decide (0x11800000 ≤ g.addr) && decide (g.addr + g.len ≤ 0x11820000)

/-- A segment passes the conditions of R85 other than overlap. -/
def Dev.segOk (s : Dev) (c : Copy) (g : Seg) : Bool :=
  let cd := s.imgFlag c 0
  decide (0x100 ≤ g.off) && decide (g.off + g.len ≤ s.hdr c 8 4) && g.len != 0 && g.len % 4 == 0
    && g.addr % 8 == 0
    && (g.inSram0 || (g.inSram1 && s.imgFlag c 3)
      || (cd && (inAtrium g.addr g.len || s.inStack g.addr g.len)))

/-- No two destinations overlap. -/
def segsApart : List Seg → Bool
  | [] => true
  | g :: l => (l.all fun h => decide (g.addr + g.len ≤ h.addr) || decide (h.addr + h.len ≤ g.addr))
      && segsApart l

/-- A start address is word aligned and inside a segment that `f` accepts. -/
def pcIn (l : List Seg) (pc : Nat) (f : Seg → Bool) : Bool :=
  pc % 4 == 0 && l.any fun g => f g && decide (g.addr ≤ pc) && decide (pc < g.addr + g.len)

/-- Range conditions of R85: start addresses and segments. -/
def Dev.rangeCode (s : Dev) (c : Copy) (l : List Seg) : Nat :=
  if l.all (s.segOk c) && segsApart l
    && pcIn l (s.hdr c 0x18 4) Seg.inSram0
    && (!s.imgFlag c 3 || pcIn l (s.hdr c 0x1C 4) Seg.inSram1)
    && (!s.imgFlag c 0 || pcIn l (s.hdr c 0x20 8) fun g => !g.inSram0 && !g.inSram1)
    && decide (s.hdr c 0x28 2 ≤ 1023)
  then 0 else 0x12

/-- Failure code of the header (R85, R91); 0 passes. -/
def Dev.hdrCode (s : Dev) (c : Copy) : Nat :=
  let f := s.hdr c 0x10 4
  let n := s.hdr c 0x14 1
  let len := s.hdr c 8 4
  let l := s.segs c
  let oct := s.rdBytes (c.base + 0x48) 8
  let zero := fun o n => s.hdr c o n == 0
  if s.hdr c 0 4 ≠ 0x1B6AB007 ∨ s.hdr c 4 2 ≠ 1 ∨ s.hdr c 6 2 ≠ 0x100 then 0x10
  else if !(zero 0x15 3 && zero 0x2A 2 && zero 0xF0 16) then 0x10
  else if len % 4 ≠ 0 ∨ len < 0x100 ∨ 0x7FFFC0 < len then 0x12
  else if 16 ≤ f ∨ (s.imgFlag c 3 = true ∧ s.asm.iodies < 2) ∨ n = 0 ∨ 6 < n then 0x11
  else if s.imgFlag c 1 then
    if (oct.getD 0 0).toNat < 32 ∧ (oct.getD 1 0).toNat < 8 then s.rangeCode c l else 0x11
  else if leNat oct ≠ 0 then 0x11
  else s.rangeCode c l

/-! ### Key, signature and SVN (R86, R87) -/

/-- OTP word of I/O die 0. -/
def Dev.otpWord (s : Dev) (w : Nat) : Nat := SMap.get 0 (vget s.die 0).otp w

/-- The digest in key slot `k`, byte 4i in bits 7:0 of word i. -/
def Dev.keySlot (s : Dev) (k : Nat) : List Byte :=
  (List.range 8).flatMap fun i => leBytes 4 (s.otpWord (8 * k + i))

/-- Key slot `k` is programmed. -/
def Dev.slotProg (s : Dev) (k : Nat) : Bool := (s.keySlot k).any (· != 0)

/-- The part is secured. -/
def Dev.secured (s : Dev) : Bool := s.slotProg 0 || s.slotProg 1

/-- The key of a copy matches a usable slot. -/
def Dev.keyOk (s : Dev) (c : Copy) : Bool :=
  let h := sha256 (s.rdBytes (c.base + 0x50) 64)
  [0, 1].any fun k => s.slotProg k && bit (s.otpWord 16) k == 0 && s.keySlot k == h

/-- SVN floor: the 1 bits of OTP_SVN. -/
def Dev.svnFloor (s : Dev) : Nat :=
  ((List.range 32).map fun i => bit (s.otpWord 17) i + bit (s.otpWord 18) i).sum

/-- Failure code of key, signature and SVN; 0 passes. -/
def Dev.signCode (s : Dev) (c : Copy) : Nat :=
  let n := s.hdr c 8 4
  let be := fun o => beNat (s.rdBytes (c.base + o) 32)
  if s.secured && !s.keyOk c then 0x13
  else if !ecdsaOk (be 0x50) (be 0x70) (be n) (be (n + 32)) (beNat (sha256 (s.rdBytes c.base n))) then
    0x14
  else if s.hdr c 0xC 4 < s.svnFloor then 0x15
  else 0

/-! ### The boot sequence of I/O die 0 (R83 to R91) -/

/-- The ROM of a die enters a phase. -/
def Dev.romTo (s : Dev) (d : Fin 2) (p : RomPhase) : Dev := s.modDie d fun x => { x with rom := p }

/-- BOOT_STAT.CODE. -/
def Dev.bootCode (s : Dev) (d : Fin 2) (n : Nat) : Dev := s.setF R.BOOT_STAT 7 0 n d

/-- The warden of a die leaves its ROM, which has kicked the AO watchdog until then (R517). -/
def Dev.wardenStart (s : Dev) (d : Fin 2) (pc : Nat) : Dev :=
  let s := { s.wr R.AWDG_CNT (s.rg R.AWDG_TIMEOUT d) d with
    wdogWarn := SMap.set 65536 s.wdogWarn (R.AWDG_CTL.addr d 0 0) (s.rg R.AWDG_WARN d) }
  s.modCore (warden d) fun _ => { CoreSt.init with run := .running, pc := BitVec.ofNat 32 pc }

/-- Copy one segment to its destination; writes that the destination refuses are logged, their
number a free value. -/
def Dev.loadSeg (s : Dev) (c : Copy) (g : Seg) : Dev :=
  match s.refusal 0x18 g.addr 4 .wr with
  | none => s.wrBytes g.addr (s.rdBytes (c.base + g.off) g.len)
  | some e =>
    let (x, s) := s.draw
    let n := s.logDie 0x18 g.addr e
    let s := s.berr 0x18 g.addr 4 .wr e
    match n with
    | some d => s.count R.IO_BERR_COUNT (x % g.len) d
    | none => if s.cdieOn then s.count R.BERR_COUNT (x % g.len) else s

/-- The boot port returns to MODE 0 with DIV 7. -/
def Dev.bootPort (s : Dev) (c : Copy) : Dev :=
  s.wr R.FL_CFG (setBits (2 ^ 31) 10 8 7 + s.fld R.FL_CFG 4 0 0 c.port.val
    + s.fld R.FL_CFG 15 12 0 c.port.val * 2 ^ 12) 0 c.port.val

/-- A copy is refused (R88): the warden SRAM it loaded is zeroed, and CDIE_ON is cleared if the ROM
set it. -/
def Dev.refuse (s : Dev) (c : Copy) (n code : Nat) (loaded : Bool) : Dev :=
  let s := s.setF R.BOOT_STAT 15 8 code 0
  let s := if loaded then
      (s.segs c).foldl (fun s g => if g.inSram0 then s.zeroMem g.addr (g.addr + g.len) else s) s
    else s
  let s := if (vget s.die 0).romCdie then
      (s.cdieOnWrite false).modDie 0 fun x => { x with romCdie := false }
    else s
  (s.bootPort c).romTo 0 (.tryCopy (n + 1))

/-- Every copy is refused (R89). -/
def Dev.bootFail (s : Dev) : Dev :=
  let t := min 3 (s.fld R.RST_CAUSE 23 20 0 + 1)
  let s := s.setF R.RST_CAUSE 23 20 t 0
  if t < 3 then s.romTo 0 .failed
  else
    let s := ((s.bootCode 0 2).cdieOnWrite false).islOnWrite 0 0
    (s.romTo 0 .halted).setB R.AWDG_CTL 31 false 0

/-- Steps 9 to 11 of R83: I/O die 1, the host and the warden start. -/
def Dev.bootDone (s : Dev) (c : Copy) : Dev :=
  let s := if s.imgFlag c 3 then
      let s := s.wr R.W1_PC (s.hdr c 0x1C 4) 1
      if (vget s.die 1).rom = .wait1 then
        ((s.bootCode 1 1).romTo 1 .running).wardenStart 1 (s.hdr c 0x1C 4)
      else s
    else s
  let s := if s.imgFlag c 0 then
      (s.wr R.HOST_PC (s.hdr c 0x20 8)).relHost (s.rg R.CRST_REL ||| 1)
    else s
  let pc := s.hdr c 0x18 4
  let num := s.hdr c 0x28 2
  let s := s.zeroMem 0x10800000 0x10804000
  let s := s.setF R.RST_CAUSE 23 20 0 0
  let s := (((s.setB R.BOOT_STAT 31 (!s.secured) 0).setB R.BOOT_STAT 28 c.sec 0).setB R.BOOT_STAT 27
    (c.port == 1) 0).bootCode 0 1
  let s := s.modDie 0 fun x => { x with stnNum := num }
  let s := if s.fld R.STRAPS 3 2 0 = 2 then s.trkStnInit 0 else s
  (s.romTo 0 .running).wardenStart 0 pc

/-- Steps 7 and 8 of R83. -/
def Dev.loadCopy (s : Dev) (c : Copy) (n : Nat) : Dev :=
  let s := (s.segs c).foldl (fun s g => s.loadSeg c g) s
  let code := s.signCode c
  if code = 0 then s.bootDone c else s.refuse c n code true

/-- Step 7 begins: an octal image switches its port first (R91). -/
def Dev.beginLoad (s : Dev) (c : Copy) (n : Nat) : Dev :=
  if s.imgFlag c 1 then s.romTo 0 (.waitOctal n) else s.loadCopy c n

/-- Steps 4 to 6 for copy `n`. -/
def Dev.tryCopy (s : Dev) (c : Copy) (n : Nat) : Dev :=
  let s := (s.setB R.PWR_CTL 6 true 0).modIoIsl 0 6 fun x => { x with on := true }
  let s := s.bootPort c
  if vget (vget s.die 0).deadPort c.port then s.refuse c n 0x16 false
  else
    let code := s.hdrCode c
    if code ≠ 0 then s.refuse c n code false
    else if s.imgFlag c 0 then
      let s := s.plainWrite R.PMB_CFG (s.hdr c 0x2C 4) 0
      let s := (List.range 6).foldl (fun s k =>
        s.plainWrite R.PMB_RAIL (s.hdr c (0x30 + 4 * k) 4) 0 k) s
      ((s.cdieOnWrite true).modDie 0 fun x => { x with romCdie := true }).romTo 0 (.waitCdie n)
    else s.beginLoad c n

/-- Step 6 waits for CDIE_STATE on; a failed rise has cleared CDIE_ON and set SEQERR. -/
def Dev.waitCdie (s : Dev) (c : Copy) (n : Nat) : Dev :=
  if s.cdieOn then s.beginLoad c n
  else if s.bt R.PWR_STAT 29 && !s.bt R.PWR_CTL 31 0 then
    (s.modDie 0 fun x => { x with romCdie := false }).refuse c n 0x17 false
  else s

/-- Steps 1 to 3 of R83, and R90 and R95. -/
def Dev.bootStart (s : Dev) (d : Fin 2) : Dev :=
  let s := if (vget s.die d).cold then
      s.zeroMem (wardenSram d) (wardenSram d + 0x20000)
    else s
  if d = 1 then (s.bootCode 1 4).romTo 1 .wait1
  else
    let s := (s.setB R.BOOT_STAT 30 s.osf 0).setB R.BOOT_STAT 29 (!(vget s.die 0).vbat) 0
    if s.fld R.STRAPS 1 0 = 3 ∧ s.dbgLock = false then
      let (x, s) := s.draw
      let s := (s.bootCode 0 3).romTo 0 .hold
      (s.setB R.AWDG_CTL 31 false 0).wardenStart 0 (x % 2 ^ 14 * 4)
    else s.romTo 0 (.tryCopy 0)

/-- The ROM goes on as far as it can without waiting; `fuel` bounds the copies. -/
def Dev.bootRun : Nat → Dev → Dev
  | 0, s => s
  | k + 1, s =>
    match (vget s.die 0).rom with
    | .start => bootRun k (s.bootStart 0)
    | .tryCopy n =>
      match s.copies[n]? with
      | none => s.bootFail
      | some c => bootRun k (s.tryCopy c n)
    | .waitCdie n =>
      match s.copies[n]? with
      | none => s
      | some c =>
        let t := s.waitCdie c n
        if (vget t.die 0).rom = .waitCdie n then t else bootRun k t
    | _ => s

/-- BOOT_SEQUENCE: the ROM of a die goes on (R83 to R95). -/
def bootSequence (d : Fin 2) (s : Dev) : Dev :=
  if (vget s.die d).inReset then s
  else if d = 0 then s.bootRun 16
  else if (vget s.die 1).rom = .start then s.bootStart 1 else s

/-- FLASH_BOOT_TIMEOUT: port `p` does not respond within 1 ms (R88). -/
def flashBootTimeout (p : Fin 2) (s : Dev) : Dev :=
  s.modDie 0 fun x => { x with deadPort := vset x.deadPort p true }

/-- OCTAL_SWITCH_WAIT_END: the header reads back in octal DDR as before, or it does not (R91). -/
def octalSwitchWaitEnd (same : Bool) (s : Dev) : Dev :=
  match (vget s.die 0).rom with
  | .waitOctal n =>
    match s.copies[n]? with
    | none => s
    | some c =>
      let lat := s.hdr c 0x48 1
      let div := s.hdr c 0x49 1
      let mode := if s.imgFlag c 2 then 2 else 1
      let s := s.setF R.FL_CFG 29 28 mode 0 c.port.val
      let s := (s.setF R.FL_CFG 10 8 div 0 c.port.val).setF R.FL_CFG 4 0 lat 0 c.port.val
      if same then (s.loadCopy c n).bootRun 16 else (s.refuse c n 0x16 false).bootRun 16
  | _ => s

/-- BOOT_RETRY_RESET: 60 s after a failed attempt (R89). -/
def bootRetryReset (s : Dev) : Dev :=
  if (vget s.die 0).rom = .failed then s.dieReset 0 .system false else s

/-- Write of W1_GO (R95). -/
def w1GoWrite (v : Nat) (s : Dev) : Dev :=
  if bit v 0 = 1 ∧ (vget s.die 1).rom = .wait1 then
    ((s.bootCode 1 1).romTo 1 .running).wardenStart 1 (s.rg R.W1_PC 1)
  else s

end Sys2Proof.Machine
end

