-- ==== Sys2Proof/Machine/Watchdog.lean ====
section
/-!
DEFINITION. Watchdogs (R514 to R517).
-/

namespace Sys2Proof.Machine

/-- Registers of a watchdog: WDG_CTL, TIMEOUT, WARN, CNT, with their instance and index. -/
structure WdogRegs where
  ctl : RegDef
  tmo : RegDef
  warn : RegDef
  cnt : RegDef
  k : Nat
  i : Nat

/-- Registers of a watchdog. -/
def wdogR : Wdog → WdogRegs
  | .gal g => ⟨R.GWDG_CTL, R.GWDG_TIMEOUT, R.GWDG_WARN, R.GWDG_CNT, g.val, 0⟩
  | .host c => ⟨R.HWDG_CTL, R.HWDG_TIMEOUT, R.HWDG_WARN, R.HWDG_CNT, 0, c.val⟩
  | .ao d => ⟨R.AWDG_CTL, R.AWDG_TIMEOUT, R.AWDG_WARN, R.AWDG_CNT, d.val, 0⟩

/-- Address of WDG_CTL. -/
def wdogA (w : Wdog) : Nat := (wdogR w).ctl.addr (wdogR w).k (wdogR w).i 0

/-- Bit of WDG_CTL: 31 EN, 30 LOCK, 29 DBGSTOP, 28 STRICT. -/
def Dev.wdogCtl (s : Dev) (w : Wdog) (b : Nat) : Bool := s.bt (wdogR w).ctl b (wdogR w).k (wdogR w).i

/-- CNT takes TIMEOUT, and WARN comes in force (R515). -/
def Dev.wdogLoad (s : Dev) (w : Wdog) : Dev :=
  let x := (wdogR w)
  let s := s.wr x.cnt (s.rg x.tmo x.k x.i) x.k x.i
  { s with wdogWarn := SMap.set 65536 s.wdogWarn (wdogA w) (s.rg x.warn x.k x.i) }

/-- The watchdog expires (R516). -/
def Dev.wdogExpire (s : Dev) (w : Wdog) : Dev :=
  let s := s.setB (wdogR w).ctl 31 false (wdogR w).k (wdogR w).i
  match w with
  | .gal g => (s.galHold g).orR R.GFLT_STAT 16 g.val
  | .host c => ((s.setB R.CRST_REL c.val false).hostReset c).orR R.FLT_STAT (2 ^ (22 + c.val))
  | .ao d => s.dieReset d .watchdog false

/-- WARNED is set. -/
def Dev.wdogWarned (s : Dev) (w : Wdog) : Dev :=
  match w with
  | .gal g => s.orR R.GFLT_STAT 8 g.val
  | .host c => s.orR R.FLT_STAT (2 ^ (18 + c.val))
  | .ao d => s.orR R.AOFLT_STAT 4 d.val

/-- A write of WDG_KICK (R515). -/
def wdogKick (w : Wdog) (v : Nat) (s : Dev) : Dev :=
  if v % 65536 = 0x4B1C then s.wdogLoad w
  else if s.wdogCtl w 28 && s.wdogCtl w 31 then s.wdogExpire w
  else s

/-- A write of WDG_CTL: EN, LOCK and STRICT stay once LOCK is 1 (R515). -/
def wdogCtlWrite (w : Wdog) (v : Nat) (s : Dev) : Dev :=
  let x := (wdogR w)
  let old := s.rg x.ctl x.k x.i
  let new := if bit old 30 = 1 then setBits old 29 29 (bit v 29) else setBits old 31 28 (bits v 31 28)
  let s := s.wr x.ctl new x.k x.i
  if bit old 31 = 0 ∧ bit new 31 = 1 then s.wdogLoad w else s

/-- A write of TIMEOUT (R515). -/
def wdogTimeoutWrite (w : Wdog) (v : Nat) (s : Dev) : Dev :=
  let x := (wdogR w)
  if s.wdogCtl w 30 ∨ v ≤ s.rg x.warn x.k x.i then s else s.wr x.tmo v x.k x.i

/-- A write of WARN (R515). -/
def wdogWarnWrite (w : Wdog) (v : Nat) (s : Dev) : Dev :=
  let x := (wdogR w)
  if s.wdogCtl w 30 ∨ s.rg x.tmo x.k x.i ≤ v then s else s.wr x.warn v x.k x.i

/-- The watched domain runs, and is not halted while DBGSTOP is 1 (R514). -/
def Dev.wdogRuns (s : Dev) (w : Wdog) : Bool :=
  let halted := fun r => r == RunSt.halted && s.wdogCtl w 29
  match w with
  | .gal g => s.galUp g && !halted (vget s.core (curator g)).run
  | .host c => s.cdieOn && (vget s.host.core c).run != .reset && !halted (vget s.host.core c).run
  | .ao d => s.fitted d.val && !(vget s.die d).inReset && !halted (vget s.core (warden d)).run

/-- The ROM of an I/O die runs and kicks its AO watchdog (R517). -/
def Dev.romKicks (s : Dev) (w : Wdog) : Bool :=
  match w with
  | .ao d => match (vget s.die d).rom with
    | .running | .hold | .halted => false
    | _ => true
  | _ => false

/-- WATCHDOG_UNIT: a unit boundary (R515). -/
def wdogUnit (w : Wdog) (s : Dev) : Dev :=
  let x := (wdogR w)
  let c := s.rg x.cnt x.k x.i
  if !s.wdogRuns w || !s.wdogCtl w 31 then s
  else if s.romKicks w then s.wdogLoad w
  else if c = 0 then s
  else
    let s := s.wr x.cnt (c - 1) x.k x.i
    let s := if c - 1 = SMap.get 65536 s.wdogWarn (wdogA w) then s.wdogWarned w else s
    if c = 1 then s.wdogExpire w else s

/-- WATCHDOG_WARN: the unit boundary at which CNT reaches WARN; any other one is WATCHDOG_UNIT. -/
def wdogWarnAt (w : Wdog) (s : Dev) : Dev :=
  if s.rg (wdogR w).cnt (wdogR w).k (wdogR w).i = SMap.get 65536 s.wdogWarn (wdogA w) + 1 then wdogUnit w s else s

/-- WATCHDOG_EXPIRE: the unit boundary at which CNT reaches 0. -/
def wdogExpireAt (w : Wdog) (s : Dev) : Dev :=
  if s.rg (wdogR w).cnt (wdogR w).k (wdogR w).i = 1 then wdogUnit w s else s

end Sys2Proof.Machine
end

