-- ==== Sys2Proof/Machine/Irq.lean ====
section
/-!
DEFINITION. The platform-level interrupt controller (R327 to R330, R519), the ACLINT (R331, R332),
doorbells (R333) and the L2 flush (R322).
-/

namespace Sys2Proof.Machine

/-! ### Sources -/

/-- Ring r holds an entry and notifies the host (R298). -/
def Dev.hostRing (s : Dev) (r : Nat) : Bool :=
  s.ringEn r && s.fld R.RING_CFG 19 16 0 r == 8 && decide (0 < s.ringOcc r)

/-- HOST_DRPEND (R329). -/
def Dev.drPend (s : Dev) : Nat :=
  (List.range 64).foldl (fun n r => n + b2n (s.hostRing r) * 2 ^ r) 0

/-- The enables of FLT_STAT that source 16 looks at: every bit except HWDWARN (R519). -/
def hwdWarnMask : Nat := fieldMask 21 18

/-- Condition of an interrupt source (R329, R519); a block that is powered down asserts nothing
(R330). -/
def Dev.plicSrc (s : Dev) (id : Nat) : Bool :=
  let flt := s.rg R.FLT_STAT &&& s.rg R.FLT_IEN
  if id = 1 then s.islUp 8 && s.bt R.BERR_INFO 31
  else if id = 2 then s.bt R.IO_BERR_INFO 31 0
  else if id = 3 then s.fitted 1 && s.bt R.IO_BERR_INFO 31 1
  else if id = 4 then s.irq R.LDG_IRQ R.LDG_IEN 0
  else if 8 ≤ id ∧ id ≤ 13 then
    match toGal (id - 8) with
    | some g => s.islUp (galIsl g) && s.irq R.GFLT_STAT R.GFLT_IEN g.val
    | none => false
  else if id = 16 then andNot flt hwdWarnMask != 0
  else if id = 17 then (flt &&& hwdWarnMask) != 0
  else if 24 ≤ id ∧ id ≤ 39 then s.bt R.HOST_DBSTAT (id - 24)
  else if id = 63 then s.drPend != 0
  else if 64 ≤ id ∧ id < 1024 then s.hostRing id
  else false

/-- IDs of R329's table; every other one is reserved. -/
def plicListed (id : Nat) : Bool :=
  (decide (1 ≤ id) && decide (id ≤ 4)) || (decide (8 ≤ id) && decide (id ≤ 13)) || id == 16 || id == 17
    || (decide (24 ≤ id) && decide (id ≤ 39)) || (decide (63 ≤ id) && decide (id < 1024))

/-! ### Gateways and contexts -/

/-- Source `id` is pending. -/
def Dev.plicPend (s : Dev) (id : Nat) : Bool := s.bt R.PLIC_PEND (id % 32) 0 (id / 32)

/-- The gateways forward the sources that are asserted, are not in service and are not pending
(R327). The model looks at them whenever the controller or a host core does (log entry 31). -/
def Dev.plicSample (s : Dev) : Dev :=
  if s.islUp 6 then
    (List.range 1024).foldl (fun s id =>
      if plicListed id && s.plicSrc id && !(id ∈ s.host.claimed) then
        s.setB R.PLIC_PEND (id % 32) true 0 (id / 32) else s) s
  else s

/-- Source `id` is pending, enabled for context `x` and above its threshold (R328). -/
def Dev.plicReady (s : Dev) (x id : Nat) : Bool :=
  s.plicPend id && s.bt R.PLIC_EN (id % 32) 0 x (id / 32)
    && decide (s.rg R.PLIC_THR 0 x < s.rg R.PLIC_PRI 0 id)

/-- The source a claim of context `x` returns; 0 where there is none (R328). -/
def Dev.plicBest (s : Dev) (x : Nat) : Nat :=
  (List.range 1024).foldl (fun b id =>
    if s.plicReady x id && (b == 0 || decide (s.rg R.PLIC_PRI 0 b < s.rg R.PLIC_PRI 0 id)) then id
    else b) 0

/-- External interrupt of a context. -/
def Dev.plicLine (s : Dev) (x : Nat) : Bool := s.plicBest x != 0

/-- PLIC_CLAIM: a read of a context's claim register (R328). -/
def plicClaim (x : Fin 8) (s : Dev) : Nat × Dev :=
  let s := s.plicSample
  let id := s.plicBest x.val
  if id = 0 then (0, s)
  else (id, (s.setB R.PLIC_PEND (id % 32) false 0 (id / 32)).modHost fun h =>
    { h with claimed := insGran id h.claimed })

/-- PLIC_COMPLETE: a write of the claim register. One for a source that the context does not enable
is ignored. -/
def plicComplete (x : Fin 8) (v : Nat) (s : Dev) : Dev :=
  if decide (v < 1024) && s.bt R.PLIC_EN (v % 32) 0 x.val (v / 32) then
    (s.modHost fun h => { h with claimed := h.claimed.filter (· != v) }).plicSample
  else s

/-- A write of a source's priority: that of a reserved source reads 0 (R329). -/
def plicPriWrite (id v : Nat) (s : Dev) : Dev :=
  if plicListed id then s.plainWrite R.PLIC_PRI v 0 id else s

/-- Enable bits of the sources that word `w` of a context has (R329). -/
def plicMask (w : Nat) : Nat :=
  (List.range 32).foldl (fun n b => n + b2n (plicListed (32 * w + b)) * 2 ^ b) 0

/-- A write of a word of enable bits. -/
def plicEnWrite (x w v : Nat) (s : Dev) : Dev := s.wr R.PLIC_EN (v &&& plicMask w) 0 x w

/-! ### ACLINT and doorbells -/

/-- MTIP of core c (R331). -/
def Dev.mtip (s : Dev) (c : Fin 4) : Bool := decide (s.rg R.MTIMECMP 0 c.val ≤ s.rg R.MTIME)

/-- A write of SETSSIP: SSIP is bit 1 of the core's mip (R332). -/
def setSsipWrite (c : Fin 4) (v : Nat) (s : Dev) : Dev :=
  if bit v 0 = 1 then
    s.modHc c fun h => { h with csr := SMap.set 0 h.csr 0x344 (setBits (SMap.get 0 h.csr 0x344) 1 1 1) }
  else s

/-- A write of HOST_DBELL (R333). -/
def hostDbellWrite (v : Nat) (s : Dev) : Dev := s.orR R.HOST_DBSTAT (v % 2 ^ 16)

/-! ### L2 flush (R322) -/

/-- A write-back of a line to memory with the L2's own ID; one that is refused is logged and lost. -/
def Dev.lineBack (s : Dev) (b : Nat) (l : HLine) : Dev :=
  match s.refusal 4 (64 * b) 8 .wr with
  | some c => s.berr 4 (64 * b) 8 .wr c
  | none => s.putPoison (64 * b) l.data l.poison

/-- A write of L2_FLUSH: the lines present now are cleaned and invalidated before BUSY falls. -/
def l2FlushWrite (v : Nat) (s : Dev) : Dev :=
  if bit v 0 = 1 ∧ s.bt R.L2_STAT 31 = false then
    (s.setB R.L2_STAT 31 true).modHost fun h => { h with flushing := h.cache.map (·.1) }
  else s

/-- An access by `ini` to a line meets its error (R508): which word of the line and which of its bits
it is, is free. -/
def Dev.cacheMeet (s : Dev) (ini b : Nat) : Dev :=
  match s.host.cache.find? (·.1 == b) with
  | none => s
  | some (_, l) =>
    if l.err = 0 then s
    else
      let (w, s) := s.draw
      let (x, s) := s.draw
      let ue := l.err == 2
      let s := (s.elog R.CELOG_ADDR R.CELOG_INFO R.CELOG_CNT R.CELOG_TIME 0 5 (b2n ue) (64 * b + 8 * (w % 8))
        ini (if ue then 0xFF else x % 72) (s.rg R.MTIME) (ue && !l.dirty)).orR R.FLT_STAT (2 ^ (10 + b2n ue))
      s.modHost fun h => { h with
        cache := if ue && !l.dirty then SMap.erase h.cache b
          else SMap.insert h.cache b { l with err := 0, poison := l.poison || ue } }

/-- Clean and invalidate block `b`. -/
def Dev.flushLine (s : Dev) (b : Nat) : Dev :=
  let s := s.cacheMeet 4 b
  match s.host.cache.find? (·.1 == b) with
  | none => s
  | some (_, l) =>
    let s := if l.dirty then s.lineBack b l else s
    s.modHost fun h => { h with cache := SMap.erase h.cache b }

/-- L2_FLUSH_DONE. -/
def l2FlushDone (s : Dev) : Dev :=
  if s.bt R.L2_STAT 31 then
    ((s.host.flushing.foldl (fun s b => s.flushLine b) s).modHost fun h =>
      { h with flushing := [] }).setB R.L2_STAT 31 false
  else s

end Sys2Proof.Machine
end

