-- ==== Sys2Proof/Machine/Ledger.lean ====
section
/-!
DEFINITION. The ledger's tick (R60 to R77), in the order of R76. A tick stops where an event that is
a command of its own is due; that command performs it and the tick goes on.
-/

namespace Sys2Proof.Machine

/-- `v[i]` of the six bus means: solar V and I, battery V and I, load V and I. -/
def Dev.busMean (s : Dev) (i : Fin 6) : Int := vget s.ldg.prev i

/-- Battery voltage of the tick, mV, never negative where a voltage is compared. -/
def Dev.batV (s : Dev) : Int := s.busMean 2

/-- Battery current of the tick, mA. -/
def Dev.batI (s : Dev) : Int := s.busMean 3

/-! ### Integration and tenant credit (R60, R61, R72) -/

/-- Take the bus means of the tick, or keep those of the last valid one (R60). -/
def Dev.ldgMeans (s : Dev) : Dev :=
  s.modLdg fun l => { l with prev := l.mean.getD l.prev, mean := none, tick := l.tick + 1 }

/-- Add the battery's charge to BAT_Q, held between 0 and BAT_CAP (R61). -/
def Dev.ldgBattery (s : Dev) : Dev :=
  let i := s.batI
  let q : Int := 256000 * (s.rg R.BAT_Q : Int) + s.ldg.qRem
    + (if 0 < i then i * (s.fld R.BAT_PAR 23 16 : Int) else 256 * i)
  let cap : Int := s.rg R.BAT_CAP
  if q < 0 then (s.wr R.BAT_Q 0).modLdg fun l => { l with qRem := 0 }
  else if 256000 * cap ≤ q then (s.wr R.BAT_Q cap.toNat).modLdg fun l => { l with qRem := 0 }
  else (s.wr R.BAT_Q (q / 256000).toNat).modLdg fun l => { l with qRem := q % 256000 }

/-- Energy of a bus over the tick, nJ; negative current counts as 0 on the solar and load buses
(R60). -/
def Dev.busEnergy (s : Dev) (v i : Fin 6) : Nat := (s.busMean v * max 0 (s.busMean i)).toNat

/-- Coefficient `k` of gallery `g`, fJ per event (R98). -/
def Dev.actCoef (s : Dev) (g : Fin 6) (k : Nat) : Nat := s.cal 0 (0x140 + (4 * g.val + k) * 4) 4

/-- Activity of a gallery over the tick, fJ, with the remainder carried in. -/
def Dev.actFj (s : Dev) (g : Fin 6) : Nat :=
  (List.finRange 4).foldl (fun x k => x + vget (vget s.ldg.act g) k * s.actCoef g k.val)
    (vget s.ldg.eRem g)

/-- Form the estimates e_g of the tick and start the next tick's counts. -/
def Dev.ldgEstimates (s : Dev) : Dev :=
  s.modLdg fun l => { l with
    est := Vector.ofFn fun g => s.actFj g / 1000000
    eRem := Vector.ofFn fun g => s.actFj g % 1000000
    act := Vector.replicate 6 (Vector.replicate 4 0) }

/-- Credit a tenant with energy in nJ (R72). -/
def Dev.credit (s : Dev) (t : Fin 16) (nj : Nat) : Dev :=
  let x := vget s.ldg.tenRem t + nj
  (s.modLdg fun l => { l with tenRem := vset l.tenRem t (x % 1000) }).count R.TEN_E (x / 1000) 0 t.val

/-- Powered galleries held by works. -/
def Dev.heldGals (s : Dev) : List (Fin 6) :=
  (List.finRange 6).filter fun g => s.galOn g && (s.workOf g).isSome

/-- The credits of the tick: gallery and nJ (R72). -/
def Dev.credits (s : Dev) : List (Fin 6 × Nat) :=
  let l := s.busEnergy 4 5
  let gs := s.heldGals
  let sum := (gs.map fun g => vget s.ldg.est g).foldl (· + ·) 0
  gs.map fun g => (g, if sum ≤ l then vget s.ldg.est g else vget s.ldg.est g * l / sum)

/-- Credit the tenants, tenant 0 with the rest, and note each work's energy (R68, R72). -/
def Dev.ldgCredit (s : Dev) : Dev :=
  let cs := s.credits
  let l := s.busEnergy 4 5
  let s := cs.foldl (fun s c =>
    let s := s.credit (Fin.ofNat 16 (s.fld R.GSTAT 3 0 0 c.1.val)) c.2
    s.modWorks fun w => if c.1.val ∈ w.gals then { w with used := w.used + c.2 } else w) s
  s.credit 0 (l - (cs.map (·.2)).foldl (· + ·) 0)

/-- Integration of the tick. -/
def Dev.ldgIntegrate (s : Dev) : Dev :=
  let s := s.ldgMeans.ldgBattery
  let s := s.modLdg fun l => { l with solar := l.solar + s.busEnergy 0 1 }
  (s.ldgEstimates).ldgCredit

/-! ### Full charge and table fix (R62, R63) -/

/-- The full-charge timer; a detection is due. -/
def Dev.ldgFullTest (s : Dev) : Bool × Dev :=
  let i := s.batI
  let c := decide ((s.fld R.BAT_FULL 15 0 : Int) ≤ s.batV) && decide (0 ≤ i)
    && decide (i ≤ 10 * (s.fld R.BAT_FULL 23 16 : Int))
  let n := if c then s.ldg.fullCnt + 1 else 0
  (c && decide (s.fld R.BAT_FULL 31 24 * 60000 ≤ n), s.modLdg fun l => { l with fullCnt := n })

/-- Entry k of the OCV table. -/
def Dev.ocv (s : Dev) (k : Nat) : Nat := s.fld R.OCV 15 0 0 k

/-- The table is programmed. -/
def Dev.ocvSet (s : Dev) : Bool := s.ocv 15 != 0xFFFF

/-- Some entry is lower than the one before it. -/
def Dev.ocvBad (s : Dev) : Bool := (List.range 15).any fun k => decide (s.ocv (k + 1) < s.ocv k)

/-- The rest timer; a table fix is due. TABERR shows a programmed table that is out of order. -/
def Dev.ldgRestTest (s : Dev) : Bool × Dev :=
  let c := decide (s.batI ≤ s.fld R.BAT_REST 15 0) && decide (-(s.fld R.BAT_REST 15 0 : Int) ≤ s.batI)
  let n := if c then s.ldg.restCnt + 1 else 0
  let bad := s.ocvSet && s.ocvBad
  let s := (s.modLdg fun l => { l with restCnt := n }).setB R.LDG_STAT 28 bad 0
  (c && decide (s.fld R.BAT_REST 31 24 * 60000 ≤ n) && s.ocvSet && !bad, s)

/-- BAT_Q takes a value that the ledger found, unless software wrote it in this tick (R64). -/
def Dev.ldgSetQ (s : Dev) (q : Nat) : Dev :=
  let s := s.setB R.LDG_STAT 31 true 0
  if s.ldg.qWrote then s else (s.wr R.BAT_Q q).modLdg fun l => { l with qRem := 0 }

/-- A full charge (R62). -/
def Dev.ldgFull (s : Dev) : Dev :=
  let s := (s.ldgSetQ (s.rg R.BAT_CAP)).modLdg fun l => { l with fullCnt := 0 }
  (s.orR R.LDG_IRQ 2 0).ldgEvent 1 0

/-- The charge that the table gives for a voltage (R63). -/
def Dev.ocvCharge (s : Dev) (v : Int) : Nat :=
  let cap := s.rg R.BAT_CAP
  if v ≤ s.ocv 0 then 0
  else if s.ocv 15 ≤ v then cap
  else
    match (List.range 15).find? fun k => decide ((s.ocv k : Int) ≤ v) && decide (v < s.ocv (k + 1)) with
    | none => 0
    | some k =>
      let w := s.ocv (k + 1) - s.ocv k
      cap * (w * k + (v.toNat - s.ocv k)) / (15 * w)

/-- A table fix (R63). -/
def Dev.ldgFix (s : Dev) : Dev :=
  let s := (s.ldgSetQ (s.ocvCharge s.batV)).modLdg fun l => { l with restCnt := 0 }
  (s.orR R.LDG_IRQ 4 0).ldgEvent 2 0

/-! ### Hour (R65, R66) -/

/-- The hour ends in this tick: HOUR_MS wraps or a RECALC waits; else HOUR_MS counts. -/
def Dev.ldgHourTest (s : Dev) : Bool × Dev :=
  if s.ldg.recalc || decide (3599999 ≤ s.rg R.HOUR_MS) then (true, s)
  else (false, s.wr R.HOUR_MS (s.rg R.HOUR_MS + 1))

/-- The budget of a new hour (R66). -/
def Dev.newBudget (s : Dev) : Nat :=
  let st := (s.rg R.BAT_Q - s.rg R.Q_FLOOR) * s.fld R.BAT_PAR 15 0
  let h := max 1 (s.fld R.LDG_CTL 23 16)
  let w := min 8 (s.fld R.LDG_CTL 3 0)
  min (s.rg R.BUD_CAP) (st / h + s.rg R.E_SOLAR_PREV * w / 8)

/-- The ledger hour ends (R66). -/
def Dev.ldgHour (s : Dev) : Dev :=
  let s := (s.wr R.E_SOLAR_PREV (s.ldg.solar / 1000)).modLdg fun l =>
    { l with solar := l.solar % 1000, recalc := false }
  let s := (s.wr R.HOUR_MS 0).wr R.BUDGET s.newBudget
  let s := s.setBud ((s.rg R.BUDGET : Int) - s.rg R.BASE_RES)
  let ids := fun c => (s.hub.works.filter (·.cls == c)).map (·.id)
  let s := (ids 1 ++ ids 2 ++ ids 3).foldl Dev.charge s
  (s.orR R.LDG_IRQ 1 0).ldgEvent 0 0

/-! ### Emergency and grace (R73, R74) -/

/-- EMERG after the tick's test (R73). -/
def Dev.emergNext (s : Dev) : Bool :=
  let known := s.bt R.LDG_STAT 31 0
  let q := s.rg R.BAT_Q
  let v := s.batV
  let ve : Int := s.fld R.V_EMERG 15 0
  let vh : Int := s.fld R.V_EMERG 31 16
  if s.bt R.LDG_STAT 29 0 then
    !((!known || decide (s.rg R.Q_EMERG + s.rg R.Q_HYST ≤ q)) && decide (ve + vh ≤ v))
  else (known && decide (q < s.rg R.Q_EMERG)) || decide (v < ve)

/-- Start the grace timer, or stop it. -/
def Dev.setGrace (s : Dev) (on : Bool) : Dev :=
  (s.setB R.LDG_STAT 27 on 0).setF R.LDG_STAT 15 0 (if on then max 1 (s.fld R.GRACE_MS 15 0) else 0) 0

/-- The emergency test and one tick of the grace timer; an expiry is due. -/
def Dev.ldgEmerg (s : Dev) : Bool × Dev :=
  let was := s.bt R.LDG_STAT 29 0
  let now := s.emergNext
  let s := s.setB R.LDG_STAT 29 now 0
  if now && !was then
    let s := (s.orR R.LDG_IRQ 16 0).ldgEvent 4 0
    (false, if s.enf then s.setGrace true else s)
  else if was && !now then (false, (s.ldgEvent 5 0).setGrace false)
  else if s.bt R.LDG_STAT 27 0 then
    let n := s.fld R.LDG_STAT 15 0 - 1
    (n == 0, s.setF R.LDG_STAT 15 0 n 0)
  else (false, s)

/-- The grace timer has reached 0: the works of the lowest running class are shed (R74). -/
def Dev.ldgGrace (s : Dev) : Dev :=
  let ids := fun c => (s.hub.works.filter (·.cls == c)).map (·.id)
  let l := if (ids 3).isEmpty then ids 2 else ids 3
  if l.isEmpty || !s.enforce then s.setGrace false
  else
    let s := (l.foldl Dev.shedWork s).count R.SHED_CNT l.length
    ((s.orR R.LDG_IRQ 32 0).ldgEvent 6 l.length).setGrace true

/-! ### Caps (R70) -/

/-- The cap of one gallery. -/
def Dev.ldgCap (s : Dev) (g : Fin 6) : Dev :=
  let cap := s.rg R.GCAP 0 g.val
  if !s.galOn g || cap == 0 || s.fld R.GSTAT 5 4 0 g.val == 1 then s
  else
    let e := vget s.ldg.est g
    let f := s.fld R.GSTAT 27 16 0 g.val
    let lo := s.fld R.ICC_CTL 11 0 0 g.val
    if cap * 1000 < e then
      if f ≤ lo then
        let was := s.bt R.GSTAT 31 0 g.val
        let s := (s.setB R.GSTAT 31 true 0 g.val).orR R.LDG_IRQ 64 0
        if was then s else s.ldgEvent 7 g.val
      else s.setFeff g (max lo (f - 25))
    else if e < cap * 875 then s.setFeff g (min 600 (f + 25))
    else s

/-- Caps of every gallery, while the ledger enforces. -/
def Dev.ldgCaps (s : Dev) : Dev :=
  if s.enforce then (List.finRange 6).foldl Dev.ldgCap s else s

/-! ### Posts (R77) -/

/-- Bits of byte 0x12 of an entry. -/
def Dev.ldgFlags (s : Dev) : Nat :=
  s.fld R.LDG_STAT 31 31 + s.fld R.LDG_STAT 30 30 * 2 + s.fld R.LDG_STAT 29 29 * 4 + b2n s.enf * 8
    + b2n s.trust * 16

/-- Post the tick's events in ascending code. -/
def Dev.ldgPosts (s : Dev) : Dev :=
  let evs := s.ldg.events
  let s := s.modLdg fun l => { l with events := [] }
  ((List.range 9).flatMap fun c => evs.filter (·.code == c)).foldl (fun s e =>
    if s.cdieOn then
      s.report 40 0x1E [(0x10, 1, e.code), (0x11, 1, e.arg), (0x12, 1, s.ldgFlags),
        (0x14, 4, s.rg R.BAT_Q), (0x18, 8, s.rg R.BUD_REM), (0x20, 8, s.rg R.BUDGET),
        (0x28, 8, e.time), (0x30, 4, e.hourMs)] R.LDG_POSTLOST 0
    else s) s

/-! ### The tick (R76) -/

/-- The tick stops before a part that a command performs. -/
def Dev.ldgStage (s : Dev) (st : LdgStage) : Dev := s.modLdg fun l => { l with stage := st }

/-- Caps and posts end the tick. -/
def Dev.ldgEnd (s : Dev) : Dev :=
  (s.ldgCaps.ldgPosts).modLdg fun l => { l with stage := .idle, qWrote := false }

/-- From the emergency test on. -/
def Dev.ldgFromEmerg (s : Dev) : Dev :=
  let (due, s) := s.ldgEmerg
  if due then s.ldgStage .grace else s.ldgEnd

/-- From the hour boundary on. -/
def Dev.ldgFromHour (s : Dev) : Dev :=
  let (due, s) := s.ldgHourTest
  if due then s.ldgStage .hour else s.ldgFromEmerg

/-- From the table-fix test on. -/
def Dev.ldgFromFix (s : Dev) : Dev :=
  let (due, s) := s.ldgRestTest
  if due then s.ldgStage .fix else s.ldgFromHour

/-- From the start of the tick on. -/
def Dev.ldgStart (s : Dev) : Dev :=
  let (due, s) := s.ldgIntegrate.ldgFullTest
  if due then s.ldgStage .full else s.ldgFromFix

/-- Perform the part that is due and go on. -/
def Dev.ldgGo (s : Dev) : Dev :=
  match s.ldg.stage with
  | .idle => s
  | .full => s.ldgFull.ldgFromFix
  | .fix => s.ldgFix.ldgFromHour
  | .hour => s.ldgHour.ldgFromEmerg
  | .grace => s.ldgGrace.ldgEnd

/-- End the tick that stands at a due part: nothing waits across ticks. -/
def Dev.ldgFinish (s : Dev) : Dev := s.ldgGo.ldgGo.ldgGo.ldgGo

/-- LEDGER_TICK. -/
def ledgerTick (s : Dev) : Dev := s.ldgFinish.ldgStart

/-- FULL_CHARGE. -/
def fullCharge (s : Dev) : Dev := if s.ldg.stage = .full then s.ldgGo else s

/-- TABLE_FIX. -/
def tableFix (s : Dev) : Dev := if s.ldg.stage = .fix then s.ldgGo else s

/-- LEDGER_HOUR_END. -/
def ledgerHourEnd (s : Dev) : Dev := if s.ldg.stage = .hour then s.ldgGo else s

/-- GRACE_EXPIRY. -/
def graceExpiry (s : Dev) : Dev := if s.ldg.stage = .grace then s.ldgGo else s

end Sys2Proof.Machine
end

