-- ==== Sys2Proof/Machine/Bus.lean ====
section
/-!
DEFINITION. What a read of a register shows and what a write of it does: the views and the handlers
of every register that is more than its held value, holding registers and snapshots (R8, R36 to R45),
and a whole access on the bus.
-/

namespace Sys2Proof.Machine

/-- Are two definitions the same register? -/
def RegDef.is (a b : RegDef) : Bool := a.win == b.win && a.off == b.off

/-- Entry of register `r` in a table by register. -/
def lookupReg {α : Type} (r : RegDef) (t : List (RegDef × α)) : Option α :=
  (t.find? fun p => p.1.is r).map (·.2)

/-! ### Views -/

/-- A view: what a read shows of the device, by the window's number and the register's indices. -/
abbrev View := Dev → Nat → Nat → Nat → Nat

/-- DEVID (R5, R6). -/
def devid (a : Asm) (d : Nat) : Nat :=
  0x1B620000 + (a.iodies - 1) * 2 ^ 14 + a.stacks * 2 ^ 11 + d * 2 ^ 10
    + match a with | .m0a => 0 | .m1a => 1 | .m2a => 2 | .m4b => 3

/-- The core of a debug block. -/
def dbgCore (k : Nat) : Fin 8 := Fin.ofNat 8 k

/-- VEC_TROW: while the executing instruction writes the register, the element is one from before or
after it; the latter is a free value (R244). -/
def Dev.trowView (s : Dev) (g : Fin 6) (e : Nat) : Nat :=
  let v := (vget s.gal g).vec
  let t : Fin 8 := Fin.ofNat 8 (s.fld R.VEC_TSEL 10 8 g)
  let w := SMap.get 0 (vget v.t t).data (512 * s.fld R.VEC_TSEL 4 0 g + e)
  match v.exec with
  | some i => if i.td = t ∧ i.sub ≠ .st ∧ Config.freeBool s.free = true
      then Config.free s.free % 2 ^ 32 else w
  | none => w

/-- A legend entry as reads of its window show it (R207). -/
def Dev.legRead (s : Dev) (g : Fin 6) (i : Nat) : Leg :=
  let x := vget s.gal g
  SMap.get .init (x.legCk.getD x.leg) i

/-- RF_STAT: LOCK
of an enabled radio is free (log entry 32). -/
def Dev.rfStat (s : Dev) (d : Fin 2) : Nat :=
  let r := vget s.rad d
  let det := match r.det with | .armed => 0 | .qualifying => 1 | .capturing => 2 | .waiting => 3
  s.rg R.RF_STAT d + det + b2n (s.bt R.RF_CTL 31 d && Config.freeBool s.free) * 2 ^ 31

/-- RCV_STAT: PEND counts the records published and not delivered. -/
def Dev.rcvStat (s : Dev) (d : Fin 2) : Nat :=
  s.rg R.RCV_STAT d + (s.rg R.RX_WSEQ d + 2 ^ 32 - s.rg R.RCV_DSEQ d) % 2 ^ 32 % 128

/-- Galleries, I/O dies and their units as indices. -/
def g6 (k : Nat) : Fin 6 := Fin.ofNat 6 k
@[inherit_doc g6] def d2 (k : Nat) : Fin 2 := Fin.ofNat 2 k
@[inherit_doc g6] def p4 (k : Nat) : Fin 4 := Fin.ofNat 4 k

/-- Registers that show more than their held value. -/
def views : List (RegDef × View) := [
  (R.DEVID, fun s k _ _ => devid s.asm k),
  (R.PWR_STAT, fun s k _ _ => s.pwrStat (d2 k)),
  (R.KEYHASH, fun s k i j => SMap.get 0 (vget s.die (d2 k)).otp (8 * i + j)),
  (R.OTP_CFG, fun s k _ _ => SMap.get 0 (vget s.die (d2 k)).otp 16),
  (R.OTP_SVN, fun s k _ _ => SMap.get 0 (vget s.die (d2 k)).otp 17
    + SMap.get 0 (vget s.die (d2 k)).otp 18 * 2 ^ 32),
  (R.CAL_STAT, fun s k _ _ => s.calStat (d2 k)),
  (R.CAL_LIVE, fun s k i _ => leNat (mapBytes (vget s.die (d2 k)).calLive (4 * i) 4)),
  (R.CAL_STAGE, fun s k i _ => leNat (mapBytes (vget s.die (d2 k)).calStage (4 * i) 4)),
  (R.DBG_STAT, fun s k _ _ => s.dbgStat (dbgCore k)),
  (R.ARR_STAT, fun s k _ _ => (s.arr (g6 k)).stat (s.ep (g6 k)).isOpen),
  (R.ARR_PLANE, fun s k _ _ => (s.arr (g6 k)).planeView),
  (R.VIT_HEAD, fun s k _ _ => (s.arr (g6 k)).headView),
  (R.VIT_LAST, fun s k _ _ => (s.arr (g6 k)).lastView)]
  ++ [
  (R.LEG_SCALE, fun s k i _ => (s.legRead (g6 k) i).view 0),
  (R.LEG_INSC, fun s k i _ => (s.legRead (g6 k) i).view 1),
  (R.LEG_CTL, fun s k i _ => (s.legRead (g6 k) i).view 2),
  (R.LEG_MULT, fun s k i _ => (s.legRead (g6 k) i).view 3),
  (R.LEG_DRV, fun s k i _ => (s.legRead (g6 k) i).view 4),
  (R.LEG_RECIP, fun s k i _ => (s.legRead (g6 k) i).view 5),
  (R.LEG_HMAX, fun s k i _ => (s.legRead (g6 k) i).view 6),
  (R.EP_STAT, fun s k _ _ => s.epStat (g6 k)),
  (R.EP_RESTART, fun s k _ _ => (s.ep (g6 k)).restart),
  (R.VEC_STAT, fun s k _ _ => (vget s.gal (g6 k)).vec.stat (s.cur (g6 k)).charted (s.arr (g6 k)).head.isSome),
  (R.VEC_TAG, fun s k i _ => (vget (vget s.gal (g6 k)).vec.t (Fin.ofNat 8 i)).tag.view),
  (R.VEC_TROW, fun s k i _ => s.trowView (g6 k) i),
  (R.AUD_STAT, fun s k _ _ => s.audStat (g6 k)),
  (R.ST_STAT, fun s k i _ => streamStat (s.stream (g6 k) (Fin.ofNat 16 i))),
  (R.ST_INFO, fun s k i _ => streamInfo (s.stream (g6 k) (Fin.ofNat 16 i))),
  (R.CAR_STAT, fun s k _ _ => (s.car (g6 k)).view)]
  ++ [
  (R.RING_OCC, fun s _ i _ => (s.ring i).rocc * 2 ^ 16 + (s.ring i).socc),
  (R.ADM_STAT, fun s _ _ _ => s.admStat),
  (R.HOST_DRPEND, fun s _ _ _ => s.drPend),
  (R.RF_SLOT, fun s k _ _ => s.slotView (d2 k)),
  (R.RF_STAT, fun s k _ _ => s.rfStat (d2 k)),
  (R.RCV_STAT, fun s k _ _ => s.rcvStat (d2 k)),
  (R.MTR_STAT, fun s k _ _ => s.mtrStat (d2 k)),
  (R.ACC_TOT, fun s k i _ => ofS 64 (vget (vget s.mtr (d2 k)).acc (Fin.ofNat 16 i)).tot),
  (R.ACC_SNAPT, fun s _ _ _ => s.ns),
  (R.MER_CAL0, fun s k _ _ => calWord0 (s.rg R.MER_SEC k)),
  (R.MER_CAL1, fun s k _ _ => calWord1 (s.rg R.MER_SEC k)),
  (R.TS_NS, fun s _ _ _ => s.ns),
  (R.TS_INFO, fun s _ _ _ => s.tsInfo),
  (R.TS_TICK, fun s _ _ _ => s.tk),
  (R.TS_SLEW, fun s _ _ _ => s.slewView),
  (R.TS_STAT, fun s k _ _ => s.tsStat (d2 k)),
  (R.TRK_STAT, fun s k _ _ => s.trkStat (d2 k)),
  (R.TRK_TSTAT, fun s k _ _ => s.trkTstat (d2 k)),
  (R.TRK_UID, fun _ k _ _ => trkUid (d2 k)),
  (R.CSP_STAT, fun s k i _ => s.cspStat (d2 k) (p4 i)),
  (R.GPIO_IN, fun s k _ _ => s.gpioLevel (d2 k)),
  (R.FL_STAT, fun s k i _ => s.flStat (d2 k) (d2 i))]

/-- Value a register shows now; WO fields read 0 (R8). -/
def Dev.shown (s : Dev) (r : RegDef) (k i j : Nat) : Nat :=
  match lookupReg r views with
  | some f => f s k i j % 2 ^ r.w
  | none => andNot (s.rg r k i j) (r.mask .wo)

/-! ### Snapshots (R8, R44) -/

/-- Registers that a read of the RS register `r` latches, with their indices. -/
def snapGroup (r : RegDef) (i : Nat) : List (RegDef × Nat) :=
  if r.is R.AUD_LWSEQ then [(R.AUD_LWMAX, 0), (R.AUD_LWL1, 0)]
  else if r.is R.LAST_SEQ then
    [(R.LAST_FLAGS, i), (R.LAST_TDN, i), (R.LAST_TUP, i), (R.LAST_V, i), (R.LAST_Q, i),
     (R.LAST_TIME, i), (R.LAST_TEMP, i)]
  else if r.is R.ACC_SNAPT then (List.range 16).map fun a => (R.ACC_TOT, a)
  else if r.is R.MER_SEC then [(R.MER_SUB, 0), (R.MER_CAL0, 0), (R.MER_CAL1, 0)]
  else if r.is R.TS_NS then [(R.TS_INFO, 0), (R.TS_TICK, 0)]
  else if r.is R.PPS_CAP then [(R.PPS_INFO, 0)]
  else if r.is R.LNK_SEQ then [(R.LNK_OFS, i), (R.LNK_DLY, i)]
  else []

/-- Key of a snapshot holding register. -/
def snapKey (ini addr : Nat) : Nat := ini * 2 ^ 40 + addr

/-- Latch the group of an RS register for its reader. -/
def Dev.latch (s : Dev) (ini : Nat) (r : RegDef) (k i : Nat) : Dev :=
  (snapGroup r i).foldl (fun t m =>
    { t with bus := { t.bus with
        snap := SMap.insert t.bus.snap (snapKey ini (m.1.addr k m.2 0)) (s.shown m.1 k m.2 0) } }) s

/-- Value that a read by `ini` returns: what it has latched, where it has (R8). A total reads 0 before
the reader's first read of ACC_SNAPT (R410); another register shows its current value then (log entry
33). -/
def Dev.readShown (s : Dev) (ini : Nat) (r : RegDef) (k i j : Nat) : Nat :=
  match s.bus.snap.find? (·.1 == snapKey ini (r.addr k i j)) with
  | some p => p.2
  | none => if r.is R.ACC_TOT then 0 else s.shown r k i j

/-! ### Reads -/

/-- Bits whose field has an access code take the reset value. -/
def Dev.clearRc (s : Dev) (r : RegDef) (k i j : Nat) : Dev :=
  let m := r.mask .rc
  if m = 0 then s else s.wr r (andNot (s.rg r k i j) m ||| (r.rst s.asm k i j &&& m)) k i j

/-- A read of a whole register: its value and its effect (R8). -/
def Dev.regRead (s : Dev) (ini : Nat) (r : RegDef) (k i j : Nat) : Nat × Dev :=
  if r.is R.PLIC_CLAIM then plicClaim (Fin.ofNat 8 i) s
  else if r.is R.DPC || r.is R.CSRDATA || r.is R.SREG then dbgRead (dbgCore k) (r.off + i * r.s1) s
  else if r.is R.CSP_RXD then s.cspPop (d2 k) (p4 i)
  else if r.is R.ACC_RR then
    let a : Fin 16 := Fin.ofNat 16 i
    (ofS 64 (vget (vget s.mtr (d2 k)).acc a).rr,
      s.modMtr (d2 k) fun m => { m with acc := vmod m.acc a fun c => { c with rr := 0 } })
  else
    let s := if r.win == .plic then s.plicSample else s
    let v := s.readShown ini r k i j
    let s := (s.clearRc r k i j).latch ini r k i
    (v, { s with free := s.free + 1 })

/-! ### Writes -/

/-- A handler: what a write of `v` by `ini` does, by the window's number and the register's indices. -/
abbrev Handler := Nat → Nat → Nat → Nat → Nat → Dev → Dev

/-- A log whose VALID, when cleared, clears OVF too (BERR_INFO, ELOG_INFO). -/
def logClear (r : RegDef) : Handler := fun _ k i j v s =>
  if bit v 31 = 1 then s.setF r 31 30 0 k i j else if bit v 30 = 1 then s.setB r 30 false k i j else s

/-- A write of CAR_CTL. -/
def carCtlWrite (g : Fin 6) (v : Nat) (s : Dev) : Dev :=
  let s := if bit v 2 = 1 then s.carStop g else s
  let s := if bit v 1 = 1 then s.carPass g else s
  if bit v 0 = 1 then s.carStart g else s

/-- A write of a word of the calibration staging area (R98). -/
def calStageWrite (d : Fin 2) (i v : Nat) (s : Dev) : Dev :=
  s.modDie d fun x => { x with calStage := putLe x.calStage (4 * i) 4 v }

/-- Watchdogs by their register window. -/
def galW (k : Nat) : Wdog := .gal (g6 k)
@[inherit_doc galW] def hostW (i : Nat) : Wdog := .host (p4 i)
@[inherit_doc galW] def aoW (k : Nat) : Wdog := .ao (d2 k)

/-- Registers whose write does more than land in the RW fields. -/
def handlers : List (RegDef × Handler) := [
  (R.ICC_CTL, fun _ _ i _ v => iccCtlWrite (Fin.ofNat 13 i) v),
  (R.BERR_INFO, logClear R.BERR_INFO),
  (R.IO_BERR_INFO, logClear R.IO_BERR_INFO),
  (R.GELOG_INFO, logClear R.GELOG_INFO),
  (R.CELOG_INFO, logClear R.CELOG_INFO),
  (R.AOELOG_INFO, logClear R.AOELOG_INFO),
  (R.PWR_CTL, fun _ k _ _ v => pwrCtlWrite (d2 k) v),
  (R.PWR_CISL, fun _ _ _ _ v => pwrCislWrite v),
  (R.BOD_STAT, fun _ k _ _ v => bodStatWrite (d2 k) v),
  (R.VF_GAL, fun _ k i _ v => vfGalWrite (d2 k) i v),
  (R.VF_HOST, fun _ k i _ v => vfHostWrite (d2 k) i v),
  (R.CD_TRIP, fun _ _ _ _ v => cdTripWrite v),
  (R.RST_CTL, fun _ k _ _ v => rstCtlWrite (d2 k) v),
  (R.CRST_REL, fun _ _ _ _ v => crstRelWrite v),
  (R.W1_GO, fun _ _ _ _ v => w1GoWrite v),
  (R.OTP_CMD, fun ini k _ _ v => otpCmdWrite ini (d2 k) v),
  (R.CAL_CMD, fun ini k _ _ v => calCmdWrite ini (d2 k) v),
  (R.CAL_STAGE, fun _ k i _ v => calStageWrite (d2 k) i v),
  (R.DBG_CTL, fun _ k _ _ v => dbgCtlWrite (dbgCore k) v),
  (R.DOORBELL, fun _ k _ _ v => doorbellWrite (dbgCore k) v),
  (R.DPC, fun _ k _ _ v => dbgWrite (dbgCore k) 8 v),
  (R.CSRDATA, fun _ k _ _ v => dbgWrite (dbgCore k) 0x14 v),
  (R.SREG, fun _ k i _ v => dbgWrite (dbgCore k) (0x100 + 4 * i) v)]
  ++ [
  (R.LEG_SCALE, fun _ k i _ v => legendWrite (g6 k) i 0 v),
  (R.LEG_INSC, fun _ k i _ v => legendWrite (g6 k) i 1 v),
  (R.LEG_CTL, fun _ k i _ v => legendWrite (g6 k) i 2 v),
  (R.SKP_CTL, fun _ k _ _ v => skpCtlWrite (g6 k) v),
  (R.SKP_TAKE, fun _ k _ _ v => skpTakeWrite (g6 k) v),
  (R.AUD_CTL, fun _ k _ _ v => audCtlWrite (g6 k) v),
  (R.CAR_CTL, fun _ k _ _ v => carCtlWrite (g6 k) v),
  (R.GWDG_CTL, fun _ k _ _ v => wdogCtlWrite (galW k) v),
  (R.GWDG_TIMEOUT, fun _ k _ _ v => wdogTimeoutWrite (galW k) v),
  (R.GWDG_WARN, fun _ k _ _ v => wdogWarnWrite (galW k) v),
  (R.GWDG_CNT, fun _ k _ _ v => wdogKick (galW k) v),
  (R.HWDG_CTL, fun _ _ i _ v => wdogCtlWrite (hostW i) v),
  (R.HWDG_TIMEOUT, fun _ _ i _ v => wdogTimeoutWrite (hostW i) v),
  (R.HWDG_WARN, fun _ _ i _ v => wdogWarnWrite (hostW i) v),
  (R.HWDG_CNT, fun _ _ i _ v => wdogKick (hostW i) v),
  (R.AWDG_CTL, fun _ k _ _ v => wdogCtlWrite (aoW k) v),
  (R.AWDG_TIMEOUT, fun _ k _ _ v => wdogTimeoutWrite (aoW k) v),
  (R.AWDG_WARN, fun _ k _ _ v => wdogWarnWrite (aoW k) v),
  (R.AWDG_CNT, fun _ k _ _ v => wdogKick (aoW k) v)]
  ++ [
  (R.RING_CFG, fun _ _ i _ v => ringCfgWrite i v),
  (R.RING_BASE, fun _ _ i _ v => ringParamWrite R.RING_BASE i v),
  (R.RING_RATE, fun _ _ i _ v => ringParamWrite R.RING_RATE i v),
  (R.RING_SDEPTH, fun _ _ i _ v => ringParamWrite R.RING_SDEPTH i v),
  (R.HUB_CMD, fun ini _ _ _ v => hubCmd ini v),
  (R.ADM_REQ, fun _ _ _ _ v => admReqWrite v),
  (R.ADM_REL, fun _ _ _ _ v => admRelWrite v),
  (R.ADM_ATRLO, fun _ _ _ _ v => poolWrite R.ADM_ATRLO false false v),
  (R.ADM_ATRHI, fun _ _ _ _ v => poolWrite R.ADM_ATRHI true false v),
  (R.ADM_STKLO, fun _ _ _ _ v => poolWrite R.ADM_STKLO false true v),
  (R.ADM_STKHI, fun _ _ _ _ v => poolWrite R.ADM_STKHI true true v),
  (R.SETSSIP, fun _ _ i _ v => setSsipWrite (p4 i) v),
  (R.L2_FLUSH, fun _ _ _ _ v => l2FlushWrite v),
  (R.HOST_DBELL, fun _ _ _ _ v => hostDbellWrite v),
  (R.PLIC_PRI, fun _ _ i _ v => plicPriWrite i v),
  (R.PLIC_EN, fun _ _ i j v => plicEnWrite i j v),
  (R.PLIC_CLAIM, fun _ _ i _ v => plicComplete (Fin.ofNat 8 i) v)]
  ++ [
  (R.RF_CTL, fun _ k _ _ v => rfCtlWrite (d2 k) v),
  (R.RF_SFOFS, fun _ k _ _ v => rfSfofsWrite (d2 k) v),
  (R.RF_QUAL, fun _ k _ _ v => rfQualWrite (d2 k) v),
  (R.RCV_CTL, fun _ k _ _ v => rcvCtlWrite (d2 k) v),
  (R.MTR_CTL, fun _ k _ _ v => mtrCtlWrite (d2 k) v),
  (R.MTR_MINT, fun _ k _ _ v => mtrMintWrite (d2 k) v),
  (R.PATH_DRV, fun _ k i _ v => pathDrvWrite (d2 k) (d2 i) v),
  (R.PRESS, fun _ k _ _ v => pressWrite (d2 k) v),
  (R.RTD_CFG, fun _ k i _ v => rtdCfgWrite (d2 k) (p4 i) v),
  (R.ACC_CFG, fun _ k i _ v => accCfgWrite (d2 k) (Fin.ofNat 16 i) v),
  (R.ACC_STAT, fun _ k i _ v => accClrWrite (d2 k) (Fin.ofNat 16 i) v),
  (R.PO_CFG, fun _ k i _ v => poCfgWrite (d2 k) (p4 i) v),
  (R.PO_WEIGHT, fun _ k i _ v => poWeightWrite (d2 k) (p4 i) v),
  (R.PO_TIME, fun _ k i _ v => poTimeWrite (d2 k) (p4 i) v),
  (R.SP_CFG, fun _ k i _ v => spCfgWrite (d2 k) (g6 i) v),
  (R.PICK_CMT, fun _ k i _ v => pickCommitWrite (d2 k) (d2 i) v),
  (R.SD_CFG, fun _ k i _ v => sdCfgWrite (d2 k) (Fin.ofNat 8 i) v),
  (R.TDM_CFG, fun _ k i _ v => tdmCfgWrite (d2 k) (d2 i) v),
  (R.GRP_CFG, fun _ k i _ v => grpCfgWrite (d2 k) (p4 i) v),
  (R.GRP_SDMASK, fun _ k i _ v => grpParamWrite R.GRP_SDMASK (d2 k) (p4 i) v),
  (R.GRP_TDM, fun _ k i _ v => grpParamWrite R.GRP_TDM (d2 k) (p4 i) v),
  (R.GRP_BASE, fun _ k i _ v => grpParamWrite R.GRP_BASE (d2 k) (p4 i) v),
  (R.GRP_RELCELL, fun _ k i _ v => grpParamWrite R.GRP_RELCELL (d2 k) (p4 i) v)]
  ++ [
  (R.MER_CTL, fun _ k _ _ v => merCtlWrite (d2 k) v),
  (R.MER_SEC, fun _ k _ _ v => merSecWrite (d2 k) v),
  (R.MER_SUB, fun _ k _ _ v => merSubWrite (d2 k) v),
  (R.TS_CTL, fun _ _ _ _ v => tsCtlWrite v),
  (R.TS_FADJ, fun ini _ _ _ v => tsFadjWrite ini v),
  (R.TS_STEP, fun ini _ _ _ v => tsStepWrite ini v),
  (R.TS_SLEW, fun ini _ _ _ v => tsSlewWrite ini v),
  (R.TT_CTL, fun _ k i _ v => ttCtlWrite (d2 k) (Fin.ofNat 256 i) v),
  (R.TT_TIME, fun _ k i _ v => ttParamWrite R.TT_TIME (d2 k) (Fin.ofNat 256 i) v),
  (R.TT_ACT, fun _ k i _ v => ttParamWrite R.TT_ACT (d2 k) (Fin.ofNat 256 i) v),
  (R.TT_ARG, fun _ k i _ v => ttParamWrite R.TT_ARG (d2 k) (Fin.ofNat 256 i) v),
  (R.TT_PER, fun _ k i _ v => ttParamWrite R.TT_PER (d2 k) (Fin.ofNat 256 i) v),
  (R.TRK_CTL, fun _ k _ _ v => trkCtlWrite (d2 k) v),
  (R.TRK_STN, fun _ k _ _ v => trkStnWrite (d2 k) v),
  (R.TRK_CMD, fun _ k _ _ v => trkCmdWrite (d2 k) v),
  (R.CSP_XFER, fun _ k i _ v => cspXferWrite (d2 k) (p4 i) v),
  (R.CSP_CFG, fun _ k i _ v => cspParamWrite R.CSP_CFG (d2 k) (p4 i) v),
  (R.CSP_TIM, fun _ k i _ v => cspParamWrite R.CSP_TIM (d2 k) (p4 i) v),
  (R.CSP_TO, fun _ k i _ v => cspParamWrite R.CSP_TO (d2 k) (p4 i) v),
  (R.CSP_NFRM, fun _ k i _ v => cspParamWrite R.CSP_NFRM (d2 k) (p4 i) v),
  (R.CSP_TXD, fun _ k i _ v => cspPush (d2 k) (p4 i) v),
  (R.GPIO_OUT, fun _ k _ _ v => gpioRegWrite R.GPIO_OUT (d2 k) v),
  (R.GPIO_OE, fun _ k _ _ v => gpioRegWrite R.GPIO_OE (d2 k) v),
  (R.GPIO_SET, fun _ k _ _ v => gpioSetWrite (d2 k) v),
  (R.GPIO_CLR, fun _ k _ _ v => gpioClrWrite (d2 k) v),
  (R.FL_CFG, fun _ k i _ v => flCfgWrite (d2 k) (d2 i) v),
  (R.FL_CMD, fun ini k i _ v => flCmdWrite ini (d2 k) (d2 i) v)]

/-- Ledger registers, with the handlers of those that have one (R61 to R75). -/
def ldgHandlers : List (RegDef × Handler) := [
  (R.LDG_CTL, fun _ _ _ _ v => ldgCtlWrite v),
  (R.EXH_THRESH, fun _ _ _ _ v => exhThreshWrite v),
  (R.BAT_Q, fun _ _ _ _ v => batQWrite v),
  (R.HOUR_MS, fun _ _ _ _ v => hourMsWrite v),
  (R.GCAP, fun _ _ i _ v => gcapWrite (g6 i) v)]

/-- A register of the ledger block. -/
def RegDef.isLdg (r : RegDef) : Bool := r.win == .io && decide (0x40000 ≤ r.off) && decide (r.off < 0x50000)

/-- A write of a whole register by `ini` (R8, R40). The ledger of I/O die 1 does not run and its
registers ignore writes (R60). -/
def Dev.regWrite (s : Dev) (ini : Nat) (r : RegDef) (k i j v : Nat) : Dev :=
  let v := v % 2 ^ r.w
  if r.isLdg then
    if k ≠ 0 then s
    else
      let s := s.ldgFinish
      match lookupReg r ldgHandlers with
      | some f => f ini k i j v s
      | none => s.plainWrite r v k i j
  else
    match lookupReg r handlers with
    | some f => f ini k i j v s
    | none => s.plainWrite r v k i j

/-! ### Accesses -/

/-- Record what an access returned to its initiator. -/
def Dev.busResp (s : Dev) (ini : Nat) (r : Resp) : Resp × Dev :=
  (r, { s with bus := { s.bus with resp := SMap.insert s.bus.resp ini r } })

/-- An access is refused (R41). -/
def Dev.busRefuse (s : Dev) (ini a n : Nat) (k : AccK) (c : Cause) : Resp × Dev :=
  (s.berr ini a n k c).busResp ini ⟨0, true, false⟩

/-- A read of a register word or a whole register (R38, R40). -/
def Dev.wordRead (s : Dev) (ini a n : Nat) : Nat × Dev :=
  match regAt a with
  | none => (0, s)
  | some x =>
    let s := if x.r.isLdg then s.ldgFinish else s
    if x.r.w = 64 ∧ n = 4 then
      if x.part = 0 then
        let (v, s) := s.regRead ini x.r x.k x.i x.j
        (v % 2 ^ 32, { s with bus := { s.bus with rdHold := SMap.set 0 s.bus.rdHold ini v } })
      else (SMap.get 0 s.bus.rdHold ini / 2 ^ 32, s)
    else s.regRead ini x.r x.k x.i x.j

/-- A write of a register word or a whole register: `none` where a high half finds no low half of its
register (R38). -/
def Dev.wordWrite (s : Dev) (ini a n v : Nat) : Option Dev :=
  match regAt a with
  | none => some s
  | some x =>
    if x.r.w = 64 ∧ n = 4 then
      let ra := x.r.addr x.k x.i x.j
      let hold := fun (h : Nat × Nat) =>
        { s with bus := { s.bus with wrHold := SMap.set (0, 0) s.bus.wrHold ini h } }
      if x.part = 0 then some (hold (ra, v % 2 ^ 32))
      else
        let h := SMap.get (0, 0) s.bus.wrHold ini
        if h.1 = ra then
          some ((hold (0, 0)).regWrite ini x.r x.k x.i x.j (h.2 + v % 2 ^ 32 * 2 ^ 32))
        else none
    else some (s.regWrite ini x.r x.k x.i x.j v)

/-- CELL_WINDOW_TEST: a read of a cell's word. What a read of a poisoned cell returns is free (log entry
34). -/
def cellWindowTest (ini c : Nat) (s : Dev) : Nat × Dev :=
  let s := s.cellMeet ini c
  if s.cellBad c then let (x, s) := s.draw; (x % 2 ^ 32, s) else (s.cell c, s)

/-- A read on the bus of `n` bytes at device address `a`, but for the debug module's window. -/
def Dev.read0 (s : Dev) (ini a n : Nat) : Resp × Dev :=
  match s.refusal ini a n .rd with
  | some c => s.busRefuse ini a n .rd c
  | none =>
    match regionOf a with
    | some .cells =>
      if a % 16 = 0 then
        let (v, s) := cellWindowTest ini (a % 0x100000 / 16) s
        s.busResp ini ⟨v, false, false⟩
      else s.busResp ini ⟨0, false, false⟩
    | some r =>
      if r.isMem then
        let s := (s.meet ini a n).flashServe a n
        s.busResp ini ⟨s.rdN a n, false, s.poisoned a n⟩
      else
        let (v, s) := s.wordRead ini a n
        s.busResp ini ⟨v, false, false⟩
    | none => s.busResp ini ⟨0, false, false⟩

/-- A write on the bus, but for the debug module's window. -/
def Dev.write0 (s : Dev) (ini a n v : Nat) : Resp × Dev :=
  match s.refusal ini a n .wr with
  | some c => s.busRefuse ini a n .wr c
  | none =>
    match regionOf a with
    | some .cells =>
      let c := a % 0x100000 / 16
      let s := if a % 16 = 0 then cellWindowSet ini c (v % 2 ^ 32) s
        else if a % 16 = 4 then cellWindowAdd ini c (v % 2 ^ 32) s else s
      s.busResp ini ⟨0, false, false⟩
    | some r =>
      if r.isMem then ((s.meet ini a (if n < 8 then n else 0)).wrN a n v).busResp ini ⟨0, false, false⟩
      else
        match s.wordWrite ini a n v with
        | some s => s.busResp ini ⟨0, false, false⟩
        | none => s.busRefuse ini a n .wr .width
    | none => s.busResp ini ⟨0, false, false⟩

/-- The accesses a unit can make: a read of `n` bytes at an address, and a write of them. -/
structure Bus where
  rd : Nat → Nat → Nat → Dev → Resp × Dev
  wr : Nat → Nat → Nat → Nat → Dev → Resp × Dev

/-- The bus without the host debug module. -/
def bus0 : Bus := ⟨fun ini a n s => s.read0 ini a n, fun ini a n v s => s.write0 ini a n v⟩

end Sys2Proof.Machine
end

