-- ==== Sys2Proof/Machine/HostMem.lean ====
section
/-!
DEFINITION. Memory as a host core sees it: caches (R319 to R321, R285), physical memory protection,
Sv39 (R317), refused and poisoned accesses (R323, R512, R513), and CBO instructions (R320, R325).
-/

namespace Sys2Proof.Machine

/-- Kinds of access a host core makes. -/
inductive HAcc
  | x | r | w
  deriving DecidableEq, Repr

/-- Access fault of a kind. -/
def HAcc.access : HAcc → Nat
  | .x => 1
  | .r => 5
  | .w => 7

/-- Page fault of a kind. -/
def HAcc.page : HAcc → Nat
  | .x => 12
  | .r => 13
  | .w => 15

/-- A host core. -/
def Dev.hc (s : Dev) (c : Fin 4) : HostCore := vget s.host.core c

/-- Held value of a CSR. -/
def HostCore.c (h : HostCore) (n : Nat) : Nat := SMap.get 0 h.csr n

/-- Set the held value of a CSR. -/
def HostCore.setC (h : HostCore) (n v : Nat) : HostCore := { h with csr := SMap.set 0 h.csr n (v % 2 ^ 64) }

/-- Bit of mstatus. -/
def HostCore.ms (h : HostCore) (b : Nat) : Bool := bit (h.c 0x300) b == 1

/-- Number of a privilege mode. -/
def HPriv.num : HPriv → Nat
  | .u => 0
  | .s => 1
  | .m => 3

/-- Privilege mode of a number. -/
def privOf (n : Nat) : HPriv := if n = 3 then .m else if n = 1 then .s else .u

/-! ### Physical memory protection: 16 entries of 4 KiB granularity (R316) -/

/-- Configuration byte of an entry. -/
def HostCore.pmpCfg (h : HostCore) (i : Nat) : Nat := h.c (0x3A0 + i / 8 * 2) / 2 ^ (8 * (i % 8)) % 256

/-- Ones at the low end of a number, at most `n`. -/
def lowOnes : Nat → Nat → Nat
  | 0, _ => 0
  | n + 1, w => if w % 2 = 0 then 0 else 1 + lowOnes n (w / 2)

/-- Address range of an entry, in bytes, first to last plus 1; empty where it is off. -/
def HostCore.pmpRange (h : HostCore) (i : Nat) : Nat × Nat :=
  let a := h.c (0x3B0 + i)
  match bits (h.pmpCfg i) 4 3 with
  | 1 =>
    let lo := if i = 0 then 0 else h.c (0x3AF + i)
    (lo / 1024 * 4096, a / 1024 * 4096)
  | 3 =>
    let a := a ||| 0x1FF
    let k := lowOnes 54 a
    (a / 2 ^ k * 2 ^ k * 4, a / 2 ^ k * 2 ^ k * 4 + 2 ^ (k + 3))
  | _ => (0, 0)

/-- May an access of mode `p` touch `n` bytes at physical address `a`? -/
def HostCore.pmpOk (h : HostCore) (p : HPriv) (k : HAcc) (a n : Nat) : Bool :=
  match (List.range 16).find? fun i => (h.pmpRange i).1 < a + n && a < (h.pmpRange i).2 with
  | none => p == .m
  | some i =>
    let c := h.pmpCfg i
    let r := h.pmpRange i
    decide (r.1 ≤ a) && decide (a + n ≤ r.2)
      && ((p == .m && bit c 7 == 0)
        || bit c (match k with | .r => 0 | .w => 1 | .x => 2) == 1)

/-! ### Attributes (R321) and lines (R319) -/

/-- Is an address in a region the host caches? -/
def Dev.hostCacheable (s : Dev) (a : Nat) : Bool :=
  match regionOf a with
  | some .rom | some .atrium => true
  | some (.stack _) => s.bt R.HOST_PMA 0
  | some (.flash _) => s.bt R.HOST_PMA 1
  | some (.store _) => s.bt R.HOST_PMA 2
  | _ => false

/-- A cacheable region whose lines can differ from memory: all but the atrium, which the hub keeps
coherent, and the ROM, which nothing writes (R285). -/
def Dev.hostLined (s : Dev) (a : Nat) : Bool :=
  s.hostCacheable a && match regionOf a with | some .rom | some .atrium => false | _ => true

/-- The line of a block. -/
def Dev.line (s : Dev) (b : Nat) : Option HLine := (s.host.cache.find? (·.1 == b)).map (·.2)

/-- Put a line. -/
def Dev.setLine (s : Dev) (b : Nat) (l : HLine) : Dev :=
  s.modHost fun h => { h with cache := SMap.insert h.cache b l }

/-- Perform a queued write-back (R320, R325); one that is refused is logged and lost. -/
def Dev.performWb (s : Dev) (w : HWb) : Dev :=
  let s := s.modHost fun h => { h with wb := h.wb.erase w }
  match s.refusal 4 w.addr 8 .wr with
  | some c => s.berr 4 w.addr 8 .wr c
  | none => s.putPoison w.addr w.data w.poison

/-- Perform the queued write-backs of a block, oldest first: a fetch of the block comes after them. -/
def Dev.settleWb (s : Dev) (b : Nat) : Dev :=
  (s.host.wb.filter fun w => w.addr == 64 * b).foldl (fun s w => s.performWb w) s

/-- Fetch a line for core c: refused, or present afterwards. -/
def Dev.fill (s : Dev) (c : Fin 4) (a : Nat) (k : AccK) (n : Nat) : Option Cause × Dev :=
  let b := a / 64
  let s := s.cacheMeet c.val b
  if (s.line b).isSome then (none, s)
  else
    match s.refusal c.val a n k with
    | some e => (some e, s.berr c.val a n k e)
    | none =>
      let s := s.settleWb b
      let s := (s.meet c.val (64 * b) 64).flashServe (64 * b) 64
      (none, s.setLine b ⟨s.rdBytes (64 * b) 64, false, s.poisoned (64 * b) 64, 0⟩)

/-- HPOISON: a host consumption of poison (R513). -/
def Dev.hostPoison (s : Dev) (c : Fin 4) (a : Nat) : Dev :=
  if s.bt R.FLT_STAT 14 then s
  else
    ((s.orR R.FLT_STAT (2 ^ 14)).wr R.FLT_HPOISON (a % 2 ^ 40)).wr R.FLT_HPINFO (2 ^ 31 + c.val)

/-- A physical load by core c: `none` is an access fault (R317, R323). -/
def Dev.physLoad (s : Dev) (B : Bus) (c : Fin 4) (a n : Nat) : Option Nat × Dev :=
  if 2 ^ 40 ≤ a then (none, s.berr c.val (a % 2 ^ 40) n .rd .unmapped)
  else if s.hostLined a then
    match s.fill c a .rd n with
    | (some _, s) => (none, s)
    | (none, s) =>
      match s.line (a / 64) with
      | none => (none, s)
      | some l => if l.poison then (none, s.hostPoison c a)
        else (some (leNat ((l.data.drop (a % 64)).take n)), s)
  else
    let (r, s) := B.rd c.val a n s
    if r.err then (none, s) else if r.poison then (none, s.hostPoison c a) else (some r.val, s)

/-- Reservations of the other cores on a block fall. -/
def Dev.breakResv (s : Dev) (c : Fin 4) (b : Nat) : Dev :=
  let drop := fun (i : Fin 4) (x : HostCore) =>
    if i ≠ c ∧ x.resv = some b then { x with resv := none } else x
  s.modHost fun h => { h with core := Vector.ofFn fun i => drop i (vget h.core i) }

/-- A physical store by core c. A refused one raises nothing (R323). An I/O write is posted: its
acknowledgement is outstanding (R30). -/
def Dev.physStore (s : Dev) (B : Bus) (c : Fin 4) (a n v : Nat) : Dev :=
  if 2 ^ 40 ≤ a then s.berr c.val (a % 2 ^ 40) n .wr .unmapped
  else
    let s := s.breakResv c (a / 64)
    if s.hostLined a then
      match regionOf a with
      | some (.flash _) => (B.wr c.val a n v s).2
      | _ =>
        match s.fill c a .wr n with
        | (some _, s) => s
        | (none, s) =>
          match s.line (a / 64) with
          | none => s
          | some l =>
            s.setLine (a / 64) { l with dirty := true, data := putBytes l.data (a % 64) (leBytes n v) }
    else
      let (r, t) := B.wr c.val a n v s
      if r.err || s.hostCacheable a then t
      else { t with bus := { t.bus with
        outw := SMap.set 0 t.bus.outw c.val (SMap.get 0 t.bus.outw c.val + 1) } }

/-- Nothing that core c has issued is outstanding (R30, R31). -/
def Dev.hostAcked (s : Dev) (c : Fin 4) : Bool := SMap.get 0 s.bus.outw c.val == 0

/-- A FENCE of core c can complete (R325). -/
def Dev.hostFenced (s : Dev) (c : Fin 4) : Bool := s.hostAcked c && !(s.host.wb.any fun w => w.core == c.val)

/-- A store to these addresses is a release: cells, HUB_CMD and ADM_REQ (R31, R325). -/
def hostRelease (a : Nat) : Bool :=
  (match regionOf a with | some .cells => true | _ => false)
    || (decide (0x20020000 ≤ a) && decide (a < 0x20020008))
    || (decide (0x20010000 ≤ a) && decide (a < 0x20010008))

/-! ### Sv39 (R317) -/

/-- Where a virtual address leads. -/
inductive Tr
  | pa (a : Nat)
  | fault (cause : Nat)
  deriving DecidableEq, Repr

/-- May a leaf of the page table be used? -/
def HostCore.pteOk (h : HostCore) (p : HPriv) (k : HAcc) (e : Nat) : Bool :=
  (match k with
    | .r => bit e 1 == 1 || (h.ms 19 && bit e 3 == 1)
    | .w => bit e 2 == 1
    | .x => bit e 3 == 1)
  && (match p with
    | .u => bit e 4 == 1
    | _ => bit e 4 == 0 || (h.ms 18 && k != .x))

/-- The walk from level `n` - 1 down: PTEs are read with supervisor rights, and the hardware sets A and
D. A table in a region that is not cacheable cannot be changed atomically. -/
def walk (B : Bus) (c : Fin 4) (p : HPriv) (k : HAcc) (va : Nat) : Nat → Nat → Dev → Tr × Dev
  | 0, _, s => (.fault k.page, s)
  | n + 1, ppn, s =>
    let h := s.hc c
    let a := ppn * 4096 + va / 2 ^ (12 + 9 * n) % 512 * 8
    if !h.pmpOk .s .r a 8 then (.fault k.access, s)
    else
      match s.physLoad B c a 8 with
      | (none, s) => (.fault k.access, s)
      | (some e, s) =>
        let pn := bits e 53 10
        if bit e 0 = 0 ∨ bits e 2 1 = 2 ∨ e / 2 ^ 54 ≠ 0 then (.fault k.page, s)
        else if bits e 3 1 = 0 then
          if bit e 4 = 1 ∨ bits e 7 6 ≠ 0 then (.fault k.page, s) else walk B c p k va n pn s
        else if !h.pteOk p k e || pn % 2 ^ (9 * n) ≠ 0 then (.fault k.page, s)
        else
          let e' := e ||| (64 + if k = .w then 128 else 0)
          let pa := pn * 4096 + va % 2 ^ (12 + 9 * n)
          if e' = e then (.pa pa, s)
          else if !h.pmpOk .s .w a 8 || !s.hostCacheable a
              || (match regionOf a with | some .rom | some (.flash _) => true | _ => false) then
            (.fault k.access, s)
          else (.pa pa, s.physStore B c a 8 e')

/-- Privilege of a data access: MPRV, which counts in Debug Mode only with dcsr.mprven. -/
def HostCore.dataPriv (h : HostCore) : HPriv :=
  if h.priv = .m ∧ h.ms 17 = true ∧ (h.run ≠ .halted ∨ bit (h.c 0x7B0) 4 = 1) then privOf (bits (h.c 0x300) 12 11) else h.priv

/-- Translate an address and check its protection for `n` bytes. -/
def Dev.xlate (s : Dev) (B : Bus) (c : Fin 4) (p : HPriv) (k : HAcc) (va n : Nat) : Tr × Dev :=
  let h := s.hc c
  let satp := h.c 0x180
  let (t, s) :=
    if p = .m ∨ bits satp 63 60 = 0 then (Tr.pa va, s)
    else if bits va 63 38 ≠ 0 ∧ bits va 63 38 ≠ 2 ^ 26 - 1 then (Tr.fault k.page, s)
    else walk B c p k va 3 (bits satp 43 0) s
  match t with
  | .fault e => (.fault e, s)
  | .pa a => if (s.hc c).pmpOk p k a n then (.pa a, s) else (.fault k.access, s)

/-! ### Data accesses -/

/-- What a data access answers: a value, or a cause. -/
inductive Ld
  | val (v : Nat)
  | fault (cause : Nat)
  deriving DecidableEq, Repr

/-- A load of `n` bytes (R318, R323). -/
def Dev.hload (s : Dev) (B : Bus) (c : Fin 4) (va n : Nat) : Ld × Dev :=
  if va % n ≠ 0 then (.fault 4, s)
  else
    match s.xlate B c (s.hc c).dataPriv .r va n with
    | (.fault e, s) => (.fault e, s)
    | (.pa a, s) =>
      match s.physLoad B c a n with
      | (none, s) => (.fault 5, s)
      | (some v, s) => (.val v, s)

/-- What a store answers. -/
inductive St
  | ok
  | fault (cause : Nat)
  /-- A release that waits for acknowledgements (R31). -/
  | again
  deriving DecidableEq, Repr

/-- A store of `n` bytes. -/
def Dev.hstore (s : Dev) (B : Bus) (c : Fin 4) (va n v : Nat) : St × Dev :=
  if va % n ≠ 0 then (.fault 6, s)
  else
    match s.xlate B c (s.hc c).dataPriv .w va n with
    | (.fault e, s) => (.fault e, s)
    | (.pa a, s) =>
      if hostRelease a && !s.hostAcked c then (.again, s) else (.ok, s.physStore B c a n v)

/-- LR: only in a cacheable region (R318). -/
def Dev.hlr (s : Dev) (B : Bus) (c : Fin 4) (va n : Nat) : Ld × Dev :=
  if va % n ≠ 0 then (.fault 4, s)
  else
    match s.xlate B c (s.hc c).dataPriv .r va n with
    | (.fault e, s) => (.fault e, s)
    | (.pa a, s) =>
      if !s.hostCacheable a then (.fault 5, s)
      else
        match s.physLoad B c a n with
        | (none, s) => (.fault 5, s)
        | (some v, s) => (.val v, s.modHc c fun h => { h with resv := some (a / 64) })

/-- SC: 0 when it has stored, else 1. One that could succeed may fail (log entry 35). -/
def Dev.hsc (s : Dev) (B : Bus) (c : Fin 4) (va n v : Nat) : Ld × Dev :=
  if va % n ≠ 0 then (.fault 6, s)
  else
    match s.xlate B c (s.hc c).dataPriv .w va n with
    | (.fault e, s) => (.fault e, s)
    | (.pa a, s) =>
      if !s.hostCacheable a then (.fault 7, s)
      else
        let (b, s) := s.drawB
        let good := b && (s.hc c).resv == some (a / 64)
        let s := s.modHc c fun h => { h with resv := none }
        if good then (.val 0, s.physStore B c a n v) else (.val 1, s)

/-- An AMO: the old value; only in a cacheable region (R318). -/
def Dev.hamo (s : Dev) (B : Bus) (c : Fin 4) (va n : Nat) (f : Nat → Nat) : Ld × Dev :=
  if va % n ≠ 0 then (.fault 6, s)
  else
    match s.xlate B c (s.hc c).dataPriv .w va n with
    | (.fault e, s) => (.fault e, s)
    | (.pa a, s) =>
      if !s.hostCacheable a then (.fault 7, s)
      else
        match s.physLoad B c a n with
        | (none, s) => (.fault 7, s)
        | (some v, s) => (.val v, s.physStore B c a n (f v))

/-! ### CBO (R320) -/

/-- Cache-block operations. -/
inductive Cbo
  | clean | flush | inval
  deriving DecidableEq, Repr

/-- May mode `p` run it, and as which operation (Zicbom: CBIE, CBCFE)? -/
def HostCore.cboAs (h : HostCore) (o : Cbo) : Option Cbo :=
  let m := h.c 0x30A
  let u := h.c 0x10A
  let on := fun (x : Nat) => match o with
    | .inval => bits x 5 4 != 0
    | _ => bit x 6 == 1
  let fl := fun (x : Nat) => bits x 5 4 == 1
  let legal := h.priv == .m || (on m && (h.priv == .s || on u))
  if !legal then none
  else if o = .inval ∧ h.priv ≠ .m ∧ (fl m || (h.priv == .u && fl u)) = true then some .flush
  else some o

/-- The operation on the block of a physical address: every host cache (R320). -/
def Dev.cboBlock (s : Dev) (c : Fin 4) (o : Cbo) (a : Nat) : Dev :=
  let b := a / 64
  let s := if o = .clean then s else
    s.modHost fun h => { h with core := h.core.map fun x => { x with iperr := x.iperr.filter (· != b) } }
  if !s.hostLined a then s
  else
    let s := if o = .inval then s else s.cacheMeet 4 b
    match s.line b with
    | none => s
    | some l =>
      let s := if o ≠ .inval ∧ l.dirty = true then
          s.modHost fun h => { h with wb := h.wb ++ [⟨c.val, 64 * b, l.data, l.poison⟩] }
        else s
      if o = .clean then s.setLine b { l with dirty := false }
      else s.modHost fun h => { h with cache := SMap.erase h.cache b }

/-- A CBO instruction on the block of a virtual address: it is permitted where a load or a store is. -/
def Dev.cbo (s : Dev) (B : Bus) (c : Fin 4) (o : Cbo) (va : Nat) : Option Nat × Dev :=
  let p := (s.hc c).dataPriv
  let go := fun (a : Nat) (s : Dev) =>
    if 2 ^ 40 ≤ a then (some 7, s.berr c.val (a % 2 ^ 40) 8 .wr .unmapped)
    else ((none : Option Nat), s.cboBlock c o a)
  match s.xlate B c p .r va 1 with
  | (.pa a, s) => go a s
  | (.fault _, s) =>
    match s.xlate B c p .w va 1 with
    | (.pa a, s) => go a s
    | (.fault e, s) => (some e, s)

end Sys2Proof.Machine
end

