-- ==== Sys2Proof/Machine/HostCsr.lean ====
section
/-!
DEFINITION. Control and status registers, traps, interrupts and triggers of a host core (R316, R331,
R332, R334), by the RISC-V Privileged Architecture 1.12 and External Debug Support 0.13.2, which the
spec names (log entry 36 lists what those leave to an implementation).
-/

namespace Sys2Proof.Machine

/-! ### Register values -/

/-- Writable bits of mstatus and of sstatus. -/
def mstatusMask : Nat := 0x7E79AA
@[inherit_doc mstatusMask] def sstatusMask : Nat := 0xC6122

/-- mstatus as read: UXL and SXL are 2, SD follows FS. -/
def HostCore.mstatus (h : HostCore) : Nat :=
  h.c 0x300 + 0xA00000000 + if bits (h.c 0x300) 14 13 = 3 then 2 ^ 63 else 0

/-- mip of core c: SSIP, STIP and SEIP have a written part; the rest are lines (R327, R331, R332). -/
def Dev.mip (s : Dev) (c : Fin 4) : Nat :=
  let h := s.hc c
  (h.c 0x344 &&& 0x222) ||| (b2n (s.bt R.MSIP 0 0 c.val) * 8 + b2n (s.mtip c) * 128
    + b2n (s.plicLine (2 * c.val)) * 2048 + b2n (s.plicLine (2 * c.val + 1)) * 512)

/-- PMP address registers as read: the bits below the granularity read as the mode of the entry
makes them. -/
def HostCore.pmpAddr (h : HostCore) (i : Nat) : Nat :=
  let a := h.c (0x3B0 + i)
  if bit (h.pmpCfg i) 4 = 1 then a ||| 0x1FF else a / 1024 * 1024

/-- Selected trigger. -/
def HostCore.trig (h : HostCore) : Nat := h.c 0x7A0

/-- CSRs a core has (R316). -/
def csrExists (n : Nat) : Bool :=
  decide (1 ≤ n) && decide (n ≤ 3)
    || n ∈ [0x100, 0x104, 0x105, 0x106, 0x10A, 0x140, 0x141, 0x142, 0x143, 0x144, 0x180]
    || n ∈ [0xF11, 0xF12, 0xF13, 0xF14, 0xF15, 0x300, 0x301, 0x302, 0x303, 0x304, 0x305, 0x306, 0x30A,
      0x320, 0x340, 0x341, 0x342, 0x343, 0x344, 0x3A0, 0x3A2]
    || decide (0x3B0 ≤ n) && decide (n ≤ 0x3BF)
    || decide (0x323 ≤ n) && decide (n ≤ 0x33F)
    || decide (0xB00 ≤ n) && decide (n ≤ 0xB1F) && n != 0xB01
    || decide (0xC00 ≤ n) && decide (n ≤ 0xC1F)
    || decide (0x7A0 ≤ n) && decide (n ≤ 0x7A4)
    || decide (0x7B0 ≤ n) && decide (n ≤ 0x7B3)

/-- Value of a CSR. -/
def Dev.csrGet (s : Dev) (c : Fin 4) (n : Nat) : Nat :=
  let h := s.hc c
  match n with
  | 1 => h.c 3 % 32
  | 2 => h.c 3 / 32 % 8
  | 3 => h.c 3
  | 0x100 => h.mstatus &&& (sstatusMask + 0x8000000300000000)
  | 0x104 => h.c 0x304 &&& h.c 0x303
  | 0x144 => s.mip c &&& h.c 0x303
  | 0xF13 => 0x1B62
  | 0xF14 => c.val
  | 0x300 => h.mstatus
  | 0x301 => 0x800000000014112D
  | 0x344 => s.mip c
  | 0x7A1 => h.c (0x1000 + 2 * h.trig) + 2 * 2 ^ 60
  | 0x7A2 => h.c (0x1001 + 2 * h.trig)
  | 0x7A4 => 4
  | 0x7B0 => h.c 0x7B0 + 0x40000000
  | 0xC00 => h.c 0xB00
  | 0xC01 => s.rg R.MTIME
  | 0xC02 => h.c 0xB02
  | _ =>
    if 0x3B0 ≤ n ∧ n ≤ 0x3BF then h.pmpAddr (n - 0x3B0)
    else if n = 0xF11 ∨ n = 0xF12 ∨ n = 0xF15 ∨ (0x323 ≤ n ∧ n ≤ 0x33F) ∨ (0xB03 ≤ n ∧ n ≤ 0xB1F)
        ∨ 0xC03 ≤ n then 0
    else h.c n

/-- Replace the bits of `m`. -/
def maskPut (old m v : Nat) : Nat := andNot old m ||| (v &&& m)

/-- mstatus after a write: a reserved MPP is kept out. -/
def mstatusPut (old m v : Nat) : Nat :=
  let n := maskPut old m v
  if bits n 12 11 = 2 then setBits n 12 11 (bits old 12 11) else n

/-- A configuration byte of PMP after a write: locked entries stay, NA4 is not selectable, and W
without R is not kept. -/
def pmpByte (old v : Nat) : Nat :=
  if bit old 7 = 1 then old
  else
    let v := v &&& 0x9F
    let v := if bits v 4 3 = 2 then setBits v 4 3 (bits old 4 3) else v
    if bits v 1 0 = 2 then setBits v 1 0 0 else v

/-- pmpcfg after a write. -/
def pmpCfgPut (old v : Nat) : Nat :=
  (List.range 8).foldl (fun n i =>
    n + pmpByte (old / 2 ^ (8 * i) % 256) (v / 2 ^ (8 * i) % 256) * 2 ^ (8 * i)) 0

/-- Is a PMP address register locked? -/
def HostCore.pmpLocked (h : HostCore) (i : Nat) : Bool :=
  bit (h.pmpCfg i) 7 == 1 || (decide (i < 15) && bit (h.pmpCfg (i + 1)) 7 == 1 && bits (h.pmpCfg (i + 1)) 4 3 == 1)

/-- tdata1 after a write: address match on equality, action 0 or 1, no chain; DMODE and a trigger it
owns only change in Debug Mode. -/
def tdata1Put (dbg : Bool) (old v : Nat) : Nat :=
  if bit old 59 = 1 ∧ dbg = false then old
  else
    let m := 0x10005F + (if dbg then 2 ^ 59 else 0)
    (v &&& m) + (if dbg && bits v 15 12 == 1 && bit v 59 == 1 then 2 ^ 12 else 0)

/-- menvcfg and senvcfg after a write: CBIE 2 is reserved. -/
def envPut (old v : Nat) : Nat :=
  let v := v &&& 0x71
  if bits v 5 4 = 2 then setBits v 5 4 (bits old 5 4) else v

/-- A write of a CSR; `dbg` in Debug Mode. -/
def HostCore.csrSet (h : HostCore) (dbg : Bool) (n v : Nat) : HostCore :=
  let v := v % 2 ^ 64
  let dirty := fun (h : HostCore) => h.setC 0x300 (h.c 0x300 ||| 0x6000)
  match n with
  | 1 => dirty (h.setC 3 (setBits (h.c 3) 4 0 v))
  | 2 => dirty (h.setC 3 (setBits (h.c 3) 7 5 v))
  | 3 => dirty (h.setC 3 (v % 256))
  | 0x100 => h.setC 0x300 (mstatusPut (h.c 0x300) sstatusMask v)
  | 0x104 => h.setC 0x304 (maskPut (h.c 0x304) (h.c 0x303) v)
  | 0x105 => h.setC n (andNot v 2)
  | 0x106 => h.setC n (v % 8)
  | 0x10A => h.setC n (envPut (h.c n) v)
  | 0x140 => h.setC n v
  | 0x141 => h.setC n (v / 2 * 2)
  | 0x142 => h.setC n v
  | 0x143 => h.setC n v
  | 0x144 => h.setC 0x344 (maskPut (h.c 0x344) (h.c 0x303 &&& 2) v)
  | 0x180 => if bits v 63 60 = 0 ∨ bits v 63 60 = 8 then h.setC n v else h
  | 0x300 => h.setC n (mstatusPut (h.c n) mstatusMask v)
  | 0x302 => h.setC n (v &&& 0xB3FF)
  | 0x303 => h.setC n (v &&& 0x222)
  | 0x304 => h.setC n (v &&& 0xAAA)
  | 0x305 => h.setC n (andNot v 2)
  | 0x306 => h.setC n (v % 8)
  | 0x30A => h.setC n (envPut (h.c n) v)
  | 0x320 => h.setC n (v &&& 5)
  | 0x340 => h.setC n v
  | 0x341 => h.setC n (v / 2 * 2)
  | 0x342 => h.setC n v
  | 0x343 => h.setC n v
  | 0x344 => h.setC n (maskPut (h.c n) 0x222 v)
  | 0x3A0 => h.setC n (pmpCfgPut (h.c n) v)
  | 0x3A2 => h.setC n (pmpCfgPut (h.c n) v)
  | 0x7A0 => h.setC n (if v < 4 then v else h.c n)
  | 0x7A1 => h.setC (0x1000 + 2 * h.trig) (tdata1Put dbg (h.c (0x1000 + 2 * h.trig)) v)
  | 0x7A2 =>
    if bit (h.c (0x1000 + 2 * h.trig)) 59 = 1 ∧ dbg = false then h else h.setC (0x1001 + 2 * h.trig) v
  | 0x7B0 =>
    let p := v % 4
    h.setC n ((v &&& 0xBE14) + bits (h.c n) 8 6 * 64 + if p = 2 then h.c n % 4 else p)
  | 0x7B1 => { h.setC n (v / 2 * 2) with pc := BitVec.ofNat 64 (v / 2 * 2) }
  | 0x7B2 => h.setC n v
  | 0x7B3 => h.setC n v
  | 0xB00 => h.setC n v
  | 0xB02 => h.setC n v
  | _ =>
    if 0x3B0 ≤ n ∧ n ≤ 0x3BF ∧ h.pmpLocked (n - 0x3B0) = false then h.setC n (v % 2 ^ 54) else h

/-- May a CSR be accessed from the core's mode, with `wr` an access that writes? -/
def HostCore.csrAllowed (h : HostCore) (dbg : Bool) (n : Nat) (wr : Bool) : Bool :=
  let p := h.priv.num
  let cnt := fun (r : Nat) => bit (h.c r) (n % 32) == 1
  csrExists n && (dbg || decide (n < 0x7B0) || decide (0x7B3 < n))
    && (dbg || decide (bits n 9 8 ≤ p)) && !(wr && bits n 11 10 == 3)
    && (decide (3 < n) || bits (h.c 0x300) 14 13 != 0)
    && !(n == 0x180 && h.priv == .s && h.ms 20 && !dbg)
    && (dbg || decide (n < 0xC00) || decide (0xC1F < n) || h.priv == .m
      || (cnt 0x306 && (h.priv == .s || cnt 0x106)))

/-! ### Traps -/

/-- Entry to a handler: delegated causes of S and U mode go to S mode. `int` is an interrupt. -/
def HostCore.trap (h : HostCore) (int : Bool) (cause tval : Nat) : HostCore :=
  let deleg := bit (h.c (if int then 0x303 else 0x302)) cause == 1
  let code := cause + if int then 2 ^ 63 else 0
  let st := h.c 0x300
  let vec := fun (r : Nat) => BitVec.ofNat 64
    (h.c r / 4 * 4 + if int && h.c r % 4 == 1 then 4 * cause else 0)
  if deleg && h.priv != .m then
    let st := setBits (setBits (setBits st 8 8 h.priv.num) 5 5 (bit st 1)) 1 1 0
    { ((((h.setC 0x141 h.pc.toNat).setC 0x142 code).setC 0x143 tval).setC 0x300 st) with
      priv := .s, pc := vec 0x105, wfi := false }
  else
    let st := setBits (setBits (setBits st 12 11 h.priv.num) 7 7 (bit st 3)) 3 3 0
    { ((((h.setC 0x341 h.pc.toNat).setC 0x342 code).setC 0x343 tval).setC 0x300 st) with
      priv := .m, pc := vec 0x305, wfi := false }

/-- MRET. -/
def HostCore.mret (h : HostCore) : HostCore :=
  let st := h.c 0x300
  let p := bits st 12 11
  let st := setBits (setBits (setBits st 3 3 (bit st 7)) 7 7 1) 12 11 0
  let st := if p = 3 then st else setBits st 17 17 0
  { h.setC 0x300 st with priv := privOf p, pc := BitVec.ofNat 64 (h.c 0x341) }

/-- SRET. -/
def HostCore.sret (h : HostCore) : HostCore :=
  let st := h.c 0x300
  let p := bit st 8
  let st := setBits (setBits (setBits (setBits st 1 1 (bit st 5)) 5 5 1) 8 8 0) 17 17 0
  { h.setC 0x300 st with priv := privOf p, pc := BitVec.ofNat 64 (h.c 0x141) }

/-- The interrupt a core takes now, in the order MEI, MSI, MTI, SEI, SSI, STI. -/
def Dev.hostInt (s : Dev) (c : Fin 4) : Option Nat :=
  let h := s.hc c
  let pend := s.mip c &&& h.c 0x304
  let mOn := h.priv != .m || h.ms 3
  let sOn := h.priv == .u || (h.priv == .s && h.ms 1)
  let m := andNot pend (h.c 0x303)
  let d := pend &&& h.c 0x303
  let first := fun (w : Nat) => [11, 3, 7, 9, 1, 5].find? fun i => bit w i == 1
  if mOn && m != 0 then first m else if sOn then first d else none

/-! ### Debug Mode -/

/-- Enter Debug Mode: dcsr.cause, dpc and dcsr.prv (R334). -/
def HostCore.enterDebug (h : HostCore) (cause : Nat) : HostCore :=
  let d := setBits (setBits (h.c 0x7B0) 8 6 cause) 1 0 h.priv.num
  { (h.setC 0x7B0 d).setC 0x7B1 h.pc.toNat with run := .halted, priv := .m, step := false, wfi := false }

/-- Leave it. -/
def HostCore.leaveDebug (h : HostCore) : HostCore :=
  let p := h.c 0x7B0 % 4
  { h with
    run := .running, pc := BitVec.ofNat 64 (h.c 0x7B1), priv := privOf p
    step := bit (h.c 0x7B0) 2 == 1 }

/-- A trigger that an access at `a` fires outside Debug Mode: its action, 0 or 1. -/
def HostCore.trigHit (h : HostCore) (k : HAcc) (a : Nat) : Option Nat :=
  if h.run = .halted then none
  else ((List.range 4).find? fun i =>
    let t := h.c (0x1000 + 2 * i)
    h.c (0x1001 + 2 * i) == a
      && bit t (match k with | .x => 2 | .w => 1 | .r => 0) == 1
      && bit t (match h.priv with | .m => 6 | .s => 4 | .u => 3) == 1).map fun i =>
    bits (h.c (0x1000 + 2 * i)) 15 12

end Sys2Proof.Machine
end

