-- ==== Sys2Proof/Machine/HostAlu.lean ====
section
/-!
DEFINITION. Instruction words of a host core: compressed forms as the 32-bit words they stand for,
integer arithmetic of RV64IM, Zba and Zbb, and floating-point arithmetic of F and D (R316).
-/

namespace Sys2Proof.Machine

/-! ### Words -/

/-- Formats of the 32-bit words. -/
def wR (f7 rs2 rs1 f3 rd op : Nat) : Nat :=
  f7 * 2 ^ 25 + rs2 * 2 ^ 20 + rs1 * 2 ^ 15 + f3 * 2 ^ 12 + rd * 2 ^ 7 + op
@[inherit_doc wR] def wI (imm rs1 f3 rd op : Nat) : Nat :=
  imm % 4096 * 2 ^ 20 + rs1 * 2 ^ 15 + f3 * 2 ^ 12 + rd * 2 ^ 7 + op
@[inherit_doc wR] def wS (imm rs2 rs1 f3 op : Nat) : Nat :=
  bits imm 11 5 * 2 ^ 25 + rs2 * 2 ^ 20 + rs1 * 2 ^ 15 + f3 * 2 ^ 12 + imm % 32 * 2 ^ 7 + op
@[inherit_doc wR] def wB (imm rs2 rs1 f3 : Nat) : Nat :=
  bit imm 12 * 2 ^ 31 + bits imm 10 5 * 2 ^ 25 + rs2 * 2 ^ 20 + rs1 * 2 ^ 15 + f3 * 2 ^ 12
    + bits imm 4 1 * 2 ^ 8 + bit imm 11 * 2 ^ 7 + 0x63
@[inherit_doc wR] def wJ (imm rd : Nat) : Nat :=
  bit imm 20 * 2 ^ 31 + bits imm 10 1 * 2 ^ 21 + bit imm 11 * 2 ^ 20 + bits imm 19 12 * 2 ^ 12 + rd * 2 ^ 7 + 0x6F

/-- The low `n` bits sign-extended to 32. -/
def sx32 (n v : Nat) : Nat := ofS 32 (toS n v)

/-- Quadrant 0 of the compressed words. -/
def expand0 (w : Nat) : Option Nat :=
  let rd := 8 + bits w 4 2
  let rs := 8 + bits w 9 7
  let iw := bits w 12 10 * 8 + bit w 6 * 4 + bit w 5 * 64
  let id := bits w 12 10 * 8 + bits w 6 5 * 64
  match bits w 15 13 with
  | 0 =>
    let imm := bits w 12 11 * 16 + bits w 10 7 * 64 + bit w 6 * 4 + bit w 5 * 8
    if imm = 0 then none else some (wI imm 2 0 rd 0x13)
  | 1 => some (wI id rs 3 rd 0x07)
  | 2 => some (wI iw rs 2 rd 0x03)
  | 3 => some (wI id rs 3 rd 0x03)
  | 5 => some (wS id rd rs 3 0x27)
  | 6 => some (wS iw rd rs 2 0x23)
  | 7 => some (wS id rd rs 3 0x23)
  | _ => none

/-- Quadrant 1. -/
def expand1 (w : Nat) : Option Nat :=
  let rd := bits w 11 7
  let rp := 8 + bits w 9 7
  let imm := sx32 6 (bit w 12 * 32 + bits w 6 2)
  let sh := bit w 12 * 32 + bits w 6 2
  let j := sx32 12 (bit w 12 * 2048 + bit w 11 * 16 + bits w 10 9 * 256 + bit w 8 * 1024 + bit w 7 * 64
    + bit w 6 * 128 + bits w 5 3 * 2 + bit w 2 * 32)
  let b := sx32 9 (bit w 12 * 256 + bits w 11 10 * 8 + bits w 6 5 * 64 + bits w 4 3 * 2 + bit w 2 * 32)
  match bits w 15 13 with
  | 0 => some (wI imm rd 0 rd 0x13)
  | 1 => if rd = 0 then none else some (wI imm rd 0 rd 0x1B)
  | 2 => some (wI imm 0 0 rd 0x13)
  | 3 =>
    if rd = 2 then
      let i := sx32 10 (bit w 12 * 512 + bit w 6 * 16 + bit w 5 * 64 + bits w 4 3 * 128 + bit w 2 * 32)
      if i = 0 then none else some (wI i 2 0 2 0x13)
    else if imm = 0 then none
    else some (imm % 2 ^ 20 * 2 ^ 12 + rd * 2 ^ 7 + 0x37)
  | 4 =>
    match bits w 11 10 with
    | 0 => some (wI sh rp 5 rp 0x13)
    | 1 => some (wI (0x400 + sh) rp 5 rp 0x13)
    | 2 => some (wI imm rp 7 rp 0x13)
    | _ =>
      let r2 := 8 + bits w 4 2
      match bit w 12, bits w 6 5 with
      | 0, 0 => some (wR 0x20 r2 rp 0 rp 0x33)
      | 0, 1 => some (wR 0 r2 rp 4 rp 0x33)
      | 0, 2 => some (wR 0 r2 rp 6 rp 0x33)
      | 0, 3 => some (wR 0 r2 rp 7 rp 0x33)
      | 1, 0 => some (wR 0x20 r2 rp 0 rp 0x3B)
      | 1, 1 => some (wR 0 r2 rp 0 rp 0x3B)
      | _, _ => none
  | 5 => some (wJ j 0)
  | 6 => some (wB b 0 rp 0)
  | _ => some (wB b 0 rp 1)

/-- Quadrant 2. -/
def expand2 (w : Nat) : Option Nat :=
  let rd := bits w 11 7
  let r2 := bits w 6 2
  let id := bit w 12 * 32 + bits w 6 5 * 8 + bits w 4 2 * 64
  let iw := bit w 12 * 32 + bits w 6 4 * 4 + bits w 3 2 * 64
  let sd := bits w 12 10 * 8 + bits w 9 7 * 64
  let sw := bits w 12 9 * 4 + bits w 8 7 * 64
  match bits w 15 13 with
  | 0 => some (wI (bit w 12 * 32 + r2) rd 1 rd 0x13)
  | 1 => some (wI id 2 3 rd 0x07)
  | 2 => if rd = 0 then none else some (wI iw 2 2 rd 0x03)
  | 3 => if rd = 0 then none else some (wI id 2 3 rd 0x03)
  | 4 =>
    if bit w 12 = 0 then
      if r2 ≠ 0 then some (wR 0 r2 0 0 rd 0x33)
      else if rd = 0 then none else some (wI 0 rd 0 0 0x67)
    else if r2 ≠ 0 then some (wR 0 r2 rd 0 rd 0x33)
    else if rd = 0 then some 0x100073 else some (wI 0 rd 0 1 0x67)
  | 5 => some (wS sd r2 2 3 0x27)
  | 6 => some (wS sw r2 2 2 0x23)
  | _ => some (wS sd r2 2 3 0x23)

/-- The 32-bit word that a compressed word stands for; `none` where it is illegal. -/
def expand (w : Nat) : Option Nat :=
  match w % 4 with
  | 0 => expand0 w
  | 1 => expand1 w
  | 2 => expand2 w
  | _ => none

/-! ### Integer arithmetic -/

/-- A 64-bit word from an integer. -/
def dw (x : Int) : DWord := BitVec.ofInt 64 x

/-- The low 32 bits sign-extended. -/
def sxW (a : DWord) : DWord := (a.setWidth 32).signExtend 64

/-- The low 32 bits zero-extended. -/
def zxW (a : DWord) : DWord := (a.setWidth 32).zeroExtend 64

/-- Leading zeros of the low `n` bits. -/
def clzN : Nat → Nat → Nat
  | 0, _ => 0
  | n + 1, a => if bit a n = 1 then 0 else 1 + clzN n a

/-- Trailing zeros of the low `n` bits. -/
def ctzN : Nat → Nat → Nat
  | 0, _ => 0
  | n + 1, a => if a % 2 = 1 then 0 else 1 + ctzN n (a / 2)

/-- OR of each byte with itself: 0xFF where a byte has a 1. -/
def orcB (a : Nat) : Nat :=
  (List.range 8).foldl (fun n i => n + if a / 256 ^ i % 256 = 0 then 0 else 255 * 256 ^ i) 0

/-- Bytes in reverse order. -/
def rev8 (a : Nat) : Nat := beNat (leBytes 8 a)

/-- Division as the M extension defines it, on words of any width. -/
def mDiv {n : Nat} (a b : BitVec n) : BitVec n := if b = 0 then BitVec.allOnes n else a.sdiv b
@[inherit_doc mDiv] def mDivu {n : Nat} (a b : BitVec n) : BitVec n := if b = 0 then BitVec.allOnes n else a / b
@[inherit_doc mDiv] def mRem {n : Nat} (a b : BitVec n) : BitVec n := if b = 0 then a else a.srem b
@[inherit_doc mDiv] def mRemu {n : Nat} (a b : BitVec n) : BitVec n := if b = 0 then a else a % b

/-- Register-register operation of opcode 0x33. -/
def alu64 (f7 f3 : Nat) (a b : DWord) : Option DWord :=
  let n := b.toNat % 64
  match f7, f3 with
  | 0x00, 0 => some (a + b)
  | 0x20, 0 => some (a - b)
  | 0x00, 1 => some (a <<< n)
  | 0x00, 2 => some (if a.slt b then 1 else 0)
  | 0x00, 3 => some (if a.ult b then 1 else 0)
  | 0x00, 4 => some (a ^^^ b)
  | 0x00, 5 => some (a >>> n)
  | 0x20, 5 => some (a.sshiftRight n)
  | 0x00, 6 => some (a ||| b)
  | 0x00, 7 => some (a &&& b)
  | 0x01, 0 => some (a * b)
  | 0x01, 1 => some (dw (a.toInt * b.toInt / 2 ^ 64))
  | 0x01, 2 => some (dw (a.toInt * b.toNat / 2 ^ 64))
  | 0x01, 3 => some (BitVec.ofNat 64 (a.toNat * b.toNat / 2 ^ 64))
  | 0x01, 4 => some (mDiv a b)
  | 0x01, 5 => some (mDivu a b)
  | 0x01, 6 => some (mRem a b)
  | 0x01, 7 => some (mRemu a b)
  | 0x10, 2 => some (b + a <<< 1)
  | 0x10, 4 => some (b + a <<< 2)
  | 0x10, 6 => some (b + a <<< 3)
  | 0x20, 4 => some (~~~(a ^^^ b))
  | 0x20, 6 => some (a ||| ~~~b)
  | 0x20, 7 => some (a &&& ~~~b)
  | 0x05, 4 => some (if a.slt b then a else b)
  | 0x05, 5 => some (if a.ult b then a else b)
  | 0x05, 6 => some (if a.slt b then b else a)
  | 0x05, 7 => some (if a.ult b then b else a)
  | 0x30, 1 => some (a.rotateLeft n)
  | 0x30, 5 => some (a.rotateRight n)
  | _, _ => none

/-- Register-register operation of opcode 0x3B; `rs2` is the field, for zext.h. -/
def alu32 (f7 f3 rs2 : Nat) (a b : DWord) : Option DWord :=
  let x := a.setWidth 32
  let y := b.setWidth 32
  let n := b.toNat % 32
  let s := fun (v : BitVec 32) => some (v.signExtend 64)
  match f7, f3 with
  | 0x00, 0 => s (x + y)
  | 0x20, 0 => s (x - y)
  | 0x00, 1 => s (x <<< n)
  | 0x00, 5 => s (x >>> n)
  | 0x20, 5 => s (x.sshiftRight n)
  | 0x01, 0 => s (x * y)
  | 0x01, 4 => s (mDiv x y)
  | 0x01, 5 => s (mDivu x y)
  | 0x01, 6 => s (mRem x y)
  | 0x01, 7 => s (mRemu x y)
  | 0x04, 0 => some (b + zxW a)
  | 0x10, 2 => some (b + zxW a <<< 1)
  | 0x10, 4 => some (b + zxW a <<< 2)
  | 0x10, 6 => some (b + zxW a <<< 3)
  | 0x04, 4 => if rs2 = 0 then some ((a.setWidth 16).zeroExtend 64) else none
  | 0x30, 1 => s (x.rotateLeft n)
  | 0x30, 5 => s (x.rotateRight n)
  | _, _ => none

/-- Immediate operation of opcode 0x13; `imm` is the 12-bit field. -/
def aluI64 (f3 imm : Nat) (a : DWord) : Option DWord :=
  let i := dw (toS 12 imm)
  let n := imm % 64
  match f3 with
  | 0 => some (a + i)
  | 2 => some (if a.slt i then 1 else 0)
  | 3 => some (if a.ult i then 1 else 0)
  | 4 => some (a ^^^ i)
  | 6 => some (a ||| i)
  | 7 => some (a &&& i)
  | 1 =>
    if imm / 64 = 0 then some (a <<< n)
    else match imm with
      | 0x600 => some (BitVec.ofNat 64 (clzN 64 a.toNat))
      | 0x601 => some (BitVec.ofNat 64 (ctzN 64 a.toNat))
      | 0x602 => some (BitVec.ofNat 64 (popcount 64 a.toNat))
      | 0x604 => some ((a.setWidth 8).signExtend 64)
      | 0x605 => some ((a.setWidth 16).signExtend 64)
      | _ => none
  | _ =>
    if imm / 64 = 0 then some (a >>> n)
    else if imm / 64 = 0x10 then some (a.sshiftRight n)
    else if imm / 64 = 0x18 then some (a.rotateRight n)
    else if imm = 0x287 then some (BitVec.ofNat 64 (orcB a.toNat))
    else if imm = 0x6B8 then some (BitVec.ofNat 64 (rev8 a.toNat))
    else none

/-- Immediate operation of opcode 0x1B. -/
def aluI32 (f3 imm : Nat) (a : DWord) : Option DWord :=
  let x := a.setWidth 32
  let n := imm % 32
  let s := fun (v : BitVec 32) => some (v.signExtend 64)
  match f3 with
  | 0 => some (sxW (a + dw (toS 12 imm)))
  | 1 =>
    if imm / 32 = 0 then s (x <<< n)
    else if imm / 64 = 2 then some (zxW a <<< (imm % 64))
    else match imm with
      | 0x600 => some (BitVec.ofNat 64 (clzN 32 a.toNat))
      | 0x601 => some (BitVec.ofNat 64 (ctzN 32 a.toNat))
      | 0x602 => some (BitVec.ofNat 64 (popcount 32 a.toNat))
      | _ => none
  | 5 =>
    if imm / 32 = 0 then s (x >>> n)
    else if imm / 32 = 0x20 then s (x.sshiftRight n)
    else if imm / 32 = 0x30 then s (x.rotateRight n)
    else none
  | _ => none

/-- Condition of a branch; `none` for a reserved one. -/
def branchCond (f3 : Nat) (a b : DWord) : Option Bool :=
  match f3 with
  | 0 => some (a == b)
  | 1 => some (a != b)
  | 4 => some (a.slt b)
  | 5 => some (!a.slt b)
  | 6 => some (a.ult b)
  | 7 => some (!a.ult b)
  | _ => none

/-- What an AMO stores, on words of its width `n` bits. -/
def amoVal (f5 n old v : Nat) : Option Nat :=
  let lt := decide (toS n old < toS n v)
  match f5 with
  | 0x00 => some ((old + v) % 2 ^ n)
  | 0x01 => some v
  | 0x04 => some (old ^^^ v)
  | 0x08 => some (old ||| v)
  | 0x0C => some (old &&& v)
  | 0x10 => some (if lt then old else v)
  | 0x14 => some (if lt then v else old)
  | 0x18 => some (min old v)
  | 0x1C => some (max old v)
  | _ => none

/-! ### Floating point -/

/-- Format of an fmt field: 0 single, 1 double. -/
def ffmt (n : Nat) : Option FFmt := if n = 0 then some f32 else if n = 1 then some f64 else none

/-- A rounding direction; `none` for a reserved one. -/
def rmOf (n : Nat) : Option Rm :=
  match n with
  | 0 => some .rne
  | 1 => some .rtz
  | 2 => some .rdn
  | 3 => some .rup
  | 4 => some .rmm
  | _ => none

/-- A register read as a format: a single that is not NaN-boxed reads as the canonical NaN. -/
def unbox (f : FFmt) (w : Nat) : Nat :=
  if f.p = 24 then (if w / 2 ^ 32 = 2 ^ 32 - 1 then w % 2 ^ 32 else f.nan) else w

/-- A result as a register holds it. -/
def box (f : FFmt) (w : Nat) : Nat := if f.p = 24 then w + (2 ^ 32 - 1) * 2 ^ 32 else w

/-- FCLASS. -/
def fclass (f : FFmt) (w : Nat) : Nat :=
  let n := f.neg w
  let ex := bits w (f.fb + f.eb - 1) f.fb
  let fr := w % 2 ^ f.fb
  if f.isNan w then (if f.isSnan w then 256 else 512)
  else if ex = 2 ^ f.eb - 1 then (if n then 1 else 128)
  else if ex = 0 then (if fr = 0 then (if n then 8 else 16) else if n then 4 else 32)
  else if n then 2 else 64

/-- Minimum or maximum: a NaN gives the other operand, and -0 is below +0. -/
def fminmax (f : FFmt) (mx : Bool) (a b : Nat) : FR :=
  let nv := f.nv [a, b]
  if f.isNan a && f.isNan b then ⟨f.nan, nv⟩
  else if f.isNan a then ⟨b, nv⟩
  else if f.isNan b then ⟨a, nv⟩
  else
    let less := if f.eq a b then f.neg a else f.lt a b
    ⟨if less != mx then a else b, nv⟩

/-- Conversion to an integer of `n` bits, signed or not, sign-extended to 64 bits. -/
def fToInt (f : FFmt) (r : Rm) (n : Nat) (sgn : Bool) (w : Nat) : FR :=
  let hi : Int := if sgn then 2 ^ (n - 1) - 1 else 2 ^ n - 1
  let lo : Int := if sgn then -2 ^ (n - 1) else 0
  let put := fun (x : Int) => ofS 64 (toS n (ofS n x))
  match f.dec w with
  | .nan => ⟨put hi, 16⟩
  | .inf neg => ⟨put (if neg then lo else hi), 16⟩
  | .fin neg m e =>
    let (x, exact) := fvInt r neg m e
    if x < lo then ⟨put lo, 16⟩ else if hi < x then ⟨put hi, 16⟩ else ⟨put x, b2n !exact⟩

/-- Sign injection: `k` 0 FSGNJ, 1 FSGNJN, 2 FSGNJX. -/
def fsgnj (f : FFmt) (k a b : Nat) : Nat :=
  let s := match k with
    | 0 => f.neg b
    | 1 => !f.neg b
    | _ => f.neg a != f.neg b
  f.abs a + b2n s * 2 ^ (f.fb + f.eb)

/-- Comparison: `k` 0 FLE, 1 FLT, 2 FEQ. Only FEQ is quiet. -/
def fcmp (f : FFmt) (k a b : Nat) : FR :=
  let nan := f.isNan a || f.isNan b
  match k with
  | 0 => ⟨b2n (f.le a b), if nan then 16 else 0⟩
  | 1 => ⟨b2n (f.lt a b), if nan then 16 else 0⟩
  | _ => ⟨b2n (f.eq a b), f.nv [a, b]⟩

end Sys2Proof.Machine
end

