-- ==== Sys2Proof/Machine/HostRun.lean ====
section
/-!
DEFINITION. One instruction of a host core: fetch, interrupts, execution and what follows (R316 to
R326, R334).
-/

namespace Sys2Proof.Machine

/-- What an instruction answers. -/
inductive HR
  /-- It retires and goes on behind itself. -/
  | next (s : Dev)
  /-- It retires and goes on at an address. -/
  | jump (s : Dev) (t : DWord)
  /-- It traps. -/
  | trap (s : Dev) (cause tval : Nat)
  /-- It is illegal. -/
  | illegal
  /-- It waits: its command comes again. -/
  | again (s : Dev)
  /-- EBREAK. -/
  | ebreak
  /-- A trigger of action 1 has fired. -/
  | trigger

/-- Register x`i`. -/
def HostCore.rx (h : HostCore) (i : Nat) : DWord := if i % 32 = 0 then 0 else vget h.x (Fin.ofNat 32 i)

/-- Write of register x`i`. -/
def Dev.setX (s : Dev) (c : Fin 4) (i : Nat) (v : DWord) : Dev :=
  if i % 32 = 0 then s else s.modHc c fun h => { h with x := vset h.x (Fin.ofNat 32 i) v }

/-- Register f`i`. -/
def HostCore.rf (h : HostCore) (i : Nat) : Nat := (vget h.f (Fin.ofNat 32 i)).toNat

/-- FS becomes Dirty. -/
def HostCore.fsDirty (h : HostCore) : HostCore := h.setC 0x300 (h.c 0x300 ||| 0x6000)

/-- Write of register f`i`. -/
def Dev.setFr (s : Dev) (c : Fin 4) (i v : Nat) : Dev :=
  s.modHc c fun h => { h.fsDirty with f := vset h.f (Fin.ofNat 32 i) (BitVec.ofNat 64 v) }

/-- Accrue exception flags. -/
def Dev.accrue (s : Dev) (c : Fin 4) (fl : Nat) : Dev :=
  if fl = 0 then s else s.modHc c fun h => (h.setC 3 (h.c 3 ||| fl)).fsDirty

/-- A register or an illegal instruction. -/
def Dev.wrX (s : Dev) (c : Fin 4) (rd : Nat) : Option DWord → HR
  | some v => .next (s.setX c rd v)
  | none => .illegal

/-- What triggers do to an access at `va`: a breakpoint exception, Debug Mode, or nothing. -/
def Dev.watch (s : Dev) (c : Fin 4) (k : HAcc) (va : Nat) (go : HR) : HR :=
  match (s.hc c).trigHit k va with
  | some 1 => .trigger
  | some _ => .trap s 3 va
  | none => go

/-- Width of a load or store by its f3, bytes. -/
def f3Bytes (f3 : Nat) : Nat := 2 ^ (f3 % 4)

/-- A load. -/
def hLoad (B : Bus) (c : Fin 4) (w : Nat) (s : Dev) : HR :=
  let h := s.hc c
  let f3 := bits w 14 12
  let va := (h.rx (bits w 19 15) + dw (toS 12 (bits w 31 20))).toNat
  let n := f3Bytes f3
  if f3 = 7 then .illegal
  else s.watch c .r va <|
    match s.hload B c va n with
    | (.fault e, s) => .trap s e va
    | (.val v, s) => .next (s.setX c (bits w 11 7) (if f3 < 4 then dw (toS (8 * n) v) else BitVec.ofNat 64 v))

/-- A store. -/
def hStore (B : Bus) (c : Fin 4) (w : Nat) (s : Dev) : HR :=
  let h := s.hc c
  let f3 := bits w 14 12
  let va := (h.rx (bits w 19 15) + dw (toS 12 (bits w 31 25 * 32 + bits w 11 7))).toNat
  let n := f3Bytes f3
  if 4 ≤ f3 then .illegal
  else s.watch c .w va <|
    match s.hstore B c va n ((h.rx (bits w 24 20)).toNat % 2 ^ (8 * n)) with
    | (.fault e, s) => .trap s e va
    | (.again, s) => .again s
    | (.ok, s) => .next s

/-- A floating-point load or store. -/
def hFpMem (B : Bus) (c : Fin 4) (w : Nat) (st : Bool) (s : Dev) : HR :=
  let h := s.hc c
  let f3 := bits w 14 12
  let off := if st then bits w 31 25 * 32 + bits w 11 7 else bits w 31 20
  let va := (h.rx (bits w 19 15) + dw (toS 12 off)).toNat
  let n := f3Bytes f3
  if bits (h.c 0x300) 14 13 = 0 ∨ ¬(f3 = 2 ∨ f3 = 3) then .illegal
  else if st then
    s.watch c .w va <|
      match s.hstore B c va n (h.rf (bits w 24 20) % 2 ^ (8 * n)) with
      | (.fault e, s) => .trap s e va
      | (.again, s) => .again s
      | (.ok, s) => .next s
  else
    s.watch c .r va <|
      match s.hload B c va n with
      | (.fault e, s) => .trap s e va
      | (.val v, s) => .next (s.setFr c (bits w 11 7) (if f3 = 2 then box f32 v else v))

/-- LR, SC and AMO. -/
def hAmo (B : Bus) (c : Fin 4) (w : Nat) (s : Dev) : HR :=
  let h := s.hc c
  let f3 := bits w 14 12
  let f5 := bits w 31 27
  let n := f3Bytes f3
  let va := (h.rx (bits w 19 15)).toNat
  let v := (h.rx (bits w 24 20)).toNat % 2 ^ (8 * n)
  let rd := bits w 11 7
  let put := fun (r : Ld × Dev) => match r with
    | (.fault e, s) => HR.trap s e va
    | (.val x, s) => .next (s.setX c rd (dw (toS (8 * n) x)))
  if ¬(f3 = 2 ∨ f3 = 3) then .illegal
  else if f5 = 2 then
    if bits w 24 20 ≠ 0 then .illegal else s.watch c .r va (put (s.hlr B c va n))
  else if f5 = 3 then s.watch c .w va (put (s.hsc B c va n v))
  else
    match amoVal f5 (8 * n) 0 0 with
    | none => .illegal
    | some _ => s.watch c .w va (put (s.hamo B c va n fun old => (amoVal f5 (8 * n) old v).getD old))

/-- FENCE, FENCE.I and CBO instructions. A FENCE waits (R325); FENCE.I makes later fetches see the
stores, which the model does not keep apart (log entry 19). -/
def hFence (B : Bus) (c : Fin 4) (w : Nat) (s : Dev) : HR :=
  let h := s.hc c
  match bits w 14 12 with
  | 0 => if s.hostFenced c then .next s else .again s
  | 1 => .next (s.modHc c fun h => { h with iperr := [] })
  | 2 =>
    let o := match bits w 31 20 with
      | 0 => some Cbo.inval
      | 1 => some .clean
      | 2 => some .flush
      | _ => none
    match o with
    | none => .illegal
    | some o =>
      if bits w 11 7 ≠ 0 then .illegal
      else match h.cboAs o with
      | none => .illegal
      | some o =>
        let va := (h.rx (bits w 19 15)).toNat
        match s.cbo B c o va with
        | (some e, s) => .trap s e va
        | (none, s) => .next s
  | _ => .illegal

/-- A CSR instruction. -/
def hCsr (c : Fin 4) (w : Nat) (dbg : Bool) (s : Dev) : HR :=
  let h := s.hc c
  let n := bits w 31 20
  let f3 := bits w 14 12
  let src := bits w 19 15
  let rd := bits w 11 7
  let wr := f3 % 4 = 1 ∨ src ≠ 0
  if !h.csrAllowed dbg n (decide wr) then .illegal
  else
    let s := if n = 0x344 ∨ n = 0x144 then s.plicSample else s
    let old := s.csrGet c n
    let base := if n = 0x344 then setBits old 9 9 (bit ((s.hc c).c 0x344) 9) else old
    let v := if 4 ≤ f3 then src else (h.rx src).toNat
    let new := match f3 % 4 with
      | 1 => v
      | 2 => base ||| v
      | _ => andNot base v
    let s := if wr then s.modHc c fun h => h.csrSet dbg n new else s
    .next (s.setX c rd (BitVec.ofNat 64 old))

/-- A WFI below machine mode with TW, or in user mode, is illegal unless it ends in a bounded time:
which of the two is free. -/
def hWfi (c : Fin 4) (s : Dev) : HR :=
  let h := s.hc c
  let (b, s) := s.drawB
  if h.priv ≠ .m ∧ (h.ms 21 = true ∨ h.priv = .u) ∧ b = true then .trap s 2 0x10500073
  else .next (s.modHc c fun h => { h with wfi := true })

/-- The system group. -/
def hSystem (c : Fin 4) (w : Nat) (dbg : Bool) (s : Dev) : HR :=
  let h := s.hc c
  if bits w 14 12 = 4 then .illegal
  else if bits w 14 12 ≠ 0 then hCsr c w dbg s
  else if w = 0x73 then .trap s (8 + h.priv.num) 0
  else if w = 0x100073 then .ebreak
  else if w = 0x10200073 then
    if h.priv = .u ∨ (h.priv = .s ∧ h.ms 22 = true) then .illegal
    else
      let s := s.modHc c HostCore.sret
      .jump s (s.hc c).pc
  else if w = 0x30200073 then
    if h.priv ≠ .m then .illegal
    else
      let s := s.modHc c HostCore.mret
      .jump s (s.hc c).pc
  else if w = 0x10500073 then hWfi c s
  else if bits w 31 25 = 9 ∧ bits w 11 7 = 0 then
    if h.priv = .u ∨ (h.priv = .s ∧ h.ms 20 = true) then .illegal else .next s
  else .illegal

/-- A floating-point result. -/
def Dev.fput (s : Dev) (c : Fin 4) (f : FFmt) (rd : Nat) (r : FR) : HR :=
  .next ((s.accrue c r.fl).setFr c rd (box f r.w))

/-- A floating-point operation with an integer result. -/
def Dev.fputX (s : Dev) (c : Fin 4) (rd : Nat) (r : FR) : HR :=
  .next ((s.accrue c r.fl).setX c rd (BitVec.ofNat 64 r.w))

/-- Rounding direction of a word: its rm field, or frm. -/
def HostCore.rmOf (h : HostCore) (w : Nat) : Option Rm :=
  Machine.rmOf (if bits w 14 12 = 7 then bits (h.c 3) 7 5 else bits w 14 12)

/-- FMADD, FMSUB, FNMSUB and FNMADD: `k` 0 to 3. -/
def hFma (c : Fin 4) (w k : Nat) (s : Dev) : HR :=
  let h := s.hc c
  match ffmt (bits w 26 25), h.rmOf w with
  | some f, some r =>
    if bits (h.c 0x300) 14 13 = 0 then .illegal
    else
      let a := unbox f (h.rf (bits w 19 15))
      let b := unbox f (h.rf (bits w 24 20))
      let d := unbox f (h.rf (bits w 31 27))
      let a := if 2 ≤ k ∧ f.isNan a = false then f.negate a else a
      let d := if (k = 1 ∨ k = 3) ∧ f.isNan d = false then f.negate d else d
      s.fput c f (bits w 11 7) (f.fma r a b d)
  | _, _ => .illegal

/-- OP-FP. -/
def hFp (c : Fin 4) (w : Nat) (s : Dev) : HR :=
  let h := s.hc c
  let rd := bits w 11 7
  let rs2 := bits w 24 20
  let f3 := bits w 14 12
  match ffmt (bits w 26 25) with
  | none => .illegal
  | some f =>
    let a := unbox f (h.rf (bits w 19 15))
    let b := unbox f (h.rf rs2)
    let g := if f.p = 24 then f64 else f32
    let withRm := fun (k : Rm → HR) => match h.rmOf w with
      | some r => k r
      | none => HR.illegal
    if bits (h.c 0x300) 14 13 = 0 then .illegal
    else
      match bits w 31 27 with
      | 0x00 => withRm fun r => s.fput c f rd (f.add r a b)
      | 0x01 => withRm fun r => s.fput c f rd (f.sub r a b)
      | 0x02 => withRm fun r => s.fput c f rd (f.mul r a b)
      | 0x03 => withRm fun r => s.fput c f rd (f.div r a b)
      | 0x0B => if rs2 ≠ 0 then .illegal else withRm fun r => s.fput c f rd (f.sqrt r a)
      | 0x04 => if 2 < f3 then .illegal else s.fput c f rd ⟨fsgnj f f3 a b, 0⟩
      | 0x05 => if 1 < f3 then .illegal else s.fput c f rd (fminmax f (f3 == 1) a b)
      | 0x08 =>
        if rs2 ≠ (if f.p = 24 then 1 else 0) then .illegal
        else withRm fun r => s.fput c f rd (f.conv r g (unbox g (h.rf (bits w 19 15))))
      | 0x14 => if 2 < f3 then .illegal else s.fputX c rd (fcmp f f3 a b)
      | 0x18 =>
        if 3 < rs2 then .illegal
        else withRm fun r => s.fputX c rd (fToInt f r (if rs2 < 2 then 32 else 64) (rs2 % 2 == 0) a)
      | 0x1A =>
        if 3 < rs2 then .illegal
        else withRm fun r =>
          let n := if rs2 < 2 then 32 else 64
          let x := (h.rx (bits w 19 15)).toNat
          s.fput c f rd (f.ofInt r (if rs2 % 2 = 0 then toS n x else ((x % 2 ^ n : Nat) : Int)))
      | 0x1C =>
        if rs2 ≠ 0 then .illegal
        else if f3 = 1 then s.fputX c rd ⟨fclass f a, 0⟩
        else if f3 = 0 then
          let v := h.rf (bits w 19 15)
          s.fputX c rd ⟨if f.p = 24 then ofS 64 (toS 32 v) else v, 0⟩
        else .illegal
      | 0x1E =>
        if rs2 ≠ 0 ∨ f3 ≠ 0 then .illegal
        else
          let v := (h.rx (bits w 19 15)).toNat
          s.fput c f rd ⟨if f.p = 24 then v % 2 ^ 32 else v, 0⟩
      | _ => .illegal

/-- A 32-bit word of `len` bytes at pc; `dbg` in Debug Mode, where jumps have no place. -/
def hExec (B : Bus) (c : Fin 4) (dbg : Bool) (w len : Nat) (s : Dev) : HR :=
  let h := s.hc c
  let rd := bits w 11 7
  let a := h.rx (bits w 19 15)
  let b := h.rx (bits w 24 20)
  let link := h.pc + BitVec.ofNat 64 len
  match w % 128 with
  | 0x37 => .next (s.setX c rd (dw (toS 32 (w / 4096 * 4096))))
  | 0x17 => .next (s.setX c rd (h.pc + dw (toS 32 (w / 4096 * 4096))))
  | 0x6F =>
    let off := bit w 31 * 2 ^ 20 + bits w 30 21 * 2 + bit w 20 * 2 ^ 11 + bits w 19 12 * 2 ^ 12
    .jump (s.setX c rd link) (h.pc + dw (toS 21 off))
  | 0x67 =>
    if bits w 14 12 ≠ 0 then .illegal
    else .jump (s.setX c rd link) ((a + dw (toS 12 (bits w 31 20))) &&& ~~~1#64)
  | 0x63 =>
    let off := bit w 31 * 2 ^ 12 + bits w 30 25 * 32 + bits w 11 8 * 2 + bit w 7 * 2 ^ 11
    match branchCond (bits w 14 12) a b with
    | none => .illegal
    | some true => .jump s (h.pc + dw (toS 13 off))
    | some false => .next s
  | 0x03 => hLoad B c w s
  | 0x23 => hStore B c w s
  | 0x13 => s.wrX c rd (aluI64 (bits w 14 12) (bits w 31 20) a)
  | 0x1B => s.wrX c rd (aluI32 (bits w 14 12) (bits w 31 20) a)
  | 0x33 => s.wrX c rd (alu64 (bits w 31 25) (bits w 14 12) a b)
  | 0x3B => s.wrX c rd (alu32 (bits w 31 25) (bits w 14 12) (bits w 24 20) a b)
  | 0x0F => hFence B c w s
  | 0x73 => hSystem c w dbg s
  | 0x2F => hAmo B c w s
  | 0x07 => hFpMem B c w false s
  | 0x27 => hFpMem B c w true s
  | 0x43 => hFma c w 0 s
  | 0x47 => hFma c w 1 s
  | 0x4B => hFma c w 2 s
  | 0x4F => hFma c w 3 s
  | 0x53 => hFp c w s
  | _ => .illegal

/-- The word to execute and its length: a compressed word expanded; `none` where it is illegal. -/
def hWord (w : Nat) : Option Nat × Nat :=
  if w % 4 = 3 then (if w / 4 % 8 = 7 then none else some w, 4) else (expand (w % 65536), 2)

/-! ### The frame -/

/-- A trap of the instruction at pc, or of an interrupt. -/
def Dev.hTrap (s : Dev) (c : Fin 4) (int : Bool) (cause tval : Nat) : Dev :=
  s.modHc c fun h => h.trap int cause tval

/-- After an instruction or a trap: a step that was asked for ends in Debug Mode. -/
def Dev.hStepEnd (s : Dev) (c : Fin 4) : Dev :=
  if (s.hc c).step then s.modHc c fun h => h.enterDebug 4 else s

/-- The instruction retires: MINSTRET counts it (mcountinhibit). -/
def Dev.retire (s : Dev) (c : Fin 4) (pc : DWord) : Dev :=
  s.modHc c fun h =>
    let h := if bit (h.c 0x320) 2 = 0 then h.setC 0xB02 (h.c 0xB02 + 1) else h
    { h with pc := pc }

/-- EBREAK enters Debug Mode where dcsr says so. -/
def HostCore.ebreakDebug (h : HostCore) : Bool :=
  bit (h.c 0x7B0) (match h.priv with | .m => 15 | .s => 13 | .u => 12) == 1

/-- What follows from an instruction's answer; `w` is its word as mtval shows it. -/
def Dev.hFinish (s : Dev) (c : Fin 4) (w len : Nat) : HR → Dev
  | .next t => (t.retire c ((s.hc c).pc + BitVec.ofNat 64 len)).hStepEnd c
  | .jump t p => (t.retire c p).hStepEnd c
  | .trap t e v => (t.hTrap c false e v).hStepEnd c
  | .illegal => (s.hTrap c false 2 w).hStepEnd c
  | .again t => t
  | .ebreak =>
    if (s.hc c).ebreakDebug then s.modHc c fun h => h.enterDebug 1
    else (s.hTrap c false 3 (s.hc c).pc.toNat).hStepEnd c
  | .trigger => s.modHc c fun h => h.enterDebug 2

/-- MCYCLE advances by a free number of cycles (log entry 37). -/
def Dev.hCycles (s : Dev) (c : Fin 4) : Dev :=
  let (x, s) := s.draw
  s.modHc c fun h => if bit (h.c 0x320) 0 = 0 then h.setC 0xB00 (h.c 0xB00 + x % 2 ^ 32) else h

/-- The fetch of two bytes at `va`: `none` when it succeeds, else the cause (R323). Which cacheable lines
the L1 instruction cache holds is free (log entry 19); a parity error of one is counted (R508). What a
fetch of poison does is free. -/
def Dev.hFetch (s : Dev) (B : Bus) (c : Fin 4) (va : Nat) : Option Nat × Dev :=
  match s.xlate B c (s.hc c).priv .x va 2 with
  | (.fault e, s) => (some e, s)
  | (.pa a, s) =>
    let (hit, s) := s.drawB
    if 2 ^ 40 ≤ a then (some 1, s.berr c.val (a % 2 ^ 40) 2 .fetch .unmapped)
    else if hit && s.hostCacheable a && !(a / 64 ∈ (s.hc c).iperr) then (none, s)
    else match s.refusal c.val a 2 .fetch with
    | some e =>
      if s.hostLined a && (s.line (a / 64)).isSome then (none, s) else (some 1, s.berr c.val a 2 .fetch e)
    | none =>
      let b := a / 64
      let s := if b ∈ (s.hc c).iperr then
          let (x, s) := s.draw
          let (y, s) := s.draw
          let s := (s.elog R.CELOG_ADDR R.CELOG_INFO R.CELOG_CNT R.CELOG_TIME 0 5 0 (64 * b + 8 * (x % 8)) c.val
            (y % 72) (s.rg R.MTIME) false).orR R.FLT_STAT (2 ^ 10)
          s.modHc c fun h => { h with iperr := h.iperr.filter (· != b) }
        else s
      let s := (s.meet c.val (64 * b) 64).flashServe (64 * b) 64
      let (x, s) := s.drawB
      (if s.poisoned (64 * b) 64 && x then some 1 else none, s)

/-- The fetch of an instruction of `len` bytes at pc: the cause and the address that failed. -/
def Dev.hFetchAll (s : Dev) (B : Bus) (c : Fin 4) (len : Nat) : Option (Nat × Nat) × Dev :=
  let pc := (s.hc c).pc
  match s.hFetch B c pc.toNat with
  | (some e, s) => (some (e, pc.toNat), s)
  | (none, s) =>
    if len = 4 ∧ pc.toNat % 64 = 62 then
      match s.hFetch B c (pc + 2).toNat with
      | (some e, s) => (some (e, (pc + 2).toNat), s)
      | (none, s) => (none, s)
    else (none, s)

/-- Interrupts are held off while a step runs without stepie. -/
def HostCore.intHeld (h : HostCore) : Bool := h.step && bit (h.c 0x7B0) 11 == 0

/-- HOST_INSTRUCTION: core c executes the instruction word `w` at its pc (R316), or first takes an
interrupt that is due. -/
def hostInstr (B : Bus) (c : Fin 4) (w : Nat) (s : Dev) : Dev :=
  if (s.hc c).run != .running then s
  else
    let s := (s.plicSample.hCycles c).modHc c fun h => { h with wfi := false }
    match if (s.hc c).intHeld then none else s.hostInt c with
    | some i => (s.hTrap c true i 0).hStepEnd c
    | none =>
      let (x, len) := hWord w
      let w := if len = 2 then w % 65536 else w
      match (s.hc c).trigHit .x (s.hc c).pc.toNat with
      | some 1 => s.modHc c fun h => h.enterDebug 2
      | some _ => (s.hTrap c false 3 (s.hc c).pc.toNat).hStepEnd c
      | none =>
        match s.hFetchAll B c len with
        | (some (e, v), s) => (s.hTrap c false e v).hStepEnd c
        | (none, s) =>
          match x with
          | none => s.hFinish c w len .illegal
          | some x => s.hFinish c w len (hExec B c false x len s)

end Sys2Proof.Machine
end

