-- ==== Sys2Proof/Machine/HostDebug.lean ====
section
/-!
DEFINITION. The debug module of the host cores (R334), by RISC-V External Debug Support 0.13.2, its
view at 0x23000000, and the bus with it.
-/

namespace Sys2Proof.Machine

/-- Held value of a register of the module. -/
def Dev.dm (s : Dev) (a : Nat) : Nat := SMap.get 0 s.host.dm a

/-- Set it. -/
def Dev.setDm (s : Dev) (a v : Nat) : Dev :=
  s.modHost fun h => { h with dm := SMap.set 0 h.dm a (v % 2 ^ 32) }

/-- hartsel. -/
def Dev.hartsel (s : Dev) : Fin 4 := Fin.ofNat 4 (bits (s.dm 0x10) 25 16)

/-- dmactive. -/
def Dev.dmActive (s : Dev) : Bool := bit (s.dm 0x10) 0 == 1

/-- sbcs fields: sbaccess resets to 2. -/
def Dev.sbcs (s : Dev) : Nat := s.dm 0x38 ^^^ 0x40000

/-- dmstatus. -/
def Dev.dmStatus (s : Dev) : Nat :=
  let c := s.hartsel
  let r := (s.hc c).run
  let two := fun (b : Bool) => 3 * b2n b
  2 ^ 22 + two (s.dmFlag 0x80 c) * 2 ^ 18 + two (s.dmFlag 0x81 c) * 2 ^ 16 + two (r == .reset) * 2 ^ 12
    + two (r == .running) * 2 ^ 10 + two (r == .halted) * 2 ^ 8 + 2 ^ 7 + 2 ^ 5 + 2

/-- Harts that are halted, a bit each. -/
def Dev.haltsum (s : Dev) : Nat :=
  (List.finRange 4).foldl (fun n c => n + b2n ((s.hc c).run == .halted) * 2 ^ c.val) 0

/-! ### Abstract commands -/

/-- cmderr. -/
def Dev.cmderr (s : Dev) (e : Nat) : Dev := s.setDm 0x16 (setBits (s.dm 0x16) 10 8 e)

/-- Everything core c has outstanding is performed and acknowledged: what a FENCE in the program buffer
waits for. -/
def Dev.hDrain (s : Dev) (c : Fin 4) : Dev :=
  let s := (s.host.wb.filter fun w => w.core == c.val).foldl (fun s w => s.performWb w) s
  { s with bus := { s.bus with outw := SMap.set 0 s.bus.outw c.val 0 } }

/-- Halfword `i` of the program buffer, with the implicit EBREAK behind it. -/
def Dev.progHalf (s : Dev) (i : Nat) : Nat :=
  if i < 16 then s.dm (0x20 + i / 2) / 2 ^ (16 * (i % 2)) % 65536 else if i = 16 then 0x73 else 0x10

/-- Run the program buffer from halfword `i` (fuel: every instruction moves on): whether it ended by an
exception. Jumps have no place in it. -/
def runProg (B : Bus) (c : Fin 4) : Nat → Nat → Dev → Bool × Dev
  | 0, _, s => (false, s)
  | n + 1, i, s =>
    let (x, len) := hWord (s.progHalf i + s.progHalf (i + 1) * 65536)
    match x with
    | none => (true, s)
    | some w =>
      match hExec B c true w len (s.hDrain c) with
      | .next s => runProg B c n (i + len / 2) s
      | .ebreak => (false, s)
      | .trap s _ _ => (true, s)
      | .jump s _ => (true, s)
      | .again s => (true, s)
      | .illegal => (true, s)
      | .trigger => (true, s)

/-- A register by its abstract number: its value, or the error of reading it. -/
def Dev.absGet (s : Dev) (c : Fin 4) (n : Nat) : Option Nat :=
  let h := s.hc c
  if n < 0x1000 then (if h.csrAllowed true n false then some (s.csrGet c n) else none)
  else if n < 0x1020 then some (h.rx (n - 0x1000)).toNat
  else if n < 0x1040 then (if bits (h.c 0x300) 14 13 = 0 then none else some (h.rf (n - 0x1020)))
  else none

/-- Write of a register by its abstract number. -/
def Dev.absPut (s : Dev) (c : Fin 4) (n v : Nat) : Option Dev :=
  let h := s.hc c
  if n < 0x1000 then
    (if h.csrAllowed true n true then some (s.modHc c fun h => h.csrSet true n v) else none)
  else if n < 0x1020 then some (s.setX c (n - 0x1000) (BitVec.ofNat 64 v))
  else if n < 0x1040 then
    (if bits (h.c 0x300) 14 13 = 0 then none else some (s.setFr c (n - 0x1020) v))
  else none

/-- Transfer between a register and data0 and data1. A 32-bit write of a 64-bit register leaves free
upper bits. -/
def Dev.absMove (s : Dev) (c : Fin 4) (cmd : Nat) : Option Dev :=
  let n := cmd % 65536
  let wide := bits cmd 22 20 == 3
  if bit cmd 16 = 0 then
    (s.absGet c n).map fun v =>
      let s := s.setDm 4 v
      if wide then s.setDm 5 (v / 2 ^ 32) else s
  else
    let (x, s) := s.draw
    s.absPut c n (s.dm 4 + (if wide then s.dm 5 else x % 2 ^ 32) * 2 ^ 32)

/-- Run the command that `command` holds: Access Register. -/
def Dev.absCommand (s : Dev) (B : Bus) : Dev :=
  let cmd := s.dm 0x17
  let c := s.hartsel
  let sz := bits cmd 22 20
  if bits (s.dm 0x16) 10 8 ≠ 0 then s
  else if bits cmd 31 24 ≠ 0 ∨ (bit cmd 17 = 1 ∧ (sz ≠ 2 ∧ sz ≠ 3 ∨ 0x1040 ≤ cmd % 65536)) then s.cmderr 2
  else if (s.hc c).run ≠ .halted then s.cmderr 4
  else
    let moved := if bit cmd 17 = 1 then s.absMove c cmd else some s
    match moved with
    | none => s.cmderr 3
    | some s =>
      let s := if bit cmd 19 = 1 then s.setDm 0x17 (setBits cmd 15 0 (cmd % 65536 + 1)) else s
      if bit cmd 18 = 1 then
        let (bad, s) := runProg B c 17 0 s
        if bad then s.cmderr 3 else s
      else s

/-- Accesses to data and program buffer registers run the command again where abstractauto says so. -/
def Dev.autoExec (s : Dev) (B : Bus) (a : Nat) : Dev :=
  let au := s.dm 0x18
  if (a = 4 ∨ a = 5) ∧ bit au (a - 4) = 1 then s.absCommand B
  else if 0x20 ≤ a ∧ a < 0x28 ∧ bit au (16 + (a - 0x20)) = 1 then s.absCommand B
  else s

/-! ### System bus access -/

/-- The address of system bus accesses: 40 bits. -/
def Dev.sbAddr (s : Dev) : Nat := s.dm 0x39 + s.dm 0x3A * 2 ^ 32

/-- Set sberror. -/
def Dev.sberror (s : Dev) (e : Nat) : Dev := s.setDm 0x38 (setBits (s.dm 0x38) 14 12 e)

/-- sbautoincrement after an access that succeeded. -/
def Dev.sbInc (s : Dev) (n : Nat) : Dev :=
  if bit s.sbcs 16 = 1 then
    let a := s.sbAddr + n
    (s.setDm 0x39 (a % 2 ^ 32)).setDm 0x3A (a / 2 ^ 32 % 256)
  else s

/-- A system bus access with initiator ID 0x3F; `w` is the value of a write. -/
def Dev.sbAccess (s : Dev) (B : Bus) (w : Option Nat) : Dev :=
  let sz := bits s.sbcs 19 17
  let n := 2 ^ sz
  let a := s.sbAddr
  if bits s.sbcs 14 12 ≠ 0 then s
  else if 3 < sz then s.sberror 4
  else if a % n ≠ 0 then s.sberror 3
  else
    match w with
    | none =>
      let (r, s) := B.rd 0x3F a n s
      if r.err then s.sberror 2
      else ((s.setDm 0x3C (r.val % 2 ^ 32)).setDm 0x3D (r.val / 2 ^ 32)).sbInc n
    | some v =>
      let (r, s) := B.wr 0x3F a n (v % 2 ^ (8 * n)) s
      if r.err then s.sberror 2 else s.sbInc n

/-! ### Registers -/

/-- A write of dmcontrol. ndmreset resets the four harts. -/
def Dev.dmControl (s : Dev) (v : Nat) : Dev :=
  if bit v 0 = 0 then
    s.modHost fun h => { h with dm := h.dm.filter fun p => p.1 == 0x80 }
  else
    let old := s.dm 0x10
    let s := s.setDm 0x10 (1 + bit v 1 * 2 + bits v 17 16 * 2 ^ 16 + bit v 29 * 2 ^ 29)
    let c := s.hartsel
    let s := if bit v 28 = 1 then s.setDmFlag 0x80 c false else s
    let s := if bit v 3 = 1 then s.setDmFlag 0x82 c true
      else if bit v 2 = 1 then s.setDmFlag 0x82 c false else s
    let s := s.setDmFlag 0x83 c (bit v 31 == 1)
    let harts := fun (ndm hart : Nat) =>
      if ndm = 1 then List.finRange 4 else if hart = 1 then [c] else []
    let s := (harts (bit v 1) (bit v 29)).foldl (fun s c => s.hostReset c) s
    let s := if bit v 1 = 1 ∨ bit v 29 = 1 then s
      else (harts (bit old 1) (bit old 29)).foldl (fun s c => s.hostStart c) s
    if bit v 31 = 1 then
      if (s.hc c).run = .running then s.modHc c fun h => h.enterDebug 3 else s
    else if bit v 30 = 1 then
      let s := s.setDmFlag 0x81 c false
      if (s.hc c).run = .halted then (s.modHc c HostCore.leaveDebug).setDmFlag 0x81 c true else s
    else s

/-- A read of the register at DMI address `a`. -/
def dmRead (B : Bus) (a : Nat) (s : Dev) : Nat × Dev :=
  match a with
  | 0x10 => (s.dm 0x10, s)
  | 0x11 => (s.dmStatus, s)
  | 0x12 => (2 * 2 ^ 20, s)
  | 0x13 => (b2n (s.haltsum != 0), s)
  | 0x16 => (8 * 2 ^ 24 + bits (s.dm 0x16) 10 8 * 2 ^ 8 + 2, s)
  | 0x17 => (0, s)
  | 0x18 => (s.dm 0x18, s)
  | 0x38 => (bits s.sbcs 20 12 * 2 ^ 12 + 2 ^ 29 + 40 * 2 ^ 5 + 15, s)
  | 0x39 => (s.dm 0x39, s)
  | 0x3A => (s.dm 0x3A, s)
  | 0x3C =>
    let v := s.dm 0x3C
    (v, if bit s.sbcs 15 = 1 then s.sbAccess B none else s)
  | 0x3D => (s.dm 0x3D, s)
  | 0x40 => (s.haltsum, s)
  | _ =>
    if a = 4 ∨ a = 5 ∨ (0x20 ≤ a ∧ a < 0x28) then (s.dm a, s.autoExec B a) else (0, s)

/-- A write of it: while the module is not active only dmcontrol takes one. -/
def dmWrite (B : Bus) (a v : Nat) (s : Dev) : Dev :=
  let v := v % 2 ^ 32
  if a = 0x10 then s.dmControl v
  else if !s.dmActive then s
  else
    match a with
    | 0x16 => s.setDm 0x16 (andNot (s.dm 0x16) (v &&& 0x700))
    | 0x17 => (s.setDm 0x17 v).absCommand B
    | 0x18 => s.setDm 0x18 (v &&& 0x00FF0003)
    | 0x38 =>
      let old := s.sbcs
      s.setDm 0x38 (((v &&& 0x1F8000) + andNot (bits old 14 12 * 2 ^ 12) (v &&& 0x7000)) ^^^ 0x40000)
    | 0x39 =>
      let s := s.setDm 0x39 v
      if bit s.sbcs 20 = 1 then s.sbAccess B none else s
    | 0x3A => s.setDm 0x3A (v % 256)
    | 0x3C => (s.setDm 0x3C v).sbAccess B (some (v + s.dm 0x3D * 2 ^ 32))
    | 0x3D => s.setDm 0x3D v
    | _ =>
      if a = 4 ∨ a = 5 ∨ (0x20 ≤ a ∧ a < 0x28) then (s.setDm a v).autoExec B a else s

/-! ### The bus with the module's window -/

/-- The DMI address an address of the window shows, if any. -/
def dmiOf (a : Nat) : Option Nat :=
  if 0x23000000 ≤ a ∧ a < 0x23000200 then some ((a - 0x23000000) / 4) else none

/-- A bus whose debug module makes its own accesses on the bus below. -/
def dmBus (B : Bus) : Bus where
  rd ini a n s :=
    match dmiOf a with
    | none => s.read0 ini a n
    | some k =>
      match s.refusal ini a n .rd with
      | some c => s.busRefuse ini a n .rd c
      | none =>
        let (v, s) := dmRead B k s
        s.busResp ini ⟨v, false, false⟩
  wr ini a n v s :=
    match dmiOf a with
    | none => s.write0 ini a n v
    | some k =>
      match s.refusal ini a n .wr with
      | some c => s.busRefuse ini a n .wr c
      | none => (dmWrite B k v s).busResp ini ⟨0, false, false⟩

/-- The bus: accesses that the module makes to its own window reach it twice deep (log entry 38). -/
def bus : Bus := dmBus (dmBus bus0)

/-- A read on the bus. -/
def busRead (ini a n : Nat) (s : Dev) : Resp × Dev := bus.rd ini a n s

/-- A write on the bus. -/
def busWrite (ini a n v : Nat) (s : Dev) : Resp × Dev := bus.wr ini a n v s

/-- DMI_ACCESS: operation 1 reads, 2 writes (R334). It fails while DBGLOCK is 1 (R525), and while the
host island does not answer. What it returned is kept under ID 0x40. -/
def dmiAccess (op a data : Nat) (s : Dev) : Dev :=
  if s.dbgLock || !s.islUp 6 then (s.busResp 0x40 ⟨0, true, false⟩).2
  else if op = 1 then
    let (v, s) := dmRead bus (a % 128) s
    (s.busResp 0x40 ⟨v, false, false⟩).2
  else if op = 2 then ((dmWrite bus (a % 128) data s).busResp 0x40 ⟨0, false, false⟩).2
  else s

end Sys2Proof.Machine
end

