-- ==== Sys2Proof/Machine/Scalar.lean ====
section
/-!
DEFINITION. The scalar instructions of curators and wardens: arithmetic, branches, loops, control
registers and the system group (R111 to R113, R116 to R124).
-/

namespace Sys2Proof.Machine

/-! ### Arithmetic -/

/-- A register ALU instruction. -/
def aluInsn (c : Fin 8) (f : RF) (legal : Bool) (op : Word → Word → Word) (s : Dev) : Dev :=
  s.insn c { legal := legal }
    (CoreSt.to (fun x => x.setReg f.sd (op (x.reg f.sa) (x.reg f.sb))) c)

/-- An immediate ALU instruction. -/
def immInsn (c : Fin 8) (f : IF) (op : Word → Word) (s : Dev) : Dev :=
  s.insn c {} (CoreSt.to (fun x => x.setReg f.sd (op (x.reg f.sa))) c)

/-- A condition as 1 or 0. -/
def flag (b : Bool) : Word := if b then 1 else 0

/-- Signed quotient toward zero, all ones for a divisor of 0 (R112). -/
def divS (a b : Word) : Word := if b = 0 then BitVec.allOnes 32 else a.sdiv b

/-- Unsigned quotient (R112). -/
def divU (a b : Word) : Word := if b = 0 then BitVec.allOnes 32 else a / b

/-- Signed remainder with the sign of the dividend (R112). -/
def remS (a b : Word) : Word := if b = 0 then a else a.srem b

/-- Unsigned remainder (R112). -/
def remU (a b : Word) : Word := if b = 0 then a else a % b

/-- High word of the signed product. -/
def mulHigh (a b : Word) : Word := BitVec.ofInt 32 (a.toInt * b.toInt / 2 ^ 32)

/-- High word of the unsigned product. -/
def mulHighU (a b : Word) : Word := BitVec.ofNat 32 (a.toNat * b.toNat / 2 ^ 32)

/-- Leading zero bits. -/
def clzW (a : Word) : Word := BitVec.ofNat 32 (if a = 0 then 32 else 31 - a.toNat.log2)

/-- Number of 1 bits. -/
def popcW (a : Word) : Word := BitVec.ofNat 32 (popcount 32 a.toNat)

/-- Shift amount in a register. -/
def sh5 (b : Word) : Nat := b.toNat % 32

def execAdd (c : Fin 8) (f : RF) := onCore c (aluInsn c f true fun a b => a + b)
def execSub (c : Fin 8) (f : RF) := onCore c (aluInsn c f true fun a b => a - b)
def execAnd (c : Fin 8) (f : RF) := onCore c (aluInsn c f true fun a b => a &&& b)
def execOr (c : Fin 8) (f : RF) := onCore c (aluInsn c f true fun a b => a ||| b)
def execXor (c : Fin 8) (f : RF) := onCore c (aluInsn c f true fun a b => a ^^^ b)
def execSll (c : Fin 8) (f : RF) := onCore c (aluInsn c f true fun a b => a <<< sh5 b)
def execSrl (c : Fin 8) (f : RF) := onCore c (aluInsn c f true fun a b => a >>> sh5 b)
def execSra (c : Fin 8) (f : RF) := onCore c (aluInsn c f true fun a b => a.sshiftRight (sh5 b))
def execSlt (c : Fin 8) (f : RF) := onCore c (aluInsn c f true fun a b => flag (a.slt b))
def execSltu (c : Fin 8) (f : RF) := onCore c (aluInsn c f true fun a b => flag (a.ult b))
def execSlli (c : Fin 8) (f : RF) := onCore c (aluInsn c f true fun a _ => a <<< f.sb.val)
def execSrli (c : Fin 8) (f : RF) := onCore c (aluInsn c f true fun a _ => a >>> f.sb.val)
def execSrai (c : Fin 8) (f : RF) := onCore c (aluInsn c f true fun a _ => a.sshiftRight f.sb.val)
def execMul (c : Fin 8) (f : RF) := onCore c (aluInsn c f true fun a b => a * b)
def execMulh (c : Fin 8) (f : RF) := onCore c (aluInsn c f true mulHigh)
def execMulhu (c : Fin 8) (f : RF) := onCore c (aluInsn c f true mulHighU)
def execDiv (c : Fin 8) (f : RF) := onCore c (aluInsn c f true divS)
def execDivu (c : Fin 8) (f : RF) := onCore c (aluInsn c f true divU)
def execRem (c : Fin 8) (f : RF) := onCore c (aluInsn c f true remS)
def execRemu (c : Fin 8) (f : RF) := onCore c (aluInsn c f true remU)
def execMin (c : Fin 8) (f : RF) := onCore c (aluInsn c f true fun a b => if a.slt b then a else b)
def execMax (c : Fin 8) (f : RF) := onCore c (aluInsn c f true fun a b => if a.slt b then b else a)
def execMinu (c : Fin 8) (f : RF) := onCore c (aluInsn c f true fun a b => if a.ult b then a else b)
def execMaxu (c : Fin 8) (f : RF) := onCore c (aluInsn c f true fun a b => if a.ult b then b else a)
def execClz (c : Fin 8) (f : RF) := onCore c (aluInsn c f (f.sb == 0) fun a _ => clzW a)
def execPopc (c : Fin 8) (f : RF) := onCore c (aluInsn c f (f.sb == 0) fun a _ => popcW a)
def execAddi (c : Fin 8) (f : IF) := onCore c (immInsn c f fun a => a + sext16 f.imm)
def execAndi (c : Fin 8) (f : IF) := onCore c (immInsn c f fun a => a &&& zext16 f.imm)
def execOri (c : Fin 8) (f : IF) := onCore c (immInsn c f fun a => a ||| zext16 f.imm)
def execXori (c : Fin 8) (f : IF) := onCore c (immInsn c f fun a => a ^^^ zext16 f.imm)
def execSlti (c : Fin 8) (f : IF) := onCore c (immInsn c f fun a => flag (a.slt (sext16 f.imm)))
def execSltiu (c : Fin 8) (f : IF) := onCore c (immInsn c f fun a => flag (a.ult (sext16 f.imm)))

/-- LUI: the SA field is zero (R108); `z` is that field. -/
def execLui (c : Fin 8) (z : Fin 32) (f : IF) := onCore c fun s =>
  s.insn c { legal := z == 0 }
    (CoreSt.to (fun x => x.setReg f.sd (zext16 f.imm <<< 16)) c)

/-! ### Branches and jumps (R116 to R118) -/

/-- A conditional branch. -/
def brInsn (c : Fin 8) (f : SF) (cond : Word → Word → Bool) (s : Dev) : Dev :=
  s.insn c { noSlot := true, noEnd := true, branch := true } fun s x =>
    .commit s (CoreSt.branchTo (if cond (x.reg f.sa) (x.reg f.sb) then x.brTarget f.off else x.pc + 8))

def execBeq (c : Fin 8) (f : SF) := onCore c (brInsn c f fun a b => a == b)
def execBne (c : Fin 8) (f : SF) := onCore c (brInsn c f fun a b => a != b)
def execBlt (c : Fin 8) (f : SF) := onCore c (brInsn c f fun a b => a.slt b)
def execBge (c : Fin 8) (f : SF) := onCore c (brInsn c f fun a b => !a.slt b)
def execBltu (c : Fin 8) (f : SF) := onCore c (brInsn c f fun a b => a.ult b)
def execBgeu (c : Fin 8) (f : SF) := onCore c (brInsn c f fun a b => !a.ult b)

/-- A jump with an optional link register. -/
def jumpInsn (c : Fin 8) (link : Fin 32) (off : BitVec 26) (s : Dev) : Dev :=
  s.insn c { noSlot := true, noEnd := true, branch := true } fun s x =>
    .commit (s.modCore c fun y => y.setReg link (x.pc + 8)) (CoreSt.branchTo (x.jTarget off))

def execJ (c : Fin 8) (off : BitVec 26) := onCore c (jumpInsn c 0 off)
def execJal (c : Fin 8) (off : BitVec 26) := onCore c (jumpInsn c 31 off)

/-- Target of JALR. -/
def CoreSt.jalrTarget (x : CoreSt) (f : IF) : Word := x.reg f.sa + sext16 f.imm

/-- JALR: the target is read before sd is written; a misaligned target raises FETCH_MIS (R117,
R118). -/
def execJalr (c : Fin 8) (f : IF) := onCore c fun s =>
  s.insn c { legal := f.sd != f.sa || f.sd == 0, noSlot := true, noEnd := true, branch := true }
    (fun s x => .commit (s.modCore c fun y => y.setReg f.sd (x.pc + 8))
      (CoreSt.branchTo (x.jalrTarget f)))
    (fun x => if (x.jalrTarget f).toNat % 4 = 0 then none else some (x.jalrTarget f).toNat)

/-! ### Hardware loops (R119) -/

/-- Set up loop level `l` with count `n` and END `e`; a count of 0 skips the body. -/
def loopInsn (c : Fin 8) (l : Fin 2) (e : Nat) (legal : Bool) (count : CoreSt → Nat) (s : Dev) : Dev :=
  s.insn c { legal := legal && e != 0, noSlot := true, noEnd := true } fun s x =>
    let n := count x
    let last := x.pc + BitVec.ofNat 32 (4 * e)
    .commit (s.modCore c fun y => { y with
        ls := vset y.ls l (x.pc + 4).toNat, le := vset y.le l last.toNat, lc := vset y.lc l n })
      fun y => { y with pc := if n = 0 then last + 4 else x.pc + 4 }

def execLoopi (c : Fin 8) (l : Fin 2) (cnt : Fin 8192) (e : Fin 4096) :=
  onCore c (loopInsn c l e.val true fun _ => cnt.val)

/-- LOOPR; `z` is the word's bits 19:12, which are zero. -/
def execLoopr (c : Fin 8) (l : Fin 2) (sa : Fin 32) (z : Fin 256) (e : Fin 4096) :=
  onCore c (loopInsn c l e.val (z.val == 0) fun x => x.nat sa)

/-! ### Control registers -/

def execCsrrw (c : Fin 8) (f : CF) := onCore c fun s => s.csrInsn c .rw f
def execCsrrs (c : Fin 8) (f : CF) := onCore c fun s => s.csrInsn c .rs f
def execCsrrc (c : Fin 8) (f : CF) := onCore c fun s => s.csrInsn c .rc f

/-! ### System group (R122 to R124, R151) -/

/-- SD and SA are 0 (R122). -/
def sysFields (f : RF) : Bool := f.sd == 0 && f.sa == 0

def execEcall (c : Fin 8) (f : RF) := onCore c fun s =>
  s.insn c { legal := sysFields f && f.sb == 0, noSlot := true } fun _ x => .exc .syscall x.pc.toNat

/-- EBREAK halts while BRKEN is 1 (R149, R166). -/
def execEbreak (c : Fin 8) (f : RF) := onCore c fun s =>
  s.insn c { legal := sysFields f && f.sb == 0, noSlot := true } fun s x =>
    if s.bt R.DBG_CTL 28 c.val then .halt else .exc .break x.pc.toNat

/-- The return of R151: with CAUSE.SH the instruction at EPC is a MODESW shadow (R157). -/
def CoreSt.eret (x : CoreSt) : CoreSt :=
  let st := x.status
  let x := { x with
    pc := BitVec.ofNat 32 x.epc
    status := bit st 2 + 2 * bit st 3 + 4 * bit st 2 + 8 * bit st 3 }
  if bit x.cause 29 = 1 then
    { x with
      charted := bit x.cause 28 == 1
      shadow := some (bit x.cause 28 == 1, bit x.cause 27 == 1)
      cause := setBits x.cause 29 29 0 }
  else x

/-- A warden has no gallery mode: its ERET only clears CAUSE.SH (R104, R151). -/
def CoreSt.eretOf (c : Fin 8) (x : CoreSt) : CoreSt :=
  let y := x.eret
  if c.val < 6 then y else { y with charted := false, shadow := none }

def execEret (c : Fin 8) (f : RF) := onCore c fun s =>
  s.insn c { legal := sysFields f && f.sb == 0, noSlot := true, noEnd := true, priv := true } fun s _ =>
    .commit s (CoreSt.eretOf c)

/-- WFI stalls until an interrupt is pending and enabled in IEN; forcing inside an epoch (R122,
R211). -/
def execWfi (c : Fin 8) (f : RF) := onCore c fun s =>
  (s.insn c { legal := sysFields f && f.sb == 0, priv := true } fun s _ =>
    if s.inEpoch c then .bound 5
    else .wait (s.modCore c fun x => { x with stall := .wfi })).settle c

/-- FENCE: the mask is SB bits 1:0, and 0 acts as 3 (R123). -/
def execFence (c : Fin 8) (f : RF) := onCore c fun s =>
  (s.insn c { legal := sysFields f && decide (f.sb.val < 4) } fun s _ =>
    .wait (s.modCore c fun x => { x with
      stall := .fence (if f.sb.val = 0 then 3 else f.sb.val) })).settle c

/-- IFENCE (R165). -/
def execIfence (c : Fin 8) (f : RF) := onCore c fun s =>
  (s.insn c { legal := sysFields f && f.sb == 0 } fun s _ =>
    .wait (s.modCore c fun x => { x with stall := .ifence })).settle c

/-- MODESW (R124). -/
def execModesw (c : Fin 8) (f : RF) := onCore c fun s =>
  (s.insn c { legal := sysFields f && decide (f.sb.val < 2), gx := true, noSlot := true, noEnd := true,
              priv := true } fun s x =>
    if s.coreEp c then .exc .epochState x.pc.toNat
    else .wait (s.modCore c fun x => { x with stall := .modesw (f.sb.val == 1) })).settle c

/-! ### Events of a core -/

def execInterruptTaken (c : Fin 8) := onCore c (interruptTaken c)
def execStoreBus (c : Fin 8) := onCore c (storeBus c)
def execDebugHalt (c : Fin 8) := onCore c (debugHalt c)

end Sys2Proof.Machine
end

