-- ==== Sys2Proof/Machine/CoreMem.lean ====
section
/-!
DEFINITION. Loads and stores of curators and wardens and their store buffers (R107, R114, R115, R139,
R153, R158 to R164), and the requests that the bus completes late (R30, R43).
-/

namespace Sys2Proof.Machine

/-! ### Buffered stores (R158 to R161) -/

/-- Bytes of a buffered store. -/
def SbEntry.bytes (e : SbEntry) : List Byte := leBytes e.size e.data

/-- The entry shares a byte with `n` bytes at device address `a`. -/
def SbEntry.overlaps (e : SbEntry) (a n : Nat) : Bool := overlap e.dev e.size a n

/-- The entry holds every byte of `n` at `a`. -/
def SbEntry.covers (e : SbEntry) (a n : Nat) : Bool := decide (e.dev ≤ a) && decide (a + n ≤ e.dev + e.size)

/-- An address of a memory window (R33). -/
def memAddr (a : Nat) : Bool := ((regionOf a).map Region.isMem).getD false

/-- The youngest entry that shares a byte with a load (R159); the list is oldest first. -/
def youngest (sb : List SbEntry) (a n : Nat) : Option SbEntry :=
  (sb.filter fun e => e.overlaps a n).getLast?

/-- Byte `i` of a load after the held entries that cover it (R160). -/
def heldByte (sb : List SbEntry) (a : Nat) (b : Byte) : Byte :=
  match youngest (sb.filter (·.held)) a 1 with
  | some e => e.bytes.getD (a - e.dev) 0
  | none => b

/-- A loaded value with the bytes of held entries merged in (R160). -/
def heldMerge (sb : List SbEntry) (a n v : Nat) : Nat :=
  leNat ((List.range n).map fun i => heldByte sb (a + i) ((leBytes n v).getD i 0))

/-- The register value of `n` loaded bytes (R114). -/
def loadValue (n : Nat) (signed : Bool) (v : Nat) : Word :=
  if signed then BitVec.ofInt 32 (toS (8 * n) v) else BitVec.ofNat 32 v

/-- A load must wait: for overlapping entries that are not held (R160), or, outside the memory
windows, for every entry that is not held (R161). -/
def CoreSt.loadHeld (x : CoreSt) (a n : Nat) : Bool :=
  x.sb.any fun e => !e.held && (!memAddr a || e.overlaps a n)

/-- A held entry targets a register, cell or ring window (R161). -/
def CoreSt.heldWindow (x : CoreSt) : Bool := x.sb.any fun e => e.held && !memAddr e.dev

/-- An earlier VX.ST to an overlapping address has not been written (R164). -/
def Dev.vxStPending (s : Dev) (c : Fin 8) (a n : Nat) : Bool :=
  match CoreId.gal c with
  | none => false
  | some g =>
    let v := s.vec g
    !(s.cur g).charted &&
      (v.exec.toList ++ v.waiting).any fun i => i.sub == .st && overlap i.x i.bytes a n

/-! ### Issue -/

/-- Task mode may not reach the control windows (R107). -/
def CoreSt.accessBad (x : CoreSt) (a : Nat) : Bool :=
  x.task && decide (0x10000000 ≤ a) && decide (a < 0x40000000)

/-- What a load or store checks of its address before it acts (R107, R114, R166). -/
def Dev.addrCheck (s : Dev) (c : Fin 8) (x : CoreSt) (ea n : Nat) (st : Bool) : Option Ins :=
  if x.accessBad (x.toDev ea) then some (.exc .access ea)
  else if ea % n != 0 then some (.exc (if st then .storeMis else .loadMis) ea)
  else if s.dataBkpt c ea n st && !x.resumed then some .bkpt
  else none

/-- A load at its issue. -/
def loadIssue (c : Fin 8) (f : IF) (n : Nat) (signed : Bool) (s : Dev) (x : CoreSt) : Ins :=
  let ea := x.ea f.sa f.imm
  let a := x.toDev ea
  match s.addrCheck c x ea n false with
  | some i => i
  | none =>
    if s.vxStPending c a n then .again
    else
      let load := fun w => LoadSt.mk f.sd ea a n signed w
      let issue := Ins.wait (s.modCore c fun x => { x with load := some (load false) })
      let wait := Ins.wait (s.modCore c fun x => { x with load := some (load true) })
      if memAddr a then
        match youngest x.sb a n with
        | none => issue
        | some e =>
          if e.covers a n then
            let v := leNat ((e.bytes.drop (a - e.dev)).take n)
            .commit (s.modCore c fun x => x.setReg f.sd (loadValue n signed v)) CoreSt.advance
          else if x.loadHeld a n then
            .wait ((s.modCore c fun x => { x with load := some (load true) }).count R.SBSTALL 1 c.val)
          else issue
      else if x.loadHeld a n then wait
      else if x.heldWindow then .exc .epochState x.pc.toNat
      else issue

/-- A store at its issue: it commits into the buffer. -/
def storeIssue (c : Fin 8) (f : SF) (n : Nat) (s : Dev) (x : CoreSt) : Ins :=
  let ea := x.ea f.sa f.off
  match s.addrCheck c x ea n true with
  | some i => i
  | none =>
    let held := s.inEpoch c
    if held && decide (8 ≤ (x.sb.filter (·.held)).length) then .bound 2
    else if 8 ≤ x.sb.length then .again
    else
      let e : SbEntry := ⟨ea, x.toDev ea, n, (x.reg f.sb).toNat % 2 ^ (8 * n), held⟩
      .commit (s.modCore c fun x => { x with sb := x.sb ++ [e] }) CoreSt.advance

/-- A load instruction. -/
def loadInsn (c : Fin 8) (f : IF) (n : Nat) (signed : Bool) (s : Dev) : Dev :=
  s.insn c {} (loadIssue c f n signed)

/-- A store instruction. -/
def storeInsn (c : Fin 8) (f : SF) (n : Nat) (s : Dev) : Dev := s.insn c {} (storeIssue c f n)

def execLb (c : Fin 8) (f : IF) := onCore c (loadInsn c f 1 true)
def execLh (c : Fin 8) (f : IF) := onCore c (loadInsn c f 2 true)
def execLw (c : Fin 8) (f : IF) := onCore c (loadInsn c f 4 false)
def execLbu (c : Fin 8) (f : IF) := onCore c (loadInsn c f 1 false)
def execLhu (c : Fin 8) (f : IF) := onCore c (loadInsn c f 2 false)
def execSb (c : Fin 8) (f : SF) := onCore c (storeInsn c f 1)
def execSh (c : Fin 8) (f : SF) := onCore c (storeInsn c f 2)
def execSw (c : Fin 8) (f : SF) := onCore c (storeInsn c f 4)

/-! ### Completion -/

/-- Note a store error: a second before the first is taken is only counted (R153). -/
def Dev.storeError (s : Dev) (c : Fin 8) (a : Nat) : Dev :=
  if (vget s.core c).sbErr.isSome then s.count R.SBERR_LOST 1 c.val
  else s.modCore c fun x => { x with sbErr := some a }

/-- Writes an initiator has performed whose acknowledgement is out. -/
def Dev.outAdd (s : Dev) (ini : Nat) : Dev :=
  { s with bus := { s.bus with outw := SMap.set 0 s.bus.outw ini (SMap.get 0 s.bus.outw ini + 1) } }

/-- STORE_BUFFER_DRAIN: the oldest entry that is not held leaves and is performed (R158). -/
def storeBufferDrain (c : Fin 8) (s : Dev) : Dev :=
  match (vget s.core c).sb.find? fun e => !e.held with
  | none => s
  | some e =>
    let s := s.modCore c fun x => { x with sb := x.sb.erase e }
    let (r, s) := busWrite (coreIni c) e.dev e.size e.data s
    ((s.when r.err fun s => s.storeError c e.addr).outAdd (coreIni c)).settle c

/-- A load ends: its value is written and it commits, or it raises (R114, R139, R160). -/
def Dev.loadEnd (s : Dev) (c : Fin 8) (l : LoadSt) (r : Resp) : Dev :=
  if r.err then s.raise c .loadBus l.addr
  else if r.poison then
    (match CoreId.gal c with | some g => s.consume g | none => s).raise c .poison l.addr
  else
    (s.modCore c fun x =>
      let v := if memAddr l.dev then heldMerge x.sb l.dev l.size r.val else r.val
      x.setReg l.sd (loadValue l.size l.signed v)).commit c CoreSt.advance

/-- LOAD_COMPLETE. A read of a flash window waits while its port is busy (R504). -/
def loadComplete (c : Fin 8) (s : Dev) : Dev :=
  match (vget s.core c).load with
  | none => s
  | some l =>
    if l.waiting || s.flashBusy l.dev then s
    else
      let (r, s) := busRead (coreIni c) l.dev l.size s
      s.loadEnd c l r

/-- OVERLAP_LOAD_ISSUE: what the load waited for has left (R160, R161). -/
def overlapLoadIssue (c : Fin 8) (s : Dev) : Dev :=
  let x := vget s.core c
  match x.load with
  | none => s
  | some l =>
    if !l.waiting || x.loadHeld l.dev l.size then s
    else if !memAddr l.dev && x.heldWindow then s.raise c .epochState x.pc.toNat
    else s.modCore c fun x => { x with load := some { l with waiting := false } }

/-- Core of an initiator ID. -/
def iniCore (ini : Nat) : Option (Fin 8) := (List.finRange 8).find? fun c => coreIni c == ini

/-- Host core of an initiator ID. -/
def iniHost (ini : Nat) : Option (Fin 4) := if h : ini < 4 then some ⟨ini, h⟩ else none

/-- WRITE_ACKNOWLEDGE (R30): a write's acknowledgement returns. The oldest write-back of the host's
cache operations (initiator 4) is performed and acknowledged at once. -/
def writeAcknowledge (ini : Nat) (s : Dev) : Dev :=
  if ini = 4 then match s.host.wb with | w :: _ => s.performWb w | [] => s
  else
    let s := { s with bus := { s.bus with outw := SMap.set 0 s.bus.outw ini (SMap.get 0 s.bus.outw ini - 1) } }
    match iniCore ini with | some c => s.settle c | none => s

/-- A core's own request that has received no response: its issued load, or the oldest buffered store
that is not held. -/
def Dev.coreTimedOut (s : Dev) (c : Fin 8) (a n : Nat) (wr : Bool) : Bool :=
  let x := vget s.core c
  if wr then
    match x.sb.find? fun e => !e.held with
    | some e => e.dev == a && e.size == n
    | none => false
  else
    match x.load with
    | some l => !l.waiting && l.dev == a && l.size == n
    | none => false

/-- What the bus error of a timeout does at its initiator. -/
def Dev.timeoutAt (s : Dev) (ini a : Nat) (wr : Bool) : Dev :=
  match iniCore ini, iniHost ini with
  | some c, _ =>
    if wr then
      match (vget s.core c).sb.find? fun e => !e.held with
      | some e => ((s.modCore c fun x => { x with sb := x.sb.erase e }).storeError c e.addr).settle c
      | none => s
    else
      match (vget s.core c).load with
      | some l => s.loadEnd c l ⟨0, true, false⟩
      | none => s
  | none, some c =>
    let h := s.hc c
    if !wr && h.run == .running then
      let va := if h.priv == .m || bits (h.c 0x180) 63 60 == 0 then a else Config.free s.free
      { s.hTrap c false 5 va with free := s.free + 1 }
    else s
  | none, none => (s.busResp ini ⟨0, true, false⟩).2

/-- ACCESS_TIMEOUT (R43, R518): a request that no other cause refuses completes with a bus error. A
write may have been performed, and so may the effects of a read: a free choice. -/
def accessTimeout (ini a n : Nat) (wr : Bool) (v : Nat) (s : Dev) : Dev :=
  let due := match iniCore ini with | some c => s.coreTimedOut c a n wr | none => true
  if (s.refusal ini a n (if wr then .wr else .rd)).isSome || !due then s
  else
    let (done, s) := s.drawB
    let s := if done then (if wr then (busWrite ini a n v s).2 else (busRead ini a n s).2) else s
    let s := (s.berr ini a n (if wr then .wr else .rd) .timeout).hang a
    s.timeoutAt ini a wr

def execStoreBufferDrain (c : Fin 8) := onCore c (storeBufferDrain c)
def execLoadComplete (c : Fin 8) := onCore c (loadComplete c)
def execOverlapLoadIssue (c : Fin 8) := onCore c (overlapLoadIssue c)
def execWriteAcknowledge (ini : Nat) := ok (writeAcknowledge ini)
def execAccessTimeout (ini addr size : Nat) (wr : Bool) (v : Nat) := ok (accessTimeout ini addr size wr v)

end Sys2Proof.Machine
end

