-- ==== Sys2Proof/Machine/CmdBus.lean ====
section
/-!
DEFINITION. The commands that are accesses of registers and windows: each is a read or a write on the
bus by the initiator it names, at the address of its register. A command that names a bit which is
written 1 (or 0) writes its value with that bit so.
-/

namespace Sys2Proof.Machine

/-- Write register `r` as a whole on the bus. -/
def regCmd (r : RegDef) (ini v : Nat) (k : Nat := 0) (i : Nat := 0) (s : Dev) : Dev :=
  (busWrite ini (r.addr k i 0) (r.w / 8) v s).2

/-- Read register `r` as a whole on the bus. -/
def regGet (r : RegDef) (ini : Nat) (k : Nat := 0) (i : Nat := 0) (s : Dev) : Dev :=
  (busRead ini (r.addr k i 0) (r.w / 8) s).2

/-- A value with one bit set. -/
def with1 (v b : Nat) : Nat := setBits v b b 1

/-- A value with one bit clear. -/
def with0 (v b : Nat) : Nat := setBits v b b 0

/-! ### Accesses (R8, R38 to R40) -/

def execRegisterWrite (ini addr size v : Nat) := ok fun s => (busWrite ini addr size v s).2
def execReadAndReset (ini addr size : Nat) := ok fun s => (busRead ini addr size s).2
def execSnapshotRead (ini addr size : Nat) := ok fun s => (busRead ini addr size s).2
def execLowHalfRead (ini addr : Nat) := ok fun s => (busRead ini addr 4 s).2
def execLowHalfWrite (ini addr v : Nat) := ok fun s => (busWrite ini addr 4 v s).2
def execHighHalfWrite (ini addr v : Nat) := ok fun s => (busWrite ini addr 4 v s).2

/-! ### Clocks, power and ledger (R47, R49, R51, R52, R64, R65, R70) -/

def execIccCtlWrite (ini : Nat) (i : Fin 13) (v : Nat) := ok (regCmd R.ICC_CTL ini v 0 i.val)
def execCdieOnSet (ini v : Nat) := ok (regCmd R.PWR_CTL ini (with1 v 31))
def execCdieOnClear (ini v : Nat) := ok (regCmd R.PWR_CTL ini (with0 v 31))
def execIslandPowerWrite (ini : Nat) (d : Fin 2) (v : Nat) := ok (regCmd R.PWR_CTL ini v d.val)
def execGalleryGateWrite (ini v : Nat) := ok (regCmd R.PWR_CISL ini v)
def execStackGateWrite (ini v : Nat) := ok (regCmd R.PWR_CISL ini v)
def execLedgerRecalc (ini v : Nat) := ok (regCmd R.LDG_CTL ini (with1 v 30))
def execBatQWrite (ini v : Nat) := ok (regCmd R.BAT_Q ini v)
def execGcapWrite (ini : Nat) (g : Fin 6) (v : Nat) := ok (regCmd R.GCAP ini v 0 g.val)

/-! ### Reset, boot, fuses and calibration (R78, R92, R94, R95, R97, R101) -/

def execSystemReset (ini : Nat) (d : Fin 2) (v : Nat) :=
  ok (regCmd R.RST_CTL ini (with1 (setBits v 31 24 0xA5) 0) d.val)
def execHostReleaseWrite (ini v : Nat) := ok (regCmd R.CRST_REL ini v)
def execGalleryReleaseWrite (ini v : Nat) := ok (regCmd R.CRST_REL ini v)
def execW1Go (ini v : Nat) := ok (regCmd R.W1_GO ini (with1 v 0) 1)
def execOtpProgram (ini : Nat) (d : Fin 2) (v : Nat) :=
  ok (regCmd R.OTP_CMD ini (with1 (setBits v 31 24 0x3C) 0) d.val)
def execCalCommit (ini : Nat) (d : Fin 2) (v : Nat) :=
  ok (regCmd R.CAL_CMD ini (with1 (setBits v 31 24 0x5C) 0) d.val)

/-! ### Debug blocks of the cores (R155, R166 to R168) -/

def execDebugHaltreq (ini : Nat) (c : Fin 8) (v : Nat) := ok (regCmd R.DBG_CTL ini (with1 v 31) c.val)
def execDebugResume (ini : Nat) (c : Fin 8) (v : Nat) := ok (regCmd R.DBG_CTL ini (with1 v 30) c.val)

/-- An access to a register of a core's debug block: a write of `w`, or a read. -/
def debugRegAccess (ini : Nat) (c : Fin 8) (off : Nat) (w : Option Nat) (s : Dev) : Dev :=
  let a := R.DBG_CTL.addr c.val 0 0 + off % 0x180
  match w with
  | some v => (busWrite ini a 4 v s).2
  | none => (busRead ini a 4 s).2

def execDebugRegAccess (ini : Nat) (c : Fin 8) (off : Nat) (w : Option Nat) := ok (debugRegAccess ini c off w)
def execDoorbell (ini : Nat) (c : Fin 8) (v : Nat) := ok (regCmd R.DOORBELL ini (with1 v 0) c.val)

/-! ### Galleries (R197, R246, R253, R255, R257, R281, R282, R284) -/

/-- Register of word `w` of a legend entry that software writes. -/
def legReg (w : Fin 3) : RegDef := if w = 0 then R.LEG_SCALE else if w = 1 then R.LEG_INSC else R.LEG_CTL

def execLegendWrite (ini : Nat) (g : Fin 6) (entry : Fin 1024) (word : Fin 3) (v : Nat) :=
  ok (regCmd (legReg word) ini v g.val entry.val)
def execSkipJobStart (ini : Nat) (g : Fin 6) (v : Nat) := ok (regCmd R.SKP_CTL ini (with1 v 31) g.val)
def execSkipJobAbort (ini : Nat) (g : Fin 6) (v : Nat) := ok (regCmd R.SKP_CTL ini (with1 v 30) g.val)
def execRoundTake (ini : Nat) (g : Fin 6) (v : Nat) := ok (regCmd R.SKP_TAKE ini (with1 v 0) g.val)
def execAuditControlWrite (ini : Nat) (g : Fin 6) (v : Nat) := ok (regCmd R.AUD_CTL ini v g.val)
def execAuditFlush (ini : Nat) (g : Fin 6) (v : Nat) := ok (regCmd R.AUD_CTL ini (with1 v 30) g.val)
def execCarouselStart (ini : Nat) (g : Fin 6) (v : Nat) := ok (regCmd R.CAR_CTL ini (with1 v 0) g.val)
def execCarouselPass (ini : Nat) (g : Fin 6) (v : Nat) := ok (regCmd R.CAR_CTL ini (with1 v 1) g.val)
def execCarouselStop (ini : Nat) (g : Fin 6) (v : Nat) := ok (regCmd R.CAR_CTL ini (with1 v 2) g.val)

/-! ### The hub's windows (R289, R301, R304, R305, R311, R314) -/

def execRingEnable (ini : Nat) (r : Fin 1024) (v : Nat) := ok (regCmd R.RING_CFG ini (with1 v 31) 0 r.val)
def execRingDisable (ini : Nat) (r : Fin 1024) (v : Nat) := ok (regCmd R.RING_CFG ini (with0 v 31) 0 r.val)

/-- Address of a cell's words in the sync-cell window (R301). -/
def cellAddr (cell : Fin 65536) : Nat := 0x28000000 + 16 * cell.val

def execCellWindowTest (ini : Nat) (cell : Fin 65536) := ok fun s => (busRead ini (cellAddr cell) 4 s).2
def execCellWindowSet (ini : Nat) (cell : Fin 65536) (v : Nat) :=
  ok fun s => (busWrite ini (cellAddr cell) 4 v s).2
def execCellWindowAdd (ini : Nat) (cell : Fin 65536) (v : Nat) :=
  ok fun s => (busWrite ini (cellAddr cell + 4) 4 v s).2

/-- A write of HUB_CMD that names a record of operation `op` (R304, R305). A record of another
operation is another command. -/
def recordCmd (op ini rec : Nat) (s : Dev) : Dev :=
  if rec % 32 = 0 ∧ inAtrium rec 32 = true ∧ s.rdN rec 1 ≠ op then s else regCmd R.HUB_CMD ini rec 0 0 s

def execCommandAdd (ini rec : Nat) := ok (recordCmd 1 ini rec)
def execCommandSet (ini rec : Nat) := ok (recordCmd 2 ini rec)
def execCommandTest (ini rec : Nat) := ok (recordCmd 3 ini rec)
def execCommandWaitge (ini rec : Nat) := ok (recordCmd 4 ini rec)
def execCommandWaiteq (ini rec : Nat) := ok (recordCmd 5 ini rec)
def execCommandPost (ini rec : Nat) := ok (recordCmd 0x10 ini rec)
def execCommandPop (ini rec : Nat) := ok (recordCmd 0x11 ini rec)
def execAdmissionRequest (ini v : Nat) := ok (regCmd R.ADM_REQ ini v)
def execWorkRelease (ini v : Nat) := ok (regCmd R.ADM_REL ini v)

/-! ### Host cluster (R322, R327, R328, R331 to R333) -/

def execL2Flush (ini v : Nat) := ok (regCmd R.L2_FLUSH ini (with1 v 0))
def execPlicClaim (ini : Nat) (ctx : Fin 8) := ok (regGet R.PLIC_CLAIM ini 0 ctx.val)
def execPlicComplete (ini : Nat) (ctx : Fin 8) (v : Nat) := ok (regCmd R.PLIC_CLAIM ini v 0 ctx.val)
def execMtimeWrite (ini v : Nat) := ok (regCmd R.MTIME ini v)
def execMsipWrite (ini : Nat) (c : Fin 4) (v : Nat) := ok (regCmd R.MSIP ini v 0 c.val)
def execSetssip (ini : Nat) (c : Fin 4) (v : Nat) := ok (regCmd R.SETSSIP ini (with1 v 0) 0 c.val)
def execHostDbell (ini v : Nat) := ok (regCmd R.HOST_DBELL ini v)

/-! ### Field link, metering and acoustic inputs (R337, R360, R381, R399, R406, R408, R411, R425, R429,
R431, R435) -/

def execRfSfofsWrite (ini : Nat) (d : Fin 2) (v : Nat) := ok (regCmd R.RF_SFOFS ini v d.val)
def execRadioEnable (ini : Nat) (d : Fin 2) (v : Nat) := ok (regCmd R.RF_CTL ini (with1 v 31) d.val)
def execDelivererEnable (ini : Nat) (d : Fin 2) (v : Nat) := ok (regCmd R.RCV_CTL ini (with1 v 31) d.val)
def execMeterEnable (ini : Nat) (d : Fin 2) (v : Nat) := ok (regCmd R.MTR_CTL ini (with1 v 31) d.val)
def execPickCommit (ini : Nat) (d : Fin 2) (p : Fin 2) (v : Nat) := ok (regCmd R.PICK_CMT ini v d.val p.val)
def execAccClear (ini : Nat) (d : Fin 2) (a : Fin 16) (v : Nat) :=
  ok (regCmd R.ACC_STAT ini (with1 v 0) d.val a.val)
def execPressWrite (ini : Nat) (d : Fin 2) (v : Nat) := ok (regCmd R.PRESS ini v d.val)
def execGroupEnable (ini : Nat) (d : Fin 2) (g : Fin 4) (v : Nat) :=
  ok (regCmd R.GRP_CFG ini (with1 v 31) d.val g.val)
def execGroupDisable (ini : Nat) (d : Fin 2) (g : Fin 4) (v : Nat) :=
  ok (regCmd R.GRP_CFG ini (with0 v 31) d.val g.val)
def execSdCfgWrite (ini : Nat) (d : Fin 2) (i : Fin 8) (v : Nat) := ok (regCmd R.SD_CFG ini v d.val i.val)
def execTdmCfgWrite (ini : Nat) (d : Fin 2) (p : Fin 2) (v : Nat) := ok (regCmd R.TDM_CFG ini v d.val p.val)

/-! ### Time and timetable (R439, R444, R445, R449, R455) -/

def execMeridianHalt (ini : Nat) (d : Fin 2) (v : Nat) := ok (regCmd R.MER_CTL ini (with1 v 31) d.val)
def execMeridianResume (ini : Nat) (d : Fin 2) (v : Nat) := ok (regCmd R.MER_CTL ini (with0 v 31) d.val)
def execMeridianSet (ini : Nat) (d : Fin 2) (sub : Bool) (v : Nat) :=
  ok (regCmd (if sub then R.MER_SUB else R.MER_SEC) ini v d.val)
def execTsFadjWrite (ini v : Nat) := ok (regCmd R.TS_FADJ ini v)
def execTsSlewWrite (ini v : Nat) := ok (regCmd R.TS_SLEW ini v)
def execTsStepWrite (ini v : Nat) := ok (regCmd R.TS_STEP ini v)
def execTsCtlWrite (ini v : Nat) := ok (regCmd R.TS_CTL ini v)
def execTtArm (ini : Nat) (d : Fin 2) (n : Fin 256) (v : Nat) :=
  ok (regCmd R.TT_CTL ini (with1 v 31) d.val n.val)
def execTtDisarm (ini : Nat) (d : Fin 2) (n : Fin 256) (v : Nat) :=
  ok (regCmd R.TT_CTL ini (with1 v 30) d.val n.val)

/-! ### Trunk, serial ports, pins, flash and watchdogs (R472, R473, R480, R492, R493, R496, R498, R500,
R503, R515) -/

def execTrkStnWrite (ini : Nat) (d : Fin 2) (v : Nat) := ok (regCmd R.TRK_STN ini v d.val)
def execReelect (ini : Nat) (d : Fin 2) (v : Nat) := ok (regCmd R.TRK_CMD ini (with1 v 31) d.val)
def execAsymmetryCalibrate (ini : Nat) (d : Fin 2) (v : Nat) := ok (regCmd R.TRK_CMD ini v d.val)
def execCspTransferStart (ini : Nat) (d : Fin 2) (p : Fin 4) (v : Nat) :=
  ok (regCmd R.CSP_XFER ini (with1 v 31) d.val p.val)
def execCspAbort (ini : Nat) (d : Fin 2) (p : Fin 4) (v : Nat) :=
  ok (regCmd R.CSP_XFER ini (with1 v 30) d.val p.val)
def execCspPush (ini : Nat) (d : Fin 2) (p : Fin 4) (v : Nat) := ok (regCmd R.CSP_TXD ini v d.val p.val)
def execCspPop (ini : Nat) (d : Fin 2) (p : Fin 4) := ok (regGet R.CSP_RXD ini d.val p.val)
def execGpioSet (ini : Nat) (d : Fin 2) (v : Nat) := ok (regCmd R.GPIO_SET ini v d.val)
def execGpioClr (ini : Nat) (d : Fin 2) (v : Nat) := ok (regCmd R.GPIO_CLR ini v d.val)
def execFlashConfigWrite (ini : Nat) (d : Fin 2) (q : Fin 2) (v : Nat) := ok (regCmd R.FL_CFG ini v d.val q.val)
def execFlashCommand (ini : Nat) (d : Fin 2) (q : Fin 2) (v : Nat) :=
  ok (regCmd R.FL_CMD ini (with1 v 31) d.val q.val)

/-- A read of a flash window; while a session runs at its port it waits, and its command comes again
(R504). -/
def flashWindowRead (ini addr size : Nat) (s : Dev) : Dev :=
  if s.flashBusy addr then s else (busRead ini addr size s).2

def execFlashWindowRead (ini addr size : Nat) := ok (flashWindowRead ini addr size)
def execWatchdogKick (ini : Nat) (w : Wdog) (v : Nat) := ok (regCmd (wdogR w).cnt ini v (wdogR w).k (wdogR w).i)
def execWatchdogEnable (ini : Nat) (w : Wdog) (v : Nat) :=
  ok (regCmd (wdogR w).ctl ini (with1 v 31) (wdogR w).k (wdogR w).i)

/-! ### Test access (R524, R525) -/

/-- SYSBUS_ACCESS: the access that Update-DR issues, with the status that Capture-DR then loads. -/
def sysbusAccess (op : Fin 4) (addr data : Nat) (s : Dev) : Dev :=
  if op = 0 then s
  else
    let note := fun (s : Dev) (v st : Nat) =>
      { s with test := { s.test with addr := addr % 2 ^ 40, data := v % 2 ^ 32, stat := st } }
    if s.dbgLock then note s data 3
    else if op = 1 then
      let (r, s) := busRead 0x3F (addr % 2 ^ 40) 4 s
      note s r.val (if r.err then 2 else 0)
    else if op = 2 then
      let (r, s) := busWrite 0x3F (addr % 2 ^ 40) 4 data s
      note s data (if r.err then 2 else 0)
    else s

def execSysbusAccess (op : Fin 4) (addr data : Nat) := ok (sysbusAccess op addr data)

end Sys2Proof.Machine
end

