-- ==== Sys2Proof/Machine/CmdEvent.lean ====
section
/-!
DEFINITION. The commands that are events of the device's own units or of its pins: each runs its unit's
operation, which checks that the event is due.
-/

namespace Sys2Proof.Machine

/-! ### Clocks and power (R47, R49, R51, R54 to R56, R59) -/

/-- CLOCK_SETTLED; the limits of an I/O-die island are fixed. -/
def islSettled (i : Island) (s : Dev) : Dev := match i with | .cd i => clockSettled i s | .io _ _ => s

/-- CLOCK_WINDOW_END of any island. -/
def islWindowEnd (i : Island) (n : Nat) (s : Dev) : Dev :=
  match i with | .cd i => clockWindowEnd i n s | .io d i => ioClockWindowEnd d i n s

/-- SUPPLY_DROOP; an I/O-die island has no adaptive clock. -/
def islDroop (i : Island) (s : Dev) : Dev := match i with | .cd i => supplyDroop i s | .io _ _ => s

/-- ISLAND_RELOCK. -/
def islRelock (i : Island) (s : Dev) : Dev := match i with | .cd i => islandRelock i s | .io _ _ => s

/-- An event of an island: those of a die that is not fitted do not exist. -/
def onIsl (i : Island) (f : Dev → Dev) : State → Host.Outcome State Fault Refusal :=
  match i with | .cd _ => ok f | .io d _ => onDie d f

def execClockSettled (i : Island) := onIsl i (islSettled i)
def execClockWindowEnd (i : Island) (cycles : Nat) := onIsl i (islWindowEnd i cycles)
def execSupplyDroop (i : Island) := onIsl i (islDroop i)
def execIslandRelock (i : Island) := onIsl i (islRelock i)
def execComputeDiePowerDown := ok computeDiePowerDown
def execRailVoutPoll (mode : Nat) (reading : Option Nat) := ok (railVoutPoll mode reading)
def execRailVsettleEnd := ok railVsettleEnd
def execRailStepTimeout := ok railStepTimeout
def execIslandPowered (d : Fin 2) (i : Fin 7) := onDie d (islandPowered d i)
def execBrownoutVddAo (d : Fin 2) := onDie d (brownoutVddAo d)
def execBrownoutVddaMtr (d : Fin 2) := onDie d (brownoutVddaMtr d)
def execBrownoutPadRail (d : Fin 2) (io33 : Bool) := onDie d (brownoutPadRail d io33)
def execPadRailRecovery (d : Fin 2) (io33 : Bool) := onDie d (padRailRecovery d io33)
def execBrownoutAtrHost (host : Bool) := ok (brownoutAtrHost host)
def execGalleryRailBrownout (p : Fin 3) := ok (galleryRailBrownout p)
def execPmbAlert (words : List (Option Nat)) := ok (pmbAlert words)
def execCeilingRiseConfirm (t : Fin 7) (reading : Option Nat) := ok (ceilingRiseConfirm t reading)
def execThermalMeasure (cd io : List Int) := ok (thermalMeasure cd io)

/-! ### Ledger (R62 to R66, R74, R76) -/

def execLedgerTick := ok ledgerTick
def execFullCharge := ok fullCharge
def execTableFix := ok tableFix
def execLedgerHourEnd := ok ledgerHourEnd
def execGraceExpiry := ok graceExpiry

/-! ### Reset and boot (R78 to R102) -/

def execPowerOnReset (d : Fin 2) (vbatOut : Bool) := onDie d (powerOnReset d vbatOut)
/-- RESET_N reaches I/O die 0, which takes every other fitted die with it (R82). -/
def execPinReset (d : Fin 2) := onDie d pinReset
/-- The TCXO stops for every die. -/
def execClockLoss (d : Fin 2) := onDie d clockLoss
def execResetRelease (d : Fin 2) (gpio : Nat) := onDie d (resetRelease d gpio)
/-- The package has one TAP controller, in I/O die 0. -/
def execTapReset (d : Fin 2) := onDie d tapReset
def execBootSequence (d : Fin 2) := onDie d (bootSequence d)
def execFlashBootTimeout (port : Fin 2) := ok (flashBootTimeout port)
def execOctalSwitchWaitEnd (same : Bool) := ok (octalSwitchWaitEnd same)
def execBootRetryReset := ok bootRetryReset
def execAtriumInitDone := ok atriumInitDone
def execStoreZeroingDone (g : Fin 6) := ok (storeZeroingDone g)
def execOtpProgramDone (d : Fin 2) (good : Bool) := onDie d (otpProgramDone d good)
def execCalCommitDone (d : Fin 2) (good : Bool) := onDie d (calCommitDone d good)

/-! ### Carousel, hub and admission (R281, R282, R292, R303, R306, R307, R312) -/

def execCarouselGroupStart := ok carGroupStart
def execCarouselTransferStart (g : Fin 6) := ok fun s => s.carTransferStart g
def execCarouselTransferDone (g : Fin 6) := ok fun s => s.carTransferDone g
def execCarouselStepEntry (g : Fin 6) := ok fun s => s.carStepEntry g
def execHubTick := ok hubTick
def execWaitTimeout (pop : Bool) (k : Nat) := ok (waitTimeout pop k)
def execRemoteOutcome (tag code stamp v : Nat) := ok (remoteOutcome tag code stamp v)
def execRemoteTimeout (tag : Nat) := ok (remoteTimeout tag)
def execRemoteWaitTimeout (tag : Nat) := ok (remoteWaitTimeout tag)
def execAdmissionEvaluate := ok fun s => admissionEvaluate s.ldgFinish

/-! ### Host cluster (R316, R320, R322, R325, R331, R334) -/

/-- A cache operation on the block of register rs1: the instruction word of CBO number `k`. -/
def cboCmd (k : Nat) (c : Fin 4) (rs1 : Fin 32) : Dev → Dev :=
  hostInstr bus c (k * 2 ^ 20 + rs1.val * 2 ^ 15 + 2 * 2 ^ 12 + 0x0F)

/-- MTIME_COMPARE: with MTIP up and enabled in mie, a WFI ends (R331). -/
def mtimeCompare (c : Fin 4) (s : Dev) : Dev :=
  if s.mtip c && bit ((s.hc c).c 0x304) 7 == 1 then s.modHc c fun h => { h with wfi := false } else s

def execHostInstruction (c : Fin 4) (w : BitVec 32) := ok (hostInstr bus c w.toNat)
def execCboInval (c : Fin 4) (rs1 : Fin 32) := ok (cboCmd 0 c rs1)
def execCboClean (c : Fin 4) (rs1 : Fin 32) := ok (cboCmd 1 c rs1)
def execCboFlush (c : Fin 4) (rs1 : Fin 32) := ok (cboCmd 2 c rs1)
/-- FENCE iorw, iorw. -/
def execHostFence (c : Fin 4) := ok (hostInstr bus c 0x0FF0000F)
def execL2FlushDone := ok l2FlushDone
def execMtimeCompare (c : Fin 4) := ok (mtimeCompare c)
def execDmiAccess (op addr data : Nat) := ok (dmiAccess op addr data)

/-! ### Field link and learned receiver (R337 to R390) -/

def execSuperframeBoundary (d : Fin 2) := onDie d (superframeBoundary d)
def execRssiSample (d : Fin 2) (x : List Nat) := onDie d (rssiSample d x)
def execQualifierDecision (d : Fin 2) := onDie d (qualifierDecision d)
def execFormatDecision (d : Fin 2) := onDie d (formatDecision d)
def execSymbolProgress (d : Fin 2) := onDie d (symbolProgress d)
def execCapturePublish (d : Fin 2) := onDie d (capturePublish d)
def execDetectorRearm (d : Fin 2) := onDie d (detectorRearm d)
def execRxclkCheck (d : Fin 2) (a : Fin 4) (ppm : Int) := onDie d (rxclkCheck d a ppm)
def execRampUpStart (d : Fin 2) (a : Fin 4) := onDie d (rampUpStart d a)
def execRampDownStart (d : Fin 2) (a : Fin 4) (under : Bool) := onDie d (rampDownStart d a under)
def execTransmitEnd (d : Fin 2) (a : Fin 4) := onDie d (transmitEnd d a)
def execDeadlineMarkDeliver (d : Fin 2) := onDie d (deadlineMarkDeliver d)

/-! ### Metering and acoustic inputs (R391 to R435) -/

def execShotUpStart (d p : Fin 2) (raw hits : List Int) := onDie d (shotUpStart d p raw hits)
def execShotMeasureEnd (d p : Fin 2) (raw hits : List Int) := onDie d (shotMeasureEnd d p raw hits)
def execPickWindowClose (d p : Fin 2) := onDie d (pickWindowClose d p)
def execShotResult (d p : Fin 2) := onDie d (shotResult d p)
def execRtdRoundStart (d : Fin 2) := onDie d (rtdRoundStart d)
def execRtdConversionDone (d : Fin 2) (code : Nat) := onDie d (rtdConversionDone d code)
def execAccTimeTick (d : Fin 2) := onDie d (accTimeTick d)
def execPulseStart (d : Fin 2) (o : Fin 4) := onDie d (pulseStart d o)
def execPulseEnd (d : Fin 2) (o : Fin 4) := onDie d (pulseEnd d o)
def execSpSample (d : Fin 2) (codes : List Int) := onDie d (spSample d codes)
def execAcSample (d : Fin 2) (rate : Fin 4) (sd : List Int) (tdm0 tdm1 : List Nat) :=
  onDie d (acSample d rate sd tdm0 tdm1)
def execFramePublish (d : Fin 2) (g : Fin 4) := onDie d (framePublish d g)

/-! ### Time and timetable (R436 to R455) -/

def execVbatRise (d : Fin 2) (low : Bool) := onDie d (vbatRise d low)
def execVbatBrownout (d : Fin 2) := onDie d (vbatBrownout d)
def execMeridianSecond (d : Fin 2) := onDie d (meridianSecond d)
def execCrystalMiss (d : Fin 2) := onDie d (crystalMiss d)
def execAlarmFire (d : Fin 2) (k : Fin 4) := onDie d (alarmFire d k)
def execPpsCapture (up : Bool) (off : Nat) := ok (ppsCapture up off)
def execPpsMissTimeout := ok ppsMissTimeout
def execSlewComplete := ok slewComplete
def execTimetableFire (d : Fin 2) := onDie d (timetableFire d)

/-! ### Survey trunk (R456 to R490) -/

def execLinkUp (d l : Fin 2) := onDie d (pumped (linkUp d l))
def execLinkDown (d l : Fin 2) (los modabs : Bool) := onDie d (pumped (linkDown d l los modabs))
def execHelloSend (d l : Fin 2) := onDie d (pumped (helloSend d l))
def execFrameReceive (d l : Fin 2) (frame : List Byte) := onDie d (pumped (frameReceive d l frame))
def execHelloReceive (d : Fin 2) := onDie d (pumped (helloReceive d))
def execTopoSend (d : Fin 2) := onDie d (pumped (topoSend d))
def execTopoReceive (d : Fin 2) := onDie d (pumped (topoReceive d))
def execTopoEntryExpire (d : Fin 2) (uid : Nat) := onDie d (pumped (topoEntryExpire d uid))
def execSpanRepair (d l : Fin 2) := onDie d (pumped (spanRepair d l))
def execElection (d : Fin 2) := onDie d (pumped (election d))
def execTtExchangeStart (d l : Fin 2) := onDie d (pumped (ttExchangeStart d l))
def execTtReqReceive (d : Fin 2) := onDie d (pumped (ttReqReceive d))
def execTtRespReceive (d : Fin 2) := onDie d (pumped (ttRespReceive d))
def execTtExchangeLost (d l : Fin 2) := onDie d (pumped (ttExchangeLost d l))
def execSlockTimeout (d : Fin 2) := onDie d (pumped (slockTimeout d))
def execRemotePostReceive (d : Fin 2) := onDie d (pumped (remotePostReceive d))
def execRemoteCellOpReceive (d : Fin 2) := onDie d (pumped (remoteCellOpReceive d))
def execRemoteCancelReceive (d : Fin 2) := onDie d (pumped (remoteCancelReceive d))
def execRemoteWaitExpire (d : Fin 2) (stn tag : Nat) := onDie d (pumped (remoteWaitExpire d stn tag))
def execBulkSend (d : Fin 2) := onDie d (pumped (bulkSend d))
def execBulkReceive (d : Fin 2) := onDie d (pumped (bulkReceive d))
def execFrameTransmitted (d l : Fin 2) := onDie d (pumped (frameTransmitted d l))

/-! ### Serial ports, pins, flash, watchdogs and test access (R491 to R525) -/

def execCspUnitStart (d : Fin 2) (p : Fin 4) (rdy : Bool) (di : List Bool) := onDie d (cspUnitStart d p rdy di)
def execCspWaitTimeout (d : Fin 2) (p : Fin 4) := onDie d (cspWaitTimeout d p)
def execCspTransferEnd (d : Fin 2) (p : Fin 4) := onDie d (cspTransferEnd d p)
def execGpioEdge (d : Fin 2) (i : Fin 24) (up : Bool) := onDie d (gpioEdge d i up)
def execFlashTransactionEnd (d q : Fin 2) := onDie d (flashTransactionEnd d q)
def execFlashPoll (d q : Fin 2) (status : Byte) (chg : List (Nat × Byte)) := onDie d (flashPoll d q status chg)
def execFlashPollTimeout (d q : Fin 2) := onDie d (flashPollTimeout d q)
def execCommandSessionEnd (d q : Fin 2) (data : List Byte) (chg : List (Nat × Byte)) :=
  onDie d (commandSessionEnd d q data chg)

/-- A watchdog of a die that is not fitted does not exist. -/
def onWdog (w : Wdog) (f : Dev → Dev) : State → Host.Outcome State Fault Refusal :=
  match w with | .ao d => onDie d f | _ => ok f

def execWatchdogUnit (w : Wdog) := onWdog w (wdogUnit w)
def execWatchdogWarn (w : Wdog) := onWdog w (wdogWarnAt w)
def execWatchdogExpire (w : Wdog) := onWdog w (wdogExpireAt w)

/-- BOUNDARY_SCAN_UPDATE: the test port's instruction (R521) and, for the instructions that select it,
the update stage of the boundary register (R523). -/
def boundaryScanUpdate (ir : Nat) (cells : List Bool) (s : Dev) : Dev :=
  let i := ir % 32
  { s with test := { s.test with ir := i, cells := if i ≤ 1 then cells else s.test.cells } }

def execBoundaryScanUpdate (d : Fin 2) (ir : Nat) (cells : List Bool) := onDie d (boundaryScanUpdate ir cells)

end Sys2Proof.Machine
end

