-- ==== Sys2Proof/Machine/Dispatch.lean ====
section
/-!
DEFINITION. One arm per command: each calls its meaning.
-/

namespace Sys2Proof.Machine

/-- The effect of a command on everything but the queue. -/
def exec (i : Instr) (s : State) : Host.Outcome State Fault Refusal :=
  match i with
  | .registerWrite ini addr size v => Sys2Proof.Machine.execRegisterWrite ini addr size v s
  | .readAndReset ini addr size => Sys2Proof.Machine.execReadAndReset ini addr size s
  | .snapshotRead ini addr size => Sys2Proof.Machine.execSnapshotRead ini addr size s
  | .lowHalfRead ini addr => Sys2Proof.Machine.execLowHalfRead ini addr s
  | .lowHalfWrite ini addr v => Sys2Proof.Machine.execLowHalfWrite ini addr v s
  | .highHalfWrite ini addr v => Sys2Proof.Machine.execHighHalfWrite ini addr v s
  | .accessTimeout ini addr size wr v => Sys2Proof.Machine.execAccessTimeout ini addr size wr v s
  | .iccCtlWrite ini idx v => Sys2Proof.Machine.execIccCtlWrite ini idx v s
  | .clockSettled idx => Sys2Proof.Machine.execClockSettled idx s
  | .clockWindowEnd idx cycles => Sys2Proof.Machine.execClockWindowEnd idx cycles s
  | .supplyDroop idx => Sys2Proof.Machine.execSupplyDroop idx s
  | .cdieOnSet ini v => Sys2Proof.Machine.execCdieOnSet ini v s
  | .cdieOnClear ini v => Sys2Proof.Machine.execCdieOnClear ini v s
  | .computeDiePowerDown => Sys2Proof.Machine.execComputeDiePowerDown s
  | .railVoutPoll mode reading => Sys2Proof.Machine.execRailVoutPoll mode reading s
  | .railVsettleEnd => Sys2Proof.Machine.execRailVsettleEnd s
  | .railStepTimeout => Sys2Proof.Machine.execRailStepTimeout s
  | .islandPowerWrite ini d v => Sys2Proof.Machine.execIslandPowerWrite ini d v s
  | .islandPowered d idx => Sys2Proof.Machine.execIslandPowered d idx s
  | .galleryGateWrite ini v => Sys2Proof.Machine.execGalleryGateWrite ini v s
  | .stackGateWrite ini v => Sys2Proof.Machine.execStackGateWrite ini v s
  | .brownoutVddAo d => Sys2Proof.Machine.execBrownoutVddAo d s
  | .brownoutVddaMtr d => Sys2Proof.Machine.execBrownoutVddaMtr d s
  | .brownoutPadRail d io33 => Sys2Proof.Machine.execBrownoutPadRail d io33 s
  | .brownoutAtrHost host => Sys2Proof.Machine.execBrownoutAtrHost host s
  | .galleryRailBrownout p => Sys2Proof.Machine.execGalleryRailBrownout p s
  | .pmbAlert words => Sys2Proof.Machine.execPmbAlert words s
  | .ceilingRiseConfirm t reading => Sys2Proof.Machine.execCeilingRiseConfirm t reading s
  | .ledgerTick => Sys2Proof.Machine.execLedgerTick s
  | .fullCharge => Sys2Proof.Machine.execFullCharge s
  | .tableFix => Sys2Proof.Machine.execTableFix s
  | .ledgerHourEnd => Sys2Proof.Machine.execLedgerHourEnd s
  | .ledgerRecalc ini v => Sys2Proof.Machine.execLedgerRecalc ini v s
  | .batQWrite ini v => Sys2Proof.Machine.execBatQWrite ini v s
  | .gcapWrite ini g v => Sys2Proof.Machine.execGcapWrite ini g v s
  | .graceExpiry => Sys2Proof.Machine.execGraceExpiry s
  | .powerOnReset d vbatOut => Sys2Proof.Machine.execPowerOnReset d vbatOut s
  | .pinReset d => Sys2Proof.Machine.execPinReset d s
  | .systemReset ini d v => Sys2Proof.Machine.execSystemReset ini d v s
  | .clockLoss d => Sys2Proof.Machine.execClockLoss d s
  | .resetRelease d gpio => Sys2Proof.Machine.execResetRelease d gpio s
  | .hostReleaseWrite ini v => Sys2Proof.Machine.execHostReleaseWrite ini v s
  | .galleryReleaseWrite ini v => Sys2Proof.Machine.execGalleryReleaseWrite ini v s
  | .tapReset d => Sys2Proof.Machine.execTapReset d s
  | .bootSequence d => Sys2Proof.Machine.execBootSequence d s
  | .flashBootTimeout port => Sys2Proof.Machine.execFlashBootTimeout port s
  | .octalSwitchWaitEnd same => Sys2Proof.Machine.execOctalSwitchWaitEnd same s
  | .bootRetryReset => Sys2Proof.Machine.execBootRetryReset s
  | .w1Go ini v => Sys2Proof.Machine.execW1Go ini v s
  | .atriumInitDone => Sys2Proof.Machine.execAtriumInitDone s
  | .storeZeroingDone g => Sys2Proof.Machine.execStoreZeroingDone g s
  | .otpProgram ini d v => Sys2Proof.Machine.execOtpProgram ini d v s
  | .otpProgramDone d good => Sys2Proof.Machine.execOtpProgramDone d good s
  | .calCommit ini d v => Sys2Proof.Machine.execCalCommit ini d v s
  | .calCommitDone d good => Sys2Proof.Machine.execCalCommitDone d good s
  | .add c f => Sys2Proof.Machine.execAdd c f s
  | .sub c f => Sys2Proof.Machine.execSub c f s
  | .and c f => Sys2Proof.Machine.execAnd c f s
  | .or c f => Sys2Proof.Machine.execOr c f s
  | .xor c f => Sys2Proof.Machine.execXor c f s
  | .sll c f => Sys2Proof.Machine.execSll c f s
  | .srl c f => Sys2Proof.Machine.execSrl c f s
  | .sra c f => Sys2Proof.Machine.execSra c f s
  | .slt c f => Sys2Proof.Machine.execSlt c f s
  | .sltu c f => Sys2Proof.Machine.execSltu c f s
  | .slli c f => Sys2Proof.Machine.execSlli c f s
  | .srli c f => Sys2Proof.Machine.execSrli c f s
  | .srai c f => Sys2Proof.Machine.execSrai c f s
  | .mul c f => Sys2Proof.Machine.execMul c f s
  | .mulh c f => Sys2Proof.Machine.execMulh c f s
  | .mulhu c f => Sys2Proof.Machine.execMulhu c f s
  | .div c f => Sys2Proof.Machine.execDiv c f s
  | .divu c f => Sys2Proof.Machine.execDivu c f s
  | .rem c f => Sys2Proof.Machine.execRem c f s
  | .remu c f => Sys2Proof.Machine.execRemu c f s
  | .min c f => Sys2Proof.Machine.execMin c f s
  | .max c f => Sys2Proof.Machine.execMax c f s
  | .minu c f => Sys2Proof.Machine.execMinu c f s
  | .maxu c f => Sys2Proof.Machine.execMaxu c f s
  | .clz c f => Sys2Proof.Machine.execClz c f s
  | .popc c f => Sys2Proof.Machine.execPopc c f s
  | .addi c f => Sys2Proof.Machine.execAddi c f s
  | .andi c f => Sys2Proof.Machine.execAndi c f s
  | .ori c f => Sys2Proof.Machine.execOri c f s
  | .xori c f => Sys2Proof.Machine.execXori c f s
  | .slti c f => Sys2Proof.Machine.execSlti c f s
  | .sltiu c f => Sys2Proof.Machine.execSltiu c f s
  | .lui c z f => Sys2Proof.Machine.execLui c z f s
  | .lb c f => Sys2Proof.Machine.execLb c f s
  | .lh c f => Sys2Proof.Machine.execLh c f s
  | .lw c f => Sys2Proof.Machine.execLw c f s
  | .lbu c f => Sys2Proof.Machine.execLbu c f s
  | .lhu c f => Sys2Proof.Machine.execLhu c f s
  | .sb c f => Sys2Proof.Machine.execSb c f s
  | .sh c f => Sys2Proof.Machine.execSh c f s
  | .sw c f => Sys2Proof.Machine.execSw c f s
  | .beq c f => Sys2Proof.Machine.execBeq c f s
  | .bne c f => Sys2Proof.Machine.execBne c f s
  | .blt c f => Sys2Proof.Machine.execBlt c f s
  | .bge c f => Sys2Proof.Machine.execBge c f s
  | .bltu c f => Sys2Proof.Machine.execBltu c f s
  | .bgeu c f => Sys2Proof.Machine.execBgeu c f s
  | .j c off => Sys2Proof.Machine.execJ c off s
  | .jal c off => Sys2Proof.Machine.execJal c off s
  | .jalr c f => Sys2Proof.Machine.execJalr c f s
  | .loopi c l cnt e => Sys2Proof.Machine.execLoopi c l cnt e s
  | .loopr c l sa z e => Sys2Proof.Machine.execLoopr c l sa z e s
  | .csrrw c f => Sys2Proof.Machine.execCsrrw c f s
  | .csrrs c f => Sys2Proof.Machine.execCsrrs c f s
  | .csrrc c f => Sys2Proof.Machine.execCsrrc c f s
  | .ecall c f => Sys2Proof.Machine.execEcall c f s
  | .ebreak c f => Sys2Proof.Machine.execEbreak c f s
  | .eret c f => Sys2Proof.Machine.execEret c f s
  | .wfi c f => Sys2Proof.Machine.execWfi c f s
  | .fence c f => Sys2Proof.Machine.execFence c f s
  | .ifence c f => Sys2Proof.Machine.execIfence c f s
  | .modesw c f => Sys2Proof.Machine.execModesw c f s
  | .interruptTaken c => Sys2Proof.Machine.execInterruptTaken c s
  | .storeBus c => Sys2Proof.Machine.execStoreBus c s
  | .storeBufferDrain c => Sys2Proof.Machine.execStoreBufferDrain c s
  | .loadComplete c => Sys2Proof.Machine.execLoadComplete c s
  | .overlapLoadIssue c => Sys2Proof.Machine.execOverlapLoadIssue c s
  | .debugHaltreq ini c v => Sys2Proof.Machine.execDebugHaltreq ini c v s
  | .debugHalt c => Sys2Proof.Machine.execDebugHalt c s
  | .debugResume ini c v => Sys2Proof.Machine.execDebugResume ini c v s
  | .debugRegAccess ini c off w => Sys2Proof.Machine.execDebugRegAccess ini c off w s
  | .doorbell ini c v => Sys2Proof.Machine.execDoorbell ini c v s
  | .mxCfg c f => Sys2Proof.Machine.execMxCfg c f s
  | .mxWld c f => Sys2Proof.Machine.execMxWld c f s
  | .mxSwap c f => Sys2Proof.Machine.execMxSwap c f s
  | .mxRun c f => Sys2Proof.Machine.execMxRun c f s
  | .mxWait c f => Sys2Proof.Machine.execMxWait c f s
  | .mxStat c f => Sys2Proof.Machine.execMxStat c f s
  | .mxCfgDispatch g => Sys2Proof.Machine.execMxCfgDispatch g s
  | .mxWldDispatch g => Sys2Proof.Machine.execMxWldDispatch g s
  | .mxSwapDispatch g => Sys2Proof.Machine.execMxSwapDispatch g s
  | .mxRunDispatch g => Sys2Proof.Machine.execMxRunDispatch g s
  | .planeLoadDone g => Sys2Proof.Machine.execPlaneLoadDone g s
  | .vitrineSlotReserve g => Sys2Proof.Machine.execVitrineSlotReserve g s
  | .tileReady g => Sys2Proof.Machine.execTileReady g s
  | .vxPop c f => Sys2Proof.Machine.execVxPop c f s
  | .vxLd c f => Sys2Proof.Machine.execVxLd c f s
  | .vxSt c f => Sys2Proof.Machine.execVxSt c f s
  | .vxAdd c f => Sys2Proof.Machine.execVxAdd c f s
  | .vxSub c f => Sys2Proof.Machine.execVxSub c f s
  | .vxMul c f => Sys2Proof.Machine.execVxMul c f s
  | .vxMax c f => Sys2Proof.Machine.execVxMax c f s
  | .vxMin c f => Sys2Proof.Machine.execVxMin c f s
  | .vxRed c f => Sys2Proof.Machine.execVxRed c f s
  | .vxSum c f => Sys2Proof.Machine.execVxSum c f s
  | .vxCpr c f => Sys2Proof.Machine.execVxCpr c f s
  | .vxExp c f => Sys2Proof.Machine.execVxExp c f s
  | .vxCvt c f => Sys2Proof.Machine.execVxCvt c f s
  | .vxRq c f => Sys2Proof.Machine.execVxRq c f s
  | .vxAct c f => Sys2Proof.Machine.execVxAct c f s
  | .vxCmp c f => Sys2Proof.Machine.execVxCmp c f s
  | .vxBcst c f => Sys2Proof.Machine.execVxBcst c f s
  | .vxMin2 c f => Sys2Proof.Machine.execVxMin2 c f s
  | .vxSgnx c f => Sys2Proof.Machine.execVxSgnx c f s
  | .vxInstrStart g => Sys2Proof.Machine.execVxInstrStart g s
  | .vxInstrEnd g => Sys2Proof.Machine.execVxInstrEnd g s
  | .legendWrite ini g entry word v => Sys2Proof.Machine.execLegendWrite ini g entry word v s
  | .stOpen c f => Sys2Proof.Machine.execStOpen c f s
  | .stClose c f => Sys2Proof.Machine.execStClose c f s
  | .stNext c f => Sys2Proof.Machine.execStNext c f s
  | .stDone c f => Sys2Proof.Machine.execStDone c f s
  | .stWait c f => Sys2Proof.Machine.execStWait c f s
  | .stStat c f => Sys2Proof.Machine.execStStat c f s
  | .tileFetchDone g n => Sys2Proof.Machine.execTileFetchDone g n s
  | .tileWriteDone g n => Sys2Proof.Machine.execTileWriteDone g n s
  | .streamEnd g n => Sys2Proof.Machine.execStreamEnd g n s
  | .syAdd c f => Sys2Proof.Machine.execSyAdd c f s
  | .sySet c f => Sys2Proof.Machine.execSySet c f s
  | .syTest c f => Sys2Proof.Machine.execSyTest c f s
  | .syWaitge c f => Sys2Proof.Machine.execSyWaitge c f s
  | .syWaiteq c f => Sys2Proof.Machine.execSyWaiteq c f s
  | .syGate c f => Sys2Proof.Machine.execSyGate c f s
  | .rgPost c f => Sys2Proof.Machine.execRgPost c f s
  | .rgPop c f => Sys2Proof.Machine.execRgPop c f s
  | .rgPopw c f => Sys2Proof.Machine.execRgPopw c f s
  | .rgStat c f => Sys2Proof.Machine.execRgStat c f s
  | .epOpen c f => Sys2Proof.Machine.execEpOpen c f s
  | .epCommit c f => Sys2Proof.Machine.execEpCommit c f s
  | .epSquash c f => Sys2Proof.Machine.execEpSquash c f s
  | .epStat c f => Sys2Proof.Machine.execEpStat c f s
  | .epochTimeBound g => Sys2Proof.Machine.execEpochTimeBound g s
  | .epochCommit g => Sys2Proof.Machine.execEpochCommit g s
  | .epochSquash g => Sys2Proof.Machine.execEpochSquash g s
  | .skipJobStart ini g v => Sys2Proof.Machine.execSkipJobStart ini g v s
  | .skipJobAbort ini g v => Sys2Proof.Machine.execSkipJobAbort ini g v s
  | .skipListsReady g => Sys2Proof.Machine.execSkipListsReady g s
  | .skipJobDone g => Sys2Proof.Machine.execSkipJobDone g s
  | .roundTake ini g v => Sys2Proof.Machine.execRoundTake ini g v s
  | .deadlineMarkArrive g => Sys2Proof.Machine.execDeadlineMarkArrive g s
  | .auditControlWrite ini g v => Sys2Proof.Machine.execAuditControlWrite ini g v s
  | .auditFlush ini g v => Sys2Proof.Machine.execAuditFlush ini g v s
  | .auditRowSlot g => Sys2Proof.Machine.execAuditRowSlot g s
  | .auditRowEvaluate g => Sys2Proof.Machine.execAuditRowEvaluate g s
  | .auditWindowComplete g => Sys2Proof.Machine.execAuditWindowComplete g s
  | .carouselStart ini g v => Sys2Proof.Machine.execCarouselStart ini g v s
  | .carouselGroupStart => Sys2Proof.Machine.execCarouselGroupStart s
  | .carouselPass ini g v => Sys2Proof.Machine.execCarouselPass ini g v s
  | .carouselStop ini g v => Sys2Proof.Machine.execCarouselStop ini g v s
  | .carouselTransferStart g => Sys2Proof.Machine.execCarouselTransferStart g s
  | .carouselTransferDone g => Sys2Proof.Machine.execCarouselTransferDone g s
  | .carouselStepEntry g => Sys2Proof.Machine.execCarouselStepEntry g s
  | .ringEnable ini r v => Sys2Proof.Machine.execRingEnable ini r v s
  | .ringDisable ini r v => Sys2Proof.Machine.execRingDisable ini r v s
  | .hubTick => Sys2Proof.Machine.execHubTick s
  | .waitTimeout pop k => Sys2Proof.Machine.execWaitTimeout pop k s
  | .cellWindowTest ini cell => Sys2Proof.Machine.execCellWindowTest ini cell s
  | .cellWindowSet ini cell v => Sys2Proof.Machine.execCellWindowSet ini cell v s
  | .cellWindowAdd ini cell v => Sys2Proof.Machine.execCellWindowAdd ini cell v s
  | .commandAdd ini rec => Sys2Proof.Machine.execCommandAdd ini rec s
  | .commandSet ini rec => Sys2Proof.Machine.execCommandSet ini rec s
  | .commandTest ini rec => Sys2Proof.Machine.execCommandTest ini rec s
  | .commandWaitge ini rec => Sys2Proof.Machine.execCommandWaitge ini rec s
  | .commandWaiteq ini rec => Sys2Proof.Machine.execCommandWaiteq ini rec s
  | .commandPost ini rec => Sys2Proof.Machine.execCommandPost ini rec s
  | .commandPop ini rec => Sys2Proof.Machine.execCommandPop ini rec s
  | .remoteOutcome tag code stamp v => Sys2Proof.Machine.execRemoteOutcome tag code stamp v s
  | .remoteTimeout tag => Sys2Proof.Machine.execRemoteTimeout tag s
  | .remoteWaitTimeout tag => Sys2Proof.Machine.execRemoteWaitTimeout tag s
  | .admissionRequest ini v => Sys2Proof.Machine.execAdmissionRequest ini v s
  | .admissionEvaluate => Sys2Proof.Machine.execAdmissionEvaluate s
  | .workRelease ini v => Sys2Proof.Machine.execWorkRelease ini v s
  | .hostInstruction c w => Sys2Proof.Machine.execHostInstruction c w s
  | .cboClean c rs1 => Sys2Proof.Machine.execCboClean c rs1 s
  | .cboFlush c rs1 => Sys2Proof.Machine.execCboFlush c rs1 s
  | .cboInval c rs1 => Sys2Proof.Machine.execCboInval c rs1 s
  | .hostFence c => Sys2Proof.Machine.execHostFence c s
  | .l2Flush ini v => Sys2Proof.Machine.execL2Flush ini v s
  | .l2FlushDone => Sys2Proof.Machine.execL2FlushDone s
  | .plicClaim ini ctx => Sys2Proof.Machine.execPlicClaim ini ctx s
  | .plicComplete ini ctx v => Sys2Proof.Machine.execPlicComplete ini ctx v s
  | .mtimeWrite ini v => Sys2Proof.Machine.execMtimeWrite ini v s
  | .mtimeCompare c => Sys2Proof.Machine.execMtimeCompare c s
  | .msipWrite ini c v => Sys2Proof.Machine.execMsipWrite ini c v s
  | .setssip ini c v => Sys2Proof.Machine.execSetssip ini c v s
  | .hostDbell ini v => Sys2Proof.Machine.execHostDbell ini v s
  | .dmiAccess op addr data => Sys2Proof.Machine.execDmiAccess op addr data s
  | .superframeBoundary d => Sys2Proof.Machine.execSuperframeBoundary d s
  | .rfSfofsWrite ini d v => Sys2Proof.Machine.execRfSfofsWrite ini d v s
  | .radioEnable ini d v => Sys2Proof.Machine.execRadioEnable ini d v s
  | .rssiSample d x => Sys2Proof.Machine.execRssiSample d x s
  | .qualifierDecision d => Sys2Proof.Machine.execQualifierDecision d s
  | .formatDecision d => Sys2Proof.Machine.execFormatDecision d s
  | .symbolProgress d => Sys2Proof.Machine.execSymbolProgress d s
  | .capturePublish d => Sys2Proof.Machine.execCapturePublish d s
  | .detectorRearm d => Sys2Proof.Machine.execDetectorRearm d s
  | .rxclkCheck d a ppm => Sys2Proof.Machine.execRxclkCheck d a ppm s
  | .rampDownStart d a under => Sys2Proof.Machine.execRampDownStart d a under s
  | .transmitEnd d a => Sys2Proof.Machine.execTransmitEnd d a s
  | .delivererEnable ini d v => Sys2Proof.Machine.execDelivererEnable ini d v s
  | .deadlineMarkDeliver d => Sys2Proof.Machine.execDeadlineMarkDeliver d s
  | .meterEnable ini d v => Sys2Proof.Machine.execMeterEnable ini d v s
  | .shotUpStart d p raw hits => Sys2Proof.Machine.execShotUpStart d p raw hits s
  | .shotMeasureEnd d p raw hits => Sys2Proof.Machine.execShotMeasureEnd d p raw hits s
  | .pickCommit ini d p v => Sys2Proof.Machine.execPickCommit ini d p v s
  | .pickWindowClose d p => Sys2Proof.Machine.execPickWindowClose d p s
  | .shotResult d p => Sys2Proof.Machine.execShotResult d p s
  | .rtdRoundStart d => Sys2Proof.Machine.execRtdRoundStart d s
  | .rtdConversionDone d code => Sys2Proof.Machine.execRtdConversionDone d code s
  | .accClear ini d a v => Sys2Proof.Machine.execAccClear ini d a v s
  | .accTimeTick d => Sys2Proof.Machine.execAccTimeTick d s
  | .pulseStart d o => Sys2Proof.Machine.execPulseStart d o s
  | .pulseEnd d o => Sys2Proof.Machine.execPulseEnd d o s
  | .spSample d codes => Sys2Proof.Machine.execSpSample d codes s
  | .pressWrite ini d v => Sys2Proof.Machine.execPressWrite ini d v s
  | .acSample d rate sd tdm0 tdm1 => Sys2Proof.Machine.execAcSample d rate sd tdm0 tdm1 s
  | .framePublish d g => Sys2Proof.Machine.execFramePublish d g s
  | .groupEnable ini d g v => Sys2Proof.Machine.execGroupEnable ini d g v s
  | .groupDisable ini d g v => Sys2Proof.Machine.execGroupDisable ini d g v s
  | .sdCfgWrite ini d idx v => Sys2Proof.Machine.execSdCfgWrite ini d idx v s
  | .tdmCfgWrite ini d p v => Sys2Proof.Machine.execTdmCfgWrite ini d p v s
  | .vbatRise d low => Sys2Proof.Machine.execVbatRise d low s
  | .meridianSecond d => Sys2Proof.Machine.execMeridianSecond d s
  | .crystalMiss d => Sys2Proof.Machine.execCrystalMiss d s
  | .vbatBrownout d => Sys2Proof.Machine.execVbatBrownout d s
  | .meridianHalt ini d v => Sys2Proof.Machine.execMeridianHalt ini d v s
  | .meridianResume ini d v => Sys2Proof.Machine.execMeridianResume ini d v s
  | .meridianSet ini d sub v => Sys2Proof.Machine.execMeridianSet ini d sub v s
  | .alarmFire d k => Sys2Proof.Machine.execAlarmFire d k s
  | .tsFadjWrite ini v => Sys2Proof.Machine.execTsFadjWrite ini v s
  | .tsSlewWrite ini v => Sys2Proof.Machine.execTsSlewWrite ini v s
  | .tsStepWrite ini v => Sys2Proof.Machine.execTsStepWrite ini v s
  | .tsCtlWrite ini v => Sys2Proof.Machine.execTsCtlWrite ini v s
  | .ppsCapture up off => Sys2Proof.Machine.execPpsCapture up off s
  | .ppsMissTimeout => Sys2Proof.Machine.execPpsMissTimeout s
  | .ttArm ini d n v => Sys2Proof.Machine.execTtArm ini d n v s
  | .ttDisarm ini d n v => Sys2Proof.Machine.execTtDisarm ini d n v s
  | .timetableFire d => Sys2Proof.Machine.execTimetableFire d s
  | .linkUp d l => Sys2Proof.Machine.execLinkUp d l s
  | .linkDown d l los modabs => Sys2Proof.Machine.execLinkDown d l los modabs s
  | .helloSend d l => Sys2Proof.Machine.execHelloSend d l s
  | .frameReceive d l frame => Sys2Proof.Machine.execFrameReceive d l frame s
  | .helloReceive d => Sys2Proof.Machine.execHelloReceive d s
  | .topoSend d => Sys2Proof.Machine.execTopoSend d s
  | .topoReceive d => Sys2Proof.Machine.execTopoReceive d s
  | .topoEntryExpire d uid => Sys2Proof.Machine.execTopoEntryExpire d uid s
  | .spanRepair d l => Sys2Proof.Machine.execSpanRepair d l s
  | .election d => Sys2Proof.Machine.execElection d s
  | .trkStnWrite ini d v => Sys2Proof.Machine.execTrkStnWrite ini d v s
  | .reelect ini d v => Sys2Proof.Machine.execReelect ini d v s
  | .ttExchangeStart d l => Sys2Proof.Machine.execTtExchangeStart d l s
  | .ttReqReceive d => Sys2Proof.Machine.execTtReqReceive d s
  | .ttRespReceive d => Sys2Proof.Machine.execTtRespReceive d s
  | .ttExchangeLost d l => Sys2Proof.Machine.execTtExchangeLost d l s
  | .slockTimeout d => Sys2Proof.Machine.execSlockTimeout d s
  | .asymmetryCalibrate ini d v => Sys2Proof.Machine.execAsymmetryCalibrate ini d v s
  | .remotePostReceive d => Sys2Proof.Machine.execRemotePostReceive d s
  | .remoteCellOpReceive d => Sys2Proof.Machine.execRemoteCellOpReceive d s
  | .remoteCancelReceive d => Sys2Proof.Machine.execRemoteCancelReceive d s
  | .remoteWaitExpire d stn tag => Sys2Proof.Machine.execRemoteWaitExpire d stn tag s
  | .bulkSend d => Sys2Proof.Machine.execBulkSend d s
  | .bulkReceive d => Sys2Proof.Machine.execBulkReceive d s
  | .cspTransferStart ini d p v => Sys2Proof.Machine.execCspTransferStart ini d p v s
  | .cspAbort ini d p v => Sys2Proof.Machine.execCspAbort ini d p v s
  | .cspUnitStart d p rdy di => Sys2Proof.Machine.execCspUnitStart d p rdy di s
  | .cspWaitTimeout d p => Sys2Proof.Machine.execCspWaitTimeout d p s
  | .cspTransferEnd d p => Sys2Proof.Machine.execCspTransferEnd d p s
  | .cspPush ini d p v => Sys2Proof.Machine.execCspPush ini d p v s
  | .cspPop ini d p => Sys2Proof.Machine.execCspPop ini d p s
  | .gpioEdge d idx up => Sys2Proof.Machine.execGpioEdge d idx up s
  | .gpioSet ini d v => Sys2Proof.Machine.execGpioSet ini d v s
  | .gpioClr ini d v => Sys2Proof.Machine.execGpioClr ini d v s
  | .flashConfigWrite ini d q v => Sys2Proof.Machine.execFlashConfigWrite ini d q v s
  | .flashWindowRead ini addr size => Sys2Proof.Machine.execFlashWindowRead ini addr size s
  | .flashTransactionEnd d q => Sys2Proof.Machine.execFlashTransactionEnd d q s
  | .flashCommand ini d q v => Sys2Proof.Machine.execFlashCommand ini d q v s
  | .flashPoll d q status chg => Sys2Proof.Machine.execFlashPoll d q status chg s
  | .flashPollTimeout d q => Sys2Proof.Machine.execFlashPollTimeout d q s
  | .watchdogKick ini w v => Sys2Proof.Machine.execWatchdogKick ini w v s
  | .watchdogEnable ini w v => Sys2Proof.Machine.execWatchdogEnable ini w v s
  | .watchdogUnit w => Sys2Proof.Machine.execWatchdogUnit w s
  | .watchdogWarn w => Sys2Proof.Machine.execWatchdogWarn w s
  | .watchdogExpire w => Sys2Proof.Machine.execWatchdogExpire w s
  | .sysbusAccess op addr data => Sys2Proof.Machine.execSysbusAccess op addr data s
  | .boundaryScanUpdate d ir cells => Sys2Proof.Machine.execBoundaryScanUpdate d ir cells s
  | .thermalMeasure cd io => Sys2Proof.Machine.execThermalMeasure cd io s
  | .writeAcknowledge ini => Sys2Proof.Machine.execWriteAcknowledge ini s
  | .islandRelock idx => Sys2Proof.Machine.execIslandRelock idx s
  | .padRailRecovery d io33 => Sys2Proof.Machine.execPadRailRecovery d io33 s
  | .rampUpStart d a => Sys2Proof.Machine.execRampUpStart d a s
  | .slewComplete => Sys2Proof.Machine.execSlewComplete s
  | .frameTransmitted d l => Sys2Proof.Machine.execFrameTransmitted d l s
  | .commandSessionEnd d q data chg => Sys2Proof.Machine.execCommandSessionEnd d q data chg s

end Sys2Proof.Machine
end

