-- ==== Sys2Proof/Machine/Tick.lean ====
section
/-!
DEFINITION. What happens in one TCXO cycle in which no command comes (log entry 39): the clocks count, the
cycle counters of the galleries and cores move by free amounts, the host's caches may write lines back
or fetch them ahead, and a memory cell may be upset.
-/

namespace Sys2Proof.Machine

/-- Clock cycles that a core counts (R137): a halted core's count stops (R167). -/
def Dev.coreCycles (s : Dev) (c : Fin 8) (n : Nat) : Dev :=
  if (vget s.core c).run == .running then
    s.modCore c fun x => { x with cycle := (x.cycle + n) % 2 ^ 64 }
  else s

/-- The TCXO cycle inside a gallery: `n` of its own cycles pass, `n` being free (R185, R187, R190, R212
to R214). -/
def Dev.galCycle (s : Dev) (g : Fin 6) : Dev :=
  if !s.galUp g then s
  else
    let (n, s) := s.draw
    let c := curator g
    let x := s.cur g
    let a := s.arr g
    let e := s.ep g
    let s := s.coreCycles c n
    let s := s.when (!a.flight.isEmpty) fun s => s.count R.ARR_BUSYCYC n g.val
    let s := s.when (a.frozen == 1) fun s => s.count R.ARR_VSTALL n g.val
    let s := s.when (a.frozen == 2) fun s => s.count R.ARR_EPSTALL n g.val
    let s := s.when (a.frozen != 0 && x.charted) fun s => s.count R.ARR_SLIP n g.val
    let s := s.when (match x.stall with | .stNext _ _ => true | _ => false) fun s => s.count R.ST_NEXTSTALL n g.val
    let s := s.when (s.car g).passed fun s => s.count R.CAR_WAITCYC n g.val
    if e.isOpen then
      let s := s.count R.EP_PCYC n g.val
      let s := s.when e.ending fun s => s.count R.EP_WAITCYC n g.val
      s.modEp g fun e => { e with cyc := e.cyc + n, age := e.age + b2n (x.run != .halted) }
    else s

/-- The TCXO cycle on an I/O die. -/
def Dev.dieCycle (s : Dev) (d : Fin 2) : Dev :=
  if !s.fitted d.val || (vget s.die d).inReset then s
  else
    let (n, s) := s.draw
    (s.modDie d fun x => { x with tcxo := x.tcxo + 1 }).coreCycles (warden d) n

/-- The meridian of a fitted I/O die: its crystal may give an edge. -/
def Dev.merEdge (s : Dev) (d : Fin 2) : Dev := if s.fitted d.val then s.merCycle d else s

/-- Station time passes one cycle and a step takes effect (R442 to R444). -/
def Dev.timeCycle (s : Dev) : Dev :=
  if (vget s.die 0).inReset then s
  else match s.time.step with
    | some x => s.tsCycle.stepped x
    | none => s.tsCycle

/-- The host's L2 may write back a line and drop it, or fetch a block ahead, with its own ID (R46,
R319): free choices. -/
def Dev.cacheDrift (s : Dev) : Dev :=
  if !s.islUp 6 then s
  else
    let (x, s) := s.draw
    let (b, s) := s.drawB
    if b then
      match s.host.cache[x]? with
      | some p => s.flushLine p.1
      | none => s
    else if s.hostLined (64 * x) && (s.line x).isNone && (s.refusal 4 (64 * x) 8 .rd).isNone then
      let s := ((s.settleWb x).meet 4 (64 * x) 64).flashServe (64 * x) 64
      s.setLine x ⟨s.rdBytes (64 * x) 64, false, s.poisoned (64 * x) 64, 0⟩
    else s

/-- Host cores: cycles pass; the interrupt gateways sample their sources (log entry 31). -/
def Dev.hostCycle (s : Dev) : Dev :=
  if !s.cdieOn then s
  else
    let s := s.wr R.MTIME ((s.rg R.MTIME + 1) % 2 ^ 64)
    if !s.islUp 6 then s
    else ((List.finRange 4).foldl (fun s c =>
      if (s.hc c).run == .running then s.hCycles c else s) s.plicSample).cacheDrift

/-- Value of an error that joins one already there: a second wrong bit cannot be corrected (R506). -/
def joinErr (old new : Nat) : Nat := if old = 0 then new else 255

/-- An upset: where and of what kind is free; none may come (R506 to R510). -/
def Dev.upset (s : Dev) : Dev :=
  let (b, s) := s.drawB
  if !b then s
  else
    let (k, s) := s.draw
    let (w, s) := s.draw
    let (x, s) := s.draw
    let e := if x % 73 = 72 then 255 else x % 73 + 1
    if k = 0 then
      if (eccMem (8 * w)).isSome && s.mapped (8 * w) && s.targetUp (8 * w) then
        { s with ecc := SMap.set 0 s.ecc w (joinErr (SMap.get 0 s.ecc w) e) }
      else s
    else if k = 1 then
      if s.islUp 8 then
        let i := w % (65536 + 1024)
        s.modHub fun h => { h with ecc := SMap.set 0 h.ecc i (joinErr (SMap.get 0 h.ecc i) e) }
      else s
    else if k = 2 then
      match s.line w with
      | some l => s.setLine w { l with err := if l.err = 0 ∧ e ≠ 255 then 1 else 2 }
      | none => s
    else if s.hostCacheable (64 * w) && s.islUp 6 then
      s.modHc (Fin.ofNat 4 k) fun h => { h with iperr := insGran w h.iperr }
    else s

/-- One TCXO cycle. The cycle counts of the dies come first, so that an entry a step of station time
makes late fires in the cycle after this one (R452, R453). -/
def Dev.tick (s : Dev) : Dev :=
  let s := (s.dieCycle 0).dieCycle 1
  let s := s.timeCycle
  let s := (s.merEdge 0).merEdge 1
  let s := (List.finRange 6).foldl (fun s g => s.galCycle g) s
  let s := s.hostCycle.trunkPump
  s.upset

end Sys2Proof.Machine
end

