-- ==== Sys2Proof/WellFormed.lean ====
section
/-!
DEFINITION. Which commands can come: the initiator is one that the table of R46 lists, an address has 40
bits, an access is of 1, 2, 4 or 8 bytes, and what a pin or a converter delivers fits its width. A field
of an instruction word that must be 0 is checked by the instruction (R109), which traps.
-/

namespace Sys2Proof

/-- IDs that R46 lists. -/
def iniListed (n : Nat) : Bool :=
  decide (n ≤ 5) || (decide (8 ≤ n) && decide (n ≤ 0xD)) || (decide (0x10 ≤ n) && decide (n ≤ 0x15))
    || (decide (0x18 ≤ n) && decide (n ≤ 0x25)) || n == 0x3F

/-- A value of `w` bits. -/
def wd (w n : Nat) : Bool := decide (n < 2 ^ w)

/-- A signed value of `w` bits. -/
def sgn (w : Nat) (x : Int) : Bool := decide (-(2 ^ (w - 1)) ≤ x) && decide (x < 2 ^ (w - 1))

/-- An optional value of `w` bits. -/
def optWd (w : Nat) (o : Option Nat) : Bool := o.all (wd w)

/-- Sizes of an access (R38, R39). -/
def sizeOk (n : Nat) : Bool := n == 1 || n == 2 || n == 4 || n == 8

/-- Offsets of DPC, CSRDATA and SREG in a core's debug block (R168). -/
def debugOff (n : Nat) : Bool := n == 8 || n == 0x14 || (decide (0x100 ≤ n) && decide (n < 0x180) && n % 4 == 0)

/-- A command that can come. -/
def Instr.wf : Instr → Bool
  | .registerWrite ini addr size v => iniListed ini && wd 40 addr && sizeOk size && wd 64 v
  | .readAndReset ini addr size => iniListed ini && wd 40 addr && sizeOk size
  | .snapshotRead ini addr size => iniListed ini && wd 40 addr && sizeOk size
  | .lowHalfRead ini addr => iniListed ini && wd 40 addr
  | .lowHalfWrite ini addr v => iniListed ini && wd 40 addr && wd 64 v
  | .highHalfWrite ini addr v => iniListed ini && wd 40 addr && wd 64 v
  | .accessTimeout ini addr size _ v => iniListed ini && wd 40 addr && sizeOk size && wd 64 v
  | .iccCtlWrite ini _ v => iniListed ini && wd 64 v
  | .clockSettled _ => true
  | .clockWindowEnd _ cycles => wd 16 cycles
  | .supplyDroop _ => true
  | .cdieOnSet ini v => iniListed ini && wd 64 v
  | .cdieOnClear ini v => iniListed ini && wd 64 v
  | .computeDiePowerDown => true
  | .railVoutPoll mode reading => wd 8 mode && optWd 16 reading
  | .railVsettleEnd => true
  | .railStepTimeout => true
  | .islandPowerWrite ini _ v => iniListed ini && wd 64 v
  | .islandPowered _ i => decide (2 ≤ i.val)
  | .galleryGateWrite ini v => iniListed ini && wd 64 v
  | .stackGateWrite ini v => iniListed ini && wd 64 v
  | .brownoutVddAo _ => true
  | .brownoutVddaMtr _ => true
  | .brownoutPadRail _ _ => true
  | .brownoutAtrHost _ => true
  | .galleryRailBrownout _ => true
  | .pmbAlert words => words.all (optWd 16)
  | .ceilingRiseConfirm _ reading => optWd 16 reading
  | .ledgerTick => true
  | .fullCharge => true
  | .tableFix => true
  | .ledgerHourEnd => true
  | .ledgerRecalc ini v => iniListed ini && wd 64 v
  | .batQWrite ini v => iniListed ini && wd 64 v
  | .gcapWrite ini _ v => iniListed ini && wd 64 v
  | .graceExpiry => true
  | .powerOnReset _ _ => true
  | .pinReset _ => true
  | .systemReset ini _ v => iniListed ini && wd 64 v
  | .clockLoss _ => true
  | .resetRelease _ gpio => wd 24 gpio
  | .hostReleaseWrite ini v => iniListed ini && wd 64 v
  | .galleryReleaseWrite ini v => iniListed ini && wd 64 v
  | .tapReset _ => true
  | .bootSequence _ => true
  | .flashBootTimeout _ => true
  | .octalSwitchWaitEnd _ => true
  | .bootRetryReset => true
  | .w1Go ini v => iniListed ini && wd 64 v
  | .atriumInitDone => true
  | .storeZeroingDone _ => true
  | .otpProgram ini _ v => iniListed ini && wd 64 v
  | .otpProgramDone _ _ => true
  | .calCommit ini _ v => iniListed ini && wd 64 v
  | .calCommitDone _ _ => true
  | .add _ _ => true
  | .sub _ _ => true
  | .and _ _ => true
  | .or _ _ => true
  | .xor _ _ => true
  | .sll _ _ => true
  | .srl _ _ => true
  | .sra _ _ => true
  | .slt _ _ => true
  | .sltu _ _ => true
  | .slli _ _ => true
  | .srli _ _ => true
  | .srai _ _ => true
  | .mul _ _ => true
  | .mulh _ _ => true
  | .mulhu _ _ => true
  | .div _ _ => true
  | .divu _ _ => true
  | .rem _ _ => true
  | .remu _ _ => true
  | .min _ _ => true
  | .max _ _ => true
  | .minu _ _ => true
  | .maxu _ _ => true
  | .clz _ _ => true
  | .popc _ _ => true
  | .addi _ _ => true
  | .andi _ _ => true
  | .ori _ _ => true
  | .xori _ _ => true
  | .slti _ _ => true
  | .sltiu _ _ => true
  | .lui _ _ _ => true
  | .lb _ _ => true
  | .lh _ _ => true
  | .lw _ _ => true
  | .lbu _ _ => true
  | .lhu _ _ => true
  | .sb _ _ => true
  | .sh _ _ => true
  | .sw _ _ => true
  | .beq _ _ => true
  | .bne _ _ => true
  | .blt _ _ => true
  | .bge _ _ => true
  | .bltu _ _ => true
  | .bgeu _ _ => true
  | .j _ _ => true
  | .jal _ _ => true
  | .jalr _ _ => true
  | .loopi _ _ _ _ => true
  | .loopr _ _ _ _ _ => true
  | .csrrw _ _ => true
  | .csrrs _ _ => true
  | .csrrc _ _ => true
  | .ecall _ _ => true
  | .ebreak _ _ => true
  | .eret _ _ => true
  | .wfi _ _ => true
  | .fence _ _ => true
  | .ifence _ _ => true
  | .modesw _ _ => true
  | .interruptTaken _ => true
  | .storeBus _ => true
  | .storeBufferDrain _ => true
  | .loadComplete _ => true
  | .overlapLoadIssue _ => true
  | .debugHaltreq ini _ v => iniListed ini && wd 64 v
  | .debugHalt _ => true
  | .debugResume ini _ v => iniListed ini && wd 64 v
  | .debugRegAccess ini _ off w => iniListed ini && debugOff off && optWd 32 w
  | .doorbell ini _ v => iniListed ini && wd 64 v
  | .mxCfg _ _ => true
  | .mxWld _ _ => true
  | .mxSwap _ _ => true
  | .mxRun _ _ => true
  | .mxWait _ _ => true
  | .mxStat _ _ => true
  | .mxCfgDispatch _ => true
  | .mxWldDispatch _ => true
  | .mxSwapDispatch _ => true
  | .mxRunDispatch _ => true
  | .planeLoadDone _ => true
  | .vitrineSlotReserve _ => true
  | .tileReady _ => true
  | .vxPop _ _ => true
  | .vxLd _ _ => true
  | .vxSt _ _ => true
  | .vxAdd _ _ => true
  | .vxSub _ _ => true
  | .vxMul _ _ => true
  | .vxMax _ _ => true
  | .vxMin _ _ => true
  | .vxRed _ _ => true
  | .vxSum _ _ => true
  | .vxCpr _ _ => true
  | .vxExp _ _ => true
  | .vxCvt _ _ => true
  | .vxRq _ _ => true
  | .vxAct _ _ => true
  | .vxCmp _ _ => true
  | .vxBcst _ _ => true
  | .vxMin2 _ _ => true
  | .vxSgnx _ _ => true
  | .vxInstrStart _ => true
  | .vxInstrEnd _ => true
  | .legendWrite ini _ _ _ v => iniListed ini && wd 64 v
  | .stOpen _ _ => true
  | .stClose _ _ => true
  | .stNext _ _ => true
  | .stDone _ _ => true
  | .stWait _ _ => true
  | .stStat _ _ => true
  | .tileFetchDone _ _ => true
  | .tileWriteDone _ _ => true
  | .streamEnd _ _ => true
  | .syAdd _ _ => true
  | .sySet _ _ => true
  | .syTest _ _ => true
  | .syWaitge _ _ => true
  | .syWaiteq _ _ => true
  | .syGate _ _ => true
  | .rgPost _ _ => true
  | .rgPop _ _ => true
  | .rgPopw _ _ => true
  | .rgStat _ _ => true
  | .epOpen _ _ => true
  | .epCommit _ _ => true
  | .epSquash _ _ => true
  | .epStat _ _ => true
  | .epochTimeBound _ => true
  | .epochCommit _ => true
  | .epochSquash _ => true
  | .skipJobStart ini _ v => iniListed ini && wd 64 v
  | .skipJobAbort ini _ v => iniListed ini && wd 64 v
  | .skipListsReady _ => true
  | .skipJobDone _ => true
  | .roundTake ini _ v => iniListed ini && wd 64 v
  | .deadlineMarkArrive _ => true
  | .auditControlWrite ini _ v => iniListed ini && wd 64 v
  | .auditFlush ini _ v => iniListed ini && wd 64 v
  | .auditRowSlot _ => true
  | .auditRowEvaluate _ => true
  | .auditWindowComplete _ => true
  | .carouselStart ini _ v => iniListed ini && wd 64 v
  | .carouselGroupStart => true
  | .carouselPass ini _ v => iniListed ini && wd 64 v
  | .carouselStop ini _ v => iniListed ini && wd 64 v
  | .carouselTransferStart _ => true
  | .carouselTransferDone _ => true
  | .carouselStepEntry _ => true
  | .ringEnable ini _ v => iniListed ini && wd 64 v
  | .ringDisable ini _ v => iniListed ini && wd 64 v
  | .hubTick => true
  | .waitTimeout _ _ => true
  | .cellWindowTest ini _ => iniListed ini
  | .cellWindowSet ini _ v => iniListed ini && wd 64 v
  | .cellWindowAdd ini _ v => iniListed ini && wd 64 v
  | .commandAdd ini rec => iniListed ini && wd 40 rec
  | .commandSet ini rec => iniListed ini && wd 40 rec
  | .commandTest ini rec => iniListed ini && wd 40 rec
  | .commandWaitge ini rec => iniListed ini && wd 40 rec
  | .commandWaiteq ini rec => iniListed ini && wd 40 rec
  | .commandPost ini rec => iniListed ini && wd 40 rec
  | .commandPop ini rec => iniListed ini && wd 40 rec
  | .remoteOutcome tag code stamp v => wd 32 tag && wd 4 code && wd 28 stamp && wd 32 v
  | .remoteTimeout tag => wd 32 tag
  | .remoteWaitTimeout tag => wd 32 tag
  | .admissionRequest ini v => iniListed ini && wd 64 v
  | .admissionEvaluate => true
  | .workRelease ini v => iniListed ini && wd 64 v
  | .hostInstruction _ _ => true
  | .cboClean _ _ => true
  | .cboFlush _ _ => true
  | .cboInval _ _ => true
  | .hostFence _ => true
  | .l2Flush ini v => iniListed ini && wd 64 v
  | .l2FlushDone => true
  | .plicClaim ini _ => iniListed ini
  | .plicComplete ini _ v => iniListed ini && wd 64 v
  | .mtimeWrite ini v => iniListed ini && wd 64 v
  | .mtimeCompare _ => true
  | .msipWrite ini _ v => iniListed ini && wd 64 v
  | .setssip ini _ v => iniListed ini && wd 64 v
  | .hostDbell ini v => iniListed ini && wd 64 v
  | .dmiAccess op addr data => decide (op < 3) && wd 7 addr && wd 32 data
  | .superframeBoundary _ => true
  | .rfSfofsWrite ini _ v => iniListed ini && wd 64 v
  | .radioEnable ini _ v => iniListed ini && wd 64 v
  | .rssiSample _ x => decide (x.length = 16) && x.all (wd 12)
  | .qualifierDecision _ => true
  | .formatDecision _ => true
  | .symbolProgress _ => true
  | .capturePublish _ => true
  | .detectorRearm _ => true
  | .rxclkCheck _ _ _ => true
  | .rampDownStart _ _ _ => true
  | .transmitEnd _ _ => true
  | .delivererEnable ini _ v => iniListed ini && wd 64 v
  | .deadlineMarkDeliver _ => true
  | .meterEnable ini _ v => iniListed ini && wd 64 v
  | .shotUpStart _ _ raw _ => raw.all (sgn 16)
  | .shotMeasureEnd _ _ raw _ => raw.all (sgn 16)
  | .pickCommit ini _ _ v => iniListed ini && wd 64 v
  | .pickWindowClose _ _ => true
  | .shotResult _ _ => true
  | .rtdRoundStart _ => true
  | .rtdConversionDone _ code => wd 24 code
  | .accClear ini _ _ v => iniListed ini && wd 64 v
  | .accTimeTick _ => true
  | .pulseStart _ _ => true
  | .pulseEnd _ _ => true
  | .spSample _ codes => decide (codes.length = 6) && codes.all (sgn 24)
  | .pressWrite ini _ v => iniListed ini && wd 64 v
  | .acSample _ _ sd tdm0 tdm1 => decide (sd.length = 8) && sd.all (sgn 24) && decide (tdm0.length = 8) && tdm0.all (wd 24) && decide (tdm1.length = 8) && tdm1.all (wd 24)
  | .framePublish _ _ => true
  | .groupEnable ini _ _ v => iniListed ini && wd 64 v
  | .groupDisable ini _ _ v => iniListed ini && wd 64 v
  | .sdCfgWrite ini _ _ v => iniListed ini && wd 64 v
  | .tdmCfgWrite ini _ _ v => iniListed ini && wd 64 v
  | .vbatRise _ _ => true
  | .meridianSecond _ => true
  | .crystalMiss _ => true
  | .vbatBrownout _ => true
  | .meridianHalt ini _ v => iniListed ini && wd 64 v
  | .meridianResume ini _ v => iniListed ini && wd 64 v
  | .meridianSet ini _ _ v => iniListed ini && wd 64 v
  | .alarmFire _ _ => true
  | .tsFadjWrite ini v => iniListed ini && wd 64 v
  | .tsSlewWrite ini v => iniListed ini && wd 64 v
  | .tsStepWrite ini v => iniListed ini && wd 64 v
  | .tsCtlWrite ini v => iniListed ini && wd 64 v
  | .ppsCapture _ off => decide (off < 625 * 2 ^ 40)
  | .ppsMissTimeout => true
  | .ttArm ini _ _ v => iniListed ini && wd 64 v
  | .ttDisarm ini _ _ v => iniListed ini && wd 64 v
  | .timetableFire _ => true
  | .linkUp _ _ => true
  | .linkDown _ _ _ _ => true
  | .helloSend _ _ => true
  | .frameReceive _ _ frame => decide (frame.length ≤ 2072)
  | .helloReceive _ => true
  | .topoSend _ => true
  | .topoReceive _ => true
  | .topoEntryExpire _ uid => wd 64 uid
  | .spanRepair _ _ => true
  | .election _ => true
  | .trkStnWrite ini _ v => iniListed ini && wd 64 v
  | .reelect ini _ v => iniListed ini && wd 64 v
  | .ttExchangeStart _ _ => true
  | .ttReqReceive _ => true
  | .ttRespReceive _ => true
  | .ttExchangeLost _ _ => true
  | .slockTimeout _ => true
  | .asymmetryCalibrate ini _ v => iniListed ini && wd 64 v
  | .remotePostReceive _ => true
  | .remoteCellOpReceive _ => true
  | .remoteCancelReceive _ => true
  | .remoteWaitExpire _ stn tag => wd 10 stn && wd 32 tag
  | .bulkSend _ => true
  | .bulkReceive _ => true
  | .cspTransferStart ini _ _ v => iniListed ini && wd 64 v
  | .cspAbort ini _ _ v => iniListed ini && wd 64 v
  | .cspUnitStart _ _ _ di => decide (di.length ≤ 64)
  | .cspWaitTimeout _ _ => true
  | .cspTransferEnd _ _ => true
  | .cspPush ini _ _ v => iniListed ini && wd 64 v
  | .cspPop ini _ _ => iniListed ini
  | .gpioEdge _ _ _ => true
  | .gpioSet ini _ v => iniListed ini && wd 64 v
  | .gpioClr ini _ v => iniListed ini && wd 64 v
  | .flashConfigWrite ini _ _ v => iniListed ini && wd 64 v
  | .flashWindowRead ini addr size => iniListed ini && wd 40 addr && sizeOk size
  | .flashTransactionEnd _ _ => true
  | .flashCommand ini _ _ v => iniListed ini && wd 64 v
  | .flashPoll _ _ _ chg => (chg.all fun p => wd 29 p.1)
  | .flashPollTimeout _ _ => true
  | .watchdogKick ini _ v => iniListed ini && wd 64 v
  | .watchdogEnable ini _ v => iniListed ini && wd 64 v
  | .watchdogUnit _ => true
  | .watchdogWarn _ => true
  | .watchdogExpire _ => true
  | .sysbusAccess op addr data => decide (op.val < 3) && wd 40 addr && wd 32 data
  | .boundaryScanUpdate _ ir _ => wd 5 ir
  | .thermalMeasure cd io => decide (cd.length = 8) && cd.all (sgn 16) && decide (io.length = 2) && io.all (sgn 16)
  | .writeAcknowledge ini => iniListed ini
  | .islandRelock _ => true
  | .padRailRecovery _ _ => true
  | .rampUpStart _ _ => true
  | .slewComplete => true
  | .frameTransmitted _ _ => true
  | .commandSessionEnd _ _ data chg => decide (data.length ≤ 512) && (chg.all fun p => wd 29 p.1)

end Sys2Proof
end

