-- ==== Sys2Proof/Safety.lean ====
section
/-!
DEFINITION. The terms in which the statements speak: what a good outcome is, when a command can act, and
what it leaves alone.
-/

namespace Sys2Proof.Machine

/-- The canonical form of memory: addresses strictly rising, no byte that reads as an unlisted one. -/
abbrev Memory.wf (m : List Host.Cell) : Bool := SMap.canon (0 : Byte) m

/-- The sparse maps of the device are in their canonical form: memory, and the keys of registers, of held
halves and outstanding writes, of cells and rings, of caches, control registers and the debug module of the
host, of ledgers and of fuses strictly rising. -/
def Dev.wf (s : Dev) : Bool :=
  Memory.wf s.mem && SMap.rising none s.regs && SMap.rising none s.bus.outw && SMap.rising none s.bus.rdHold
    && SMap.rising none s.bus.wrHold && SMap.rising none s.hub.cells && SMap.rising none s.hub.rings
    && SMap.rising none s.host.cache && SMap.rising none s.host.dm
    && (List.finRange 4).all (fun c => SMap.rising none (vget s.host.core c).csr)
    && (List.finRange 6).all (fun g =>
      SMap.rising none (vget s.gal g).leg && SMap.rising none ((vget s.gal g).legCk.getD []))
    && (List.finRange 2).all (fun d => SMap.rising none (vget s.die d).otp)

/-- A run is safe while every step answers a next state. -/
def safeOutcome : Host.Outcome State Fault Refusal → Prop
  | .next _ => True
  | _ => False

/-- `o` is a next state with the queue of `s` and a device of which `p` holds. -/
def answers (o : Host.Outcome State Fault Refusal) (s : State) (p : Dev → Prop) : Prop :=
  ∃ t, o = .next { s with dev := t } ∧ p t

/-! ### Instructions of a core -/

/-- The core exists, runs, waits for nothing and is not on its first step unit after a resume. -/
def Dev.calm (s : Dev) (c : Fin 8) : Bool :=
  let x := vget s.core c
  !(c.val == 7 && !s.fitted 1) && x.run == .running && x.stall == .none && x.load.isNone && !x.resumed

/-- The instruction of form `k` at the core's pc is executed, and its word and place raise `e`: nothing
else is due first, the fetch is not refused and no breakpoint stops it. -/
def Dev.readyWith (s : Dev) (c : Fin 8) (k : Form) (e : Option Exc) : Bool :=
  let x := vget s.core c
  s.calm c && !s.coreHeld c && (s.fetchCause c).isNone && !s.execBkpt c x.pc.toNat
    && x.formExc c k == e && !s.epFull c

/-- The instruction of form `k` at the core's pc runs: its word and place raise nothing. -/
def Dev.ready (s : Dev) (c : Fin 8) (k : Form) : Bool := s.readyWith c k none

/-- All that differs in `t` is core `c`, and the count of instructions of the epoch it runs in. -/
def Dev.onlyCore (s t : Dev) (c : Fin 8) : Prop :=
  t = { s with core := t.core, gal := t.gal } ∧ (∀ i, i ≠ c → vget t.core i = vget s.core i) ∧
    ∀ g, vget t.gal g = if CoreId.gal c = some g ∧ s.inEpoch c = true
      then { vget s.gal g with ep := { (vget s.gal g).ep with instr := (vget s.gal g).ep.instr + 1 } }
      else vget s.gal g

/-- What a committed instruction leaves of its core: all but the scalar registers, the path and the count
of instructions (R105, R137). -/
def CoreSt.kept (x y : CoreSt) : Prop :=
  y = { x with
    sr := y.sr, pc := y.pc, slot := y.slot, lc := y.lc, shadow := none
    charted := match x.shadow with | some (_, n) => n | none => x.charted
    instret := (x.instret + 1) % 2 ^ 64, stall := .none, load := none, mustRun := false, intPoint := false }

/-- Register `d` takes `v`, every other register stays, and s0 reads 0 (R105). -/
def CoreSt.wrote (x y : CoreSt) (d : Fin 32) (v : Word) : Prop :=
  ∀ r, y.reg r = if r = d ∧ r ≠ 0 then v else x.reg r

/-- Where the path goes after an instruction that is no branch (R116, R120): out of a delay slot; back to
the start of the innermost active loop that ends here and has passes left; else on. -/
def CoreSt.pathPc (x : CoreSt) : Word :=
  match x.slot with
  | some (_, p) => p
  | none =>
    if vget x.lc 1 > 1 ∧ vget x.le 1 = x.pc.toNat then BitVec.ofNat 32 (vget x.ls 1)
    else if vget x.lc 0 > 1 ∧ vget x.le 0 = x.pc.toNat then BitVec.ofNat 32 (vget x.ls 0)
    else x.pc + 4

/-- LCn after an instruction that is no branch and stands in no slot (R120): one pass fewer at the level
that loops back, 0 at a level whose last pass ends, the same elsewhere. -/
def CoreSt.pathLc (x : CoreSt) (n : Fin 2) : Nat :=
  let ends := fun (k : Fin 2) => vget x.lc k ≠ 0 ∧ vget x.le k = x.pc.toNat
  let back1 := vget x.lc 1 > 1 ∧ vget x.le 1 = x.pc.toNat
  if ends n ∧ (n = 1 ∨ ¬ back1) then vget x.lc n - 1 else vget x.lc n

/-- The register instructions of the ALU group with the result R111 and R112 give, on numbers. -/
def aluRow : Instr → Option (Fin 8 × RF × Bool × (Word → Word → Int))
  | .add c f => some (c, f, true, fun a b => a.toNat + b.toNat)
  | .sub c f => some (c, f, true, fun a b => (a.toNat : Int) - b.toNat)
  | .and c f => some (c, f, true, fun a b => a.toNat &&& b.toNat)
  | .or c f => some (c, f, true, fun a b => a.toNat ||| b.toNat)
  | .xor c f => some (c, f, true, fun a b => a.toNat ^^^ b.toNat)
  | .sll c f => some (c, f, true, fun a b => a.toNat * 2 ^ (b.toNat % 32))
  | .srl c f => some (c, f, true, fun a b => a.toNat / 2 ^ (b.toNat % 32))
  | .sra c f => some (c, f, true, fun a b => a.toInt / 2 ^ (b.toNat % 32))
  | .slt c f => some (c, f, true, fun a b => if a.toInt < b.toInt then 1 else 0)
  | .sltu c f => some (c, f, true, fun a b => if a.toNat < b.toNat then 1 else 0)
  | .slli c f => some (c, f, true, fun a _ => a.toNat * 2 ^ f.sb.val)
  | .srli c f => some (c, f, true, fun a _ => a.toNat / 2 ^ f.sb.val)
  | .srai c f => some (c, f, true, fun a _ => a.toInt / 2 ^ f.sb.val)
  | .mul c f => some (c, f, true, fun a b => a.toNat * b.toNat)
  | .mulh c f => some (c, f, true, fun a b => a.toInt * b.toInt / 2 ^ 32)
  | .mulhu c f => some (c, f, true, fun a b => a.toNat * b.toNat / 2 ^ 32)
  | .div c f => some (c, f, true, fun a b => if b = 0 then -1 else a.toInt.tdiv b.toInt)
  | .divu c f => some (c, f, true, fun a b => if b = 0 then -1 else a.toNat / b.toNat)
  | .rem c f => some (c, f, true, fun a b => if b = 0 then a.toInt else a.toInt.tmod b.toInt)
  | .remu c f => some (c, f, true, fun a b => if b = 0 then a.toNat else a.toNat % b.toNat)
  | .min c f => some (c, f, true, fun a b => min a.toInt b.toInt)
  | .max c f => some (c, f, true, fun a b => max a.toInt b.toInt)
  | .minu c f => some (c, f, true, fun a b => min a.toNat b.toNat)
  | .maxu c f => some (c, f, true, fun a b => max a.toNat b.toNat)
  | .clz c f => some (c, f, f.sb == 0, fun a _ => ((List.range 32).filter fun i => a.toNat < 2 ^ (31 - i)).length)
  | .popc c f => some (c, f, f.sb == 0, fun a _ => ((List.range 32).filter fun i => a.toNat.testBit i).length)
  | _ => none

/-- The immediate instructions with the result R113 gives. -/
def immRow : Instr → Option (Fin 8 × IF × Bool × (Word → Int))
  | .addi c f => some (c, f, true, fun a => a.toNat + f.imm.toInt)
  | .andi c f => some (c, f, true, fun a => a.toNat &&& f.imm.toNat)
  | .ori c f => some (c, f, true, fun a => a.toNat ||| f.imm.toNat)
  | .xori c f => some (c, f, true, fun a => a.toNat ^^^ f.imm.toNat)
  | .slti c f => some (c, f, true, fun a => if a.toInt < f.imm.toInt then 1 else 0)
  | .sltiu c f => some (c, f, true, fun a => if (a.toNat : Int) < f.imm.toInt % 2 ^ 32 then 1 else 0)
  | .lui c z f => some (c, f, z == 0, fun _ => f.imm.toNat * 65536)
  | _ => none

/-- The conditional branches with the condition R116 gives. -/
def branchRow : Instr → Option (Fin 8 × SF × (Word → Word → Prop))
  | .beq c f => some (c, f, fun a b => a = b)
  | .bne c f => some (c, f, fun a b => a ≠ b)
  | .blt c f => some (c, f, fun a b => a.toInt < b.toInt)
  | .bge c f => some (c, f, fun a b => b.toInt ≤ a.toInt)
  | .bltu c f => some (c, f, fun a b => a.toNat < b.toNat)
  | .bgeu c f => some (c, f, fun a b => b.toNat ≤ a.toNat)
  | _ => none

/-- The core has entered its handler (R150): EPC, CAUSE and BADADDR as given, PSUP and PIE take SUP and IE,
SUP is 1 and IE 0, and the pc is EVEC. -/
def CoreSt.entered (x y : CoreSt) (epc cause bad : Nat) : Prop :=
  y = { x with
    epc := epc, cause := cause, badaddr := bad, status := 1 + 4 * bit x.status 0 + 8 * bit x.status 1
    pc := BitVec.ofNat 32 x.evec, slot := none, shadow := none, stall := .none, load := none
    intPoint := false, mustRun := false }

/-- CAUSE of a synchronous exception outside an epoch: DS in a delay slot; SH with the old and the new
mode in a MODESW shadow; the code (R149, R157). -/
def CoreSt.excCause (x : CoreSt) (code : Nat) : Nat :=
  code + (if x.slot.isSome then 2 ^ 30 else 0)
    + match x.shadow with
      | some (o, n) => 2 ^ 29 + b2n o * 2 ^ 28 + b2n n * 2 ^ 27
      | none => 0

/-- EPC of a synchronous exception: the branch when it arises in a delay slot (R142). -/
def CoreSt.excPc (x : CoreSt) : Nat :=
  match x.slot with
  | some (b, _) => b.toNat
  | none => x.pc.toNat

/-- Core `c` takes exception `code` outside an epoch: nothing but the core and its count of exceptions
changes. -/
def Dev.trapped (s t : Dev) (c : Fin 8) (code bad : Nat) : Prop :=
  t = { s.count R.EXC_CNT 1 c.val with core := t.core } ∧ (∀ i, i ≠ c → vget t.core i = vget s.core i) ∧
    (vget s.core c).entered (vget t.core c) (vget s.core c).excPc ((vget s.core c).excCause code) bad

/-- Form of a branch, jump or JALR: not in a slot, not at a loop's end or before it (R141, R145). -/
def branchForm : Form := { noSlot := true, noEnd := true, branch := true }

/-- Form of the loop instructions and of MODESW's and ERET's places: not in a slot or shadow, not at a
loop's end. -/
def loopForm : Form := { noSlot := true, noEnd := true }

/-- The control registers that a CSR instruction can write whole, and the bits they hold (R136). -/
def csrBits (c : Fin 8) (n : Nat) : Option Nat :=
  if n = 0 then some 0xF
  else if n = 2 then some 0xFE0000FF
  else if n = 1 ∨ n = 4 ∨ n = 0x11 ∨ n = 0x12 ∨ n = 0x14 ∨ n = 0x15 then some 0xFFFFFFFC
  else if n = 3 ∨ n = 5 ∨ n = 6 ∨ n = 0x10 ∨ n = 0x13 then some 0xFFFFFFFF
  else if n = 8 then some (if c.val < 6 then 0xFF else 0x1FFF)
  else if n = 0x18 then some 0x3FF
  else none

/-- The CSR instructions with the value each writes from the old value and sa, and whether it writes
(R121). -/
def csrRow : Instr → Option (Fin 8 × CF × Bool × (Nat → Nat → Nat))
  | .csrrw c f => some (c, f, true, fun _ v => v)
  | .csrrs c f => some (c, f, f.sa != 0, fun old v => old ||| v)
  | .csrrc c f => some (c, f, f.sa != 0, fun old v => old &&& (2 ^ 32 - 1 - v))
  | _ => none

/-- The form of each scalar instruction of a core but JALR (R109, R141, R145, R156). -/
def formRow (i : Instr) : Option (Fin 8 × Form) :=
  let sys := fun (f : RF) (b : Bool) => f.sd == 0 && f.sa == 0 && b
  match aluRow i, immRow i, branchRow i, csrRow i with
  | some (c, _, l, _), _, _, _ => some (c, { legal := l })
  | _, some (c, _, l, _), _, _ => some (c, { legal := l })
  | _, _, some (c, _, _), _ => some (c, branchForm)
  | _, _, _, some (c, f, _, _) => some (c, { legal := f.z.val == 0 })
  | _, _, _, _ =>
    match i with
    | .j c _ | .jal c _ => some (c, branchForm)
    | .loopi c _ _ e => some (c, { loopForm with legal := e.val != 0 })
    | .loopr c _ _ z e => some (c, { loopForm with legal := z.val == 0 && e.val != 0 })
    | .lb c _ | .lh c _ | .lw c _ | .lbu c _ | .lhu c _ => some (c, {})
    | .sb c _ | .sh c _ | .sw c _ => some (c, {})
    | .ecall c f | .ebreak c f => some (c, { legal := sys f (f.sb == 0), noSlot := true })
    | .eret c f => some (c, { loopForm with legal := sys f (f.sb == 0), priv := true })
    | .wfi c f => some (c, { legal := sys f (f.sb == 0), priv := true })
    | .fence c f => some (c, { legal := sys f (decide (f.sb.val < 4)) })
    | .ifence c f => some (c, { legal := sys f (f.sb == 0) })
    | .modesw c f => some (c, { loopForm with legal := sys f (decide (f.sb.val < 2)), gx := true, priv := true })
    | _ => none

/-! ### Loads and stores -/

/-- The load instructions with their bytes and whether the value is sign-extended (R114). -/
def loadRow : Instr → Option (Fin 8 × IF × Nat × Bool)
  | .lb c f => some (c, f, 1, true)
  | .lh c f => some (c, f, 2, true)
  | .lw c f => some (c, f, 4, false)
  | .lbu c f => some (c, f, 1, false)
  | .lhu c f => some (c, f, 2, false)
  | _ => none

/-- The store instructions with their bytes (R114). -/
def storeRow : Instr → Option (Fin 8 × SF × Nat)
  | .sb c f => some (c, f, 1)
  | .sh c f => some (c, f, 2)
  | .sw c f => some (c, f, 4)
  | _ => none

/-- `n` loaded bytes as a register value (R114). -/
def loaded (n : Nat) (signed : Bool) (v : Nat) : Word :=
  if signed then (BitVec.ofNat (8 * n) v).signExtend 32 else BitVec.ofNat 32 (v % 2 ^ (8 * n))

/-- A load or store of `n` bytes at issued address `ea` may act: it is allowed, aligned and no data
breakpoint matches. -/
def Dev.addrOk (s : Dev) (c : Fin 8) (ea n : Nat) (st : Bool) : Bool :=
  let x := vget s.core c
  let a := x.toDev ea
  !(bit x.status 0 == 0 && decide (0x10000000 ≤ a) && decide (a ≤ 0x3FFFFFFF)) && ea % n == 0
    && !s.dataBkpt c ea n st

/-- A word holds no error that no read has met. -/
def Dev.clean (s : Dev) (a n : Nat) : Bool := (s.eccHits a n).isEmpty

/-! ### Register commands -/

/-- A write of the whole of register `r` by `ini` is accepted. -/
def Dev.accepts (s : Dev) (ini : Nat) (r : RegDef) (k : Nat := 0) (i : Nat := 0) : Bool :=
  (s.refusal ini (r.addr k i 0) (r.w / 8) .wr).isNone

/-- A read of the whole of register `r` by `ini` is accepted. -/
def Dev.readable (s : Dev) (ini : Nat) (r : RegDef) (k : Nat := 0) (i : Nat := 0) : Bool :=
  (s.refusal ini (r.addr k i 0) (r.w / 8) .rd).isNone

/-- What the last access of `ini` returned: no error and the value `v`. -/
def Dev.returned (t : Dev) (ini v : Nat) : Prop :=
  SMap.get ⟨0, true, true⟩ t.bus.resp ini = ⟨v, false, false⟩

/-! ### Gallery-extension instructions -/

/-- Every scalar register of a core reads as before. -/
def CoreSt.same (x y : CoreSt) : Prop := ∀ r, y.reg r = x.reg r

/-- Gallery `g` becomes `f` of itself, an instruction of its curator is counted in its open epoch, and all
else that differs is its curator. -/
def Dev.onlyGx (s t : Dev) (g : Fin 6) (f : GalSt → GalSt) : Prop :=
  t = { s with core := t.core, gal := t.gal } ∧ (∀ i, i ≠ curator g → vget t.core i = vget s.core i) ∧
    (∀ h, h ≠ g → vget t.gal h = vget s.gal h) ∧
    vget t.gal g =
      let y := f (vget s.gal g)
      if s.inEpoch (curator g) then { y with ep := { y.ep with instr := y.ep.instr + 1 } } else y

/-- The same, and the curator's instruction has committed. -/
def Dev.gxDone (s t : Dev) (g : Fin 6) (f : GalSt → GalSt) : Prop :=
  s.onlyGx t g f ∧ (s.cur g).kept (t.cur g) ∧ (t.cur g).pc = (s.cur g).pathPc

/-- The curator of `g` has begun to wait with stall `st`, gallery `g` becoming `f` of itself. -/
def Dev.gxWaits (s t : Dev) (g : Fin 6) (st : Stall) (f : GalSt → GalSt := id) : Prop :=
  s.onlyGx t g f ∧ t.cur g = { s.cur g with stall := st }

/-- Only gallery `g` differs, and it is `f` of itself. -/
def Dev.onlyGal (s t : Dev) (g : Fin 6) (f : GalSt → GalSt) : Prop :=
  t = { s with gal := t.gal } ∧ (∀ h, h ≠ g → vget t.gal h = vget s.gal h) ∧ vget t.gal g = f (vget s.gal g)

/-- A command that is queued for the array, as issued (R173). -/
def GalSt.issued (x : GalSt) (k : ArrKind) (i : ArrIssue) : GalSt :=
  { x with
    iseq := x.iseq + 1
    arr := { x.arr with queue := x.arr.queue ++ [⟨k, x.ep.isOpen, x.iseq⟩], iss := i } }

/-- An instruction that is queued for the vector engine, as issued (R222). -/
def GalSt.vxIssued (x : GalSt) (v : VxInstr) : GalSt :=
  { x with iseq := x.iseq + 1, vec := { x.vec with waiting := x.vec.waiting ++ [{ v with n := x.iseq }] } }

/-- Container `e` of a tile. -/
def Tile.elem (t : Tile) (e : Nat) : Nat := t.dense.getD e 0

/-- The VX instructions: whether the fields are in range, the instruction as it enters the engine, and the
operand condition (R129, R198, R225, R235, R236). -/
def vxRow (g : Fin 6) : Instr → Option (Fin 8 × Bool × (CoreSt → VxInstr) × (Dev → CoreSt → Bool))
  | .vxPop c f => some (c, tOk f.a && f.b == 0 && f.c == 0 && f.d == 0,
      fun _ => vxOf .pop f.a 0 0 0 0 0, fun _ _ => true)
  | .vxLd c f => some (c, tOk f.a && f.c == 0 && decide (f.d.val ≤ 4),
      fun x => vxOf .ld f.a 0 0 0 f.d.val (x.toDev (x.reg f.b).toNat),
      fun _ x =>
        let a := x.toDev (x.reg f.b).toNat
        decide (a % 64 = 0 ∧ galStore g ≤ a ∧ a + 16384 * fmtBytes f.d.val ≤ galStore g + 0x1000000))
  | .vxSt c f => some (c, tOk f.a && f.c == 0 && decide (f.d.val ≤ 4),
      fun x => vxOf .st 0 f.a 0 0 f.d.val (x.toDev (x.reg f.b).toNat),
      fun _ x =>
        let a := x.toDev (x.reg f.b).toNat
        decide (a % 64 = 0 ∧ galStore g ≤ a ∧ a + 16384 * fmtBytes f.d.val ≤ galStore g + 0x1000000))
  | .vxAdd c f => some (vx3Row .add c f)
  | .vxSub c f => some (vx3Row .sub c f)
  | .vxMul c f => some (vx3Row .mul c f)
  | .vxMax c f => some (vx3Row .max c f)
  | .vxMin c f => some (vx3Row .min c f)
  | .vxRed c f => some (c, tOk f.a && tOk f.b && f.c == 0 && decide (f.d.val % 8 ≤ 4 ∧ f.d.val / 8 % 4 < 3),
      fun _ => vxOf .red f.a f.b 0 0 f.d.val 0, fun _ _ => true)
  | .vxSum c f => some (c, tOk f.b && f.c == 0 && decide (f.d.val % 8 ≤ 4 ∧ f.d.val / 8 ≤ 4),
      fun _ => vxOf .sum 0 f.b 0 f.a f.d.val 0, fun _ _ => true)
  | .vxCpr c f => some (vx3Row .cpr c f)
  | .vxExp c f => some (vx3Row .exp c f)
  | .vxCvt c f => some (c, tOk f.a && tOk f.b && f.c == 0 && decide (f.d.val % 8 ≤ 4 ∧ f.d.val / 8 ≤ 4),
      fun _ => vxOf .cvt f.a f.b 0 0 f.d.val 0, fun _ _ => true)
  | .vxRq c f => some (c, tOk f.a && tOk f.b && decide (f.d.val < 2),
      fun x => vxOf .rq f.a f.b 0 0 f.d.val (x.reg f.c).toNat,
      fun s x => decide ((x.reg f.c).toNat < 1024) && rqEntryOk (s.leg g (x.reg f.c).toNat) f.d.val
        && rqTagOk (s.tagOf g (tr f.b)))
  | .vxAct c f => some (c, tOk f.a && tOk f.b && f.c == 0 && decide (f.d.val < 12),
      fun _ => vxOf .act f.a f.b 0 0 f.d.val 0, fun s _ => actTagOk f.d.val (s.tagOf g (tr f.b)))
  | .vxCmp c f => some (c, tOk f.a && tOk f.b && tOk f.c && decide (f.d.val % 8 ≤ 4 ∧ f.d.val < 32),
      fun _ => vxOf .cmp f.a f.b f.c 0 f.d.val 0, fun _ _ => true)
  | .vxBcst c f => some (c, tOk f.a && f.c == 0 && decide (f.d.val ≤ 4),
      fun x => vxOf .bcst f.a 0 0 0 f.d.val (x.reg f.b).toNat, fun _ _ => true)
  | .vxMin2 c f => some (c, tOk f.a && tOk f.b && f.c == 0 && decide (f.d.val < 2),
      fun _ => vxOf .min2 f.a f.b 0 0 f.d.val 0, fun _ _ => true)
  | .vxSgnx c f => some (c, tOk f.a && tOk f.b && tOk f.c && decide (f.d.val < 2),
      fun _ => vxOf .sgnx f.a f.b f.c 0 f.d.val 0, fun _ _ => true)
  | _ => none
where
  vx3Row (o : VxSub) (c : Fin 8) (f : XF) : Fin 8 × Bool × (CoreSt → VxInstr) × (Dev → CoreSt → Bool) :=
    (c, tOk f.a && tOk f.b && tOk f.c && decide (f.d.val ≤ 4),
      fun _ => vxOf o f.a f.b f.c 0 f.d.val 0, fun _ _ => true)

/-! ### Trunk -/

/-- The link is up, sends nothing, has nothing to send and is not wrapped. -/
def LinkSt.quiet (x : LinkSt) : Bool :=
  x.up && x.tx.isNone && x.wrap.isNone && x.own == Vector.replicate 4 [] && x.transit == Vector.replicate 4 []

/-- The link sends a frame of which `p` holds. -/
def Dev.sends (t : Dev) (d l : Fin 2) (p : List Byte → Prop) : Prop :=
  ∃ f, (t.lnk d l).tx = some f ∧ p f.bytes

/-- The oldest delivered frame of the trunk has this class and type, and `fs` are behind it. -/
def Dev.inHead (s : Dev) (d : Fin 2) (f : InFrame) (fs : List InFrame) (cls typ : Nat) : Prop :=
  (vget s.trk d).inbox = f :: fs ∧ fCls f.bytes = cls ∧ fTyp f.bytes = typ

/-! ### Host cores -/

/-- A fetch of host core `c` at physical address `a` is permitted and meets no error. -/
def Dev.hostFetchOk (s : Dev) (c : Fin 4) (a : Nat) : Bool :=
  decide (a < 2 ^ 40) && (s.hc c).pmpOk .m .x a 2 && (s.refusal c.val a 2 .fetch).isNone
    && !(a / 64 ∈ (s.hc c).iperr) && (s.eccHits (64 * (a / 64)) 64).isEmpty && !s.poisoned (64 * (a / 64)) 64
    && (match regionOf a with | some (.flash _) => false | _ => true)

/-- Host core `c` executes the instruction of `len` bytes at its pc: it runs in machine mode without MPRV
and is not stepped, no interrupt is due, no trigger matches and the fetch succeeds. -/
def Dev.hostReady (s : Dev) (c : Fin 4) (len : Nat) : Bool :=
  let h := s.hc c
  h.run == .running && h.priv == .m && !h.ms 17 && !h.step
    && (s.hostInt c).isNone && (h.trigHit .x h.pc.toNat).isNone && s.hostFetchOk c h.pc.toNat
    && (len == 2 || s.hostFetchOk c (h.pc.toNat + 2))

/-- All that differs is host core `c`, and how far the free choices have advanced. -/
def Dev.onlyHost (s t : Dev) (c : Fin 4) : Prop :=
  t = { s with host := { s.host with core := t.host.core }, free := t.free } ∧ ∀ i, i ≠ c → t.hc i = s.hc i

/-- What an instruction of a host core leaves of it: all but x registers, pc and the counters MCYCLE, which
advances by a count that is free, and MINSTRET, which counts it (mcountinhibit). -/
def HostCore.keeps (h k : HostCore) : Prop :=
  k = { h with x := k.x, pc := k.pc, csr := k.csr, wfi := false } ∧
  ∀ n, n ≠ 0xB00 → k.c n = if n = 0xB02 ∧ bit (h.c 0x320) 2 = 0 then (h.c n + 1) % 2 ^ 64 else h.c n

/-- x`d` takes `v`, and x0 reads 0. -/
def HostCore.wrote (h k : HostCore) (d : Nat) (v : DWord) : Prop :=
  ∀ r, r < 32 → k.rx r = if r = d ∧ r ≠ 0 then v else h.rx r

/-- A trap into machine mode of a core that was in it: mepc, mcause, mtval, the stack of mstatus, and mtvec. -/
def HostCore.trappedM (h k : HostCore) (cause tval : Nat) : Prop :=
  k.c 0x341 = h.pc.toNat ∧ k.c 0x342 = cause ∧ k.c 0x343 = tval ∧ bit (k.c 0x300) 3 = 0 ∧
    bit (k.c 0x300) 7 = bit (h.c 0x300) 3 ∧ bits (k.c 0x300) 12 11 = 3 ∧ k.priv = .m ∧
    k.pc = BitVec.ofNat 64 (h.c 0x305 / 4 * 4) ∧ k.x = h.x ∧ k.f = h.f ∧ k.c 0xB02 = h.c 0xB02

/-- An I-type word. -/
def hostI (op f3 : Nat) (rd rs1 : Fin 32) (imm : BitVec 12) : BitVec 32 :=
  BitVec.ofNat 32 (imm.toNat * 2 ^ 20 + rs1.val * 2 ^ 15 + f3 * 2 ^ 12 + rd.val * 2 ^ 7 + op)

/-- An S-type word. -/
def hostS (f3 : Nat) (rs1 rs2 : Fin 32) (imm : BitVec 12) : BitVec 32 :=
  BitVec.ofNat 32 (imm.toNat / 32 * 2 ^ 25 + rs2.val * 2 ^ 20 + rs1.val * 2 ^ 15 + f3 * 2 ^ 12
    + imm.toNat % 32 * 2 ^ 7 + 0x23)

/-- A word of the OP group: funct7, funct3. -/
def hostR (f7 f3 : Nat) (rd rs1 rs2 : Fin 32) : BitVec 32 :=
  BitVec.ofNat 32 (f7 * 2 ^ 25 + rs2.val * 2 ^ 20 + rs1.val * 2 ^ 15 + f3 * 2 ^ 12 + rd.val * 2 ^ 7 + 0x33)

/-- The instructions of the OP group of RV64IM with what each computes, on numbers. -/
def hostOp : List (Nat × Nat × (DWord → DWord → Int)) :=
  [(0x00, 0, fun a b => a.toNat + b.toNat), (0x20, 0, fun a b => (a.toNat : Int) - b.toNat),
   (0x00, 1, fun a b => a.toNat * 2 ^ (b.toNat % 64)), (0x00, 2, fun a b => if a.toInt < b.toInt then 1 else 0),
   (0x00, 3, fun a b => if a.toNat < b.toNat then 1 else 0), (0x00, 4, fun a b => a.toNat ^^^ b.toNat),
   (0x00, 5, fun a b => a.toNat / 2 ^ (b.toNat % 64)), (0x20, 5, fun a b => a.toInt / 2 ^ (b.toNat % 64)),
   (0x00, 6, fun a b => a.toNat ||| b.toNat), (0x00, 7, fun a b => a.toNat &&& b.toNat),
   (0x01, 0, fun a b => a.toNat * b.toNat), (0x01, 1, fun a b => a.toInt * b.toInt / 2 ^ 64),
   (0x01, 2, fun a b => a.toInt * b.toNat / 2 ^ 64), (0x01, 3, fun a b => a.toNat * b.toNat / 2 ^ 64),
   (0x01, 4, fun a b => if b = 0 then -1 else a.toInt.tdiv b.toInt),
   (0x01, 5, fun a b => if b = 0 then -1 else a.toNat / b.toNat),
   (0x01, 6, fun a b => if b = 0 then a.toInt else a.toInt.tmod b.toInt),
   (0x01, 7, fun a b => if b = 0 then a.toNat else a.toNat % b.toNat)]

end Sys2Proof.Machine
end

