-- ==== Sys2Proof/Certificates/Slice0/Obligations.lean ====
section
/-!
DEFINITION. The statements for the provers.
-/

open Sys2Proof Sys2Proof.Machine

/-- R105, R111, R112: an ALU instruction writes its result modulo 2^32 into sd, where a write of s0 is
discarded, and changes nothing else but the path and the instruction counts.
R113: an immediate instruction likewise.
R116, R120: where the path goes after an ALU or immediate instruction, and the loop counts. -/
def Obligations.PlainInstructions : Prop :=
  (∀ (i : Instr) (c : Fin 8) (f : RF) (legal : Bool) (g : Word → Word → Int) (s : State),
      aluRow i = some (c, f, legal, g) → s.dev.ready c { legal := legal } = true →
      answers (exec i s) s fun t =>
        let x := vget s.dev.core c
        let y := vget t.core c
        x.wrote y f.sd (BitVec.ofInt 32 (g (x.reg f.sa) (x.reg f.sb))) ∧ x.kept y ∧ s.dev.onlyCore t c) ∧
  (∀ (i : Instr) (c : Fin 8) (f : IF) (legal : Bool) (g : Word → Int) (s : State),
      immRow i = some (c, f, legal, g) → s.dev.ready c { legal := legal } = true →
      answers (exec i s) s fun t =>
        let x := vget s.dev.core c
        let y := vget t.core c
        x.wrote y f.sd (BitVec.ofInt 32 (g (x.reg f.sa))) ∧ x.kept y ∧ s.dev.onlyCore t c) ∧
  (∀ (i : Instr) (c : Fin 8) (legal : Bool) (s : State),
      ((∃ f g, aluRow i = some (c, f, legal, g)) ∨ ∃ f g, immRow i = some (c, f, legal, g)) →
      s.dev.ready c { legal := legal } = true →
      answers (exec i s) s fun t =>
        let x := vget s.dev.core c
        let y := vget t.core c
        y.pc = x.pathPc ∧ y.slot = none ∧
          ∀ n, vget y.lc n = if x.slot.isSome then vget x.lc n else x.pathLc n)

/-- R116: a conditional branch is followed by its slot, and then by its target or by the instruction after
the slot.
R116 to R118: J, JAL and JALR; the link is the address after the slot, JALR reads sa first, and one that names one
register but s0 twice is ILLEGAL. -/
def Obligations.BranchesAndJumps : Prop :=
  (∀ (i : Instr) (c : Fin 8) (f : SF) (p : Word → Word → Prop) (s : State),
      branchRow i = some (c, f, p) → s.dev.ready c branchForm = true →
      answers (exec i s) s fun t =>
        let x := vget s.dev.core c
        let y := vget t.core c
        let tgt := BitVec.ofInt 32 (x.pc.toNat + 4 + f.off.toInt * 4)
        y.pc = x.pc + 4 ∧ (p (x.reg f.sa) (x.reg f.sb) → y.slot = some (x.pc, tgt)) ∧
          (¬ p (x.reg f.sa) (x.reg f.sb) → y.slot = some (x.pc, x.pc + 8)) ∧
          (∀ r, y.reg r = x.reg r) ∧ y.lc = x.lc ∧ x.kept y ∧ s.dev.onlyCore t c) ∧
  (∀ (c : Fin 8) (s : State),
      let x := vget s.dev.core c
      (s.dev.ready c branchForm = true →
      (∀ off : BitVec 26,
        let tgt := BitVec.ofInt 32 (x.pc.toNat + 4 + off.toInt * 4)
        answers (exec (.j c off) s) s (fun t =>
          let y := vget t.core c
          y.pc = x.pc + 4 ∧ y.slot = some (x.pc, tgt) ∧ (∀ r, y.reg r = x.reg r) ∧ x.kept y ∧ s.dev.onlyCore t c) ∧
        answers (exec (.jal c off) s) s (fun t =>
          let y := vget t.core c
          y.pc = x.pc + 4 ∧ y.slot = some (x.pc, tgt) ∧ x.wrote y 31 (x.pc + 8) ∧ x.kept y ∧ s.dev.onlyCore t c)) ∧
      ∀ f : IF, (f.sd ≠ f.sa ∨ f.sd = 0) → (x.reg f.sa + f.imm.signExtend 32).toNat % 4 = 0 →
        answers (exec (.jalr c f) s) s (fun t =>
          let y := vget t.core c
          y.pc = x.pc + 4 ∧ y.slot = some (x.pc, x.reg f.sa + f.imm.signExtend 32) ∧
            x.wrote y f.sd (x.pc + 8) ∧ x.kept y ∧ s.dev.onlyCore t c)) ∧
      ∀ f : IF, f.sd = f.sa → f.sd ≠ 0 → s.dev.readyWith c { branchForm with legal := false } (some .illegal) = true →
        s.dev.coreEp c = false →
        answers (exec (.jalr c f) s) s (fun t => s.dev.trapped t c Exc.illegal.code x.pc.toNat))

/-- R119: LOOPI and LOOPR set LS, LE and LC of their level; a count of 0 skips the body, and END 0 is ILLEGAL. -/
def Obligations.LoopSetup : Prop :=
  ∀ (c : Fin 8) (l : Fin 2) (s : State),
    let x := vget s.dev.core c
    (∀ e : Fin 4096, e.val ≠ 0 → s.dev.ready c loopForm = true →
      let last := x.pc + BitVec.ofNat 32 (4 * e.val)
      let set := fun (n : Nat) => { x with
        ls := vset x.ls l (x.pc + 4).toNat, le := vset x.le l last.toNat, lc := vset x.lc l n
        pc := if n = 0 then last + 4 else x.pc + 4
        instret := (x.instret + 1) % 2 ^ 64, mustRun := false, intPoint := false }
      (∀ cnt : Fin 8192, answers (exec (.loopi c l cnt e) s) s fun t =>
        vget t.core c = set cnt.val ∧ s.dev.onlyCore t c) ∧
      ∀ sa : Fin 32, answers (exec (.loopr c l sa 0 e) s) s fun t =>
        vget t.core c = set (x.reg sa).toNat ∧ s.dev.onlyCore t c) ∧
    ((s.dev.readyWith c { loopForm with legal := false } (some .illegal)) = true → s.dev.coreEp c = false →
      (∀ cnt : Fin 8192, answers (exec (.loopi c l cnt 0) s) s fun t =>
        s.dev.trapped t c Exc.illegal.code x.pc.toNat) ∧
      ∀ sa : Fin 32, answers (exec (.loopr c l sa 0 0) s) s fun t =>
        s.dev.trapped t c Exc.illegal.code x.pc.toNat)

/-- R121: a CSR instruction copies the old value into sd and writes the bits the register has; the
other control registers keep their values. -/
def Obligations.CsrAccess : Prop :=
  ∀ (i : Instr) (c : Fin 8) (f : CF) (w : Bool) (op : Nat → Nat → Nat) (s : State),
    csrRow i = some (c, f, w, op) → s.dev.ready c { legal := f.z.val == 0 } = true →
    let x := vget s.dev.core c
    csrExc x f.csr.val w = none → (∀ k, vget x.le k ≠ x.pc.toNat) →
    (f.csr.val = 0x12 ∨ f.csr.val = 0x15 → ∀ k, vget x.lc k = 0) →
    answers (exec i s) s fun t =>
      let y := vget t.core c
      x.wrote y f.sd (BitVec.ofNat 32 (s.dev.csrVal c f.csr.val)) ∧ s.dev.onlyCore t c ∧
      (∀ m, csrBits c f.csr.val = some m → w = true →
        t.csrVal c f.csr.val = op (s.dev.csrVal c f.csr.val) (x.reg f.sa).toNat % 2 ^ 32 &&& m) ∧
      ∀ n m, csrBits c n = some m → (n ≠ f.csr.val ∨ w = false) → t.csrVal c n = s.dev.csrVal c n

/-- R109, R141, R145, R149, R150, R156: a scalar instruction whose word or place breaks a rule, or that
task mode may not run, takes the exception and has no other effect. -/
def Obligations.FormTraps : Prop :=
  ∀ (i : Instr) (c : Fin 8) (k : Form) (e : Exc) (s : State),
    formRow i = some (c, k) → s.dev.readyWith c k (some e) = true → s.dev.coreEp c = false →
    answers (exec i s) s fun t => s.dev.trapped t c e.code (vget s.dev.core c).pc.toNat

/-- R149, R150, R166: ECALL takes SYSCALL; EBREAK takes BREAK, or halts while BRKEN is 1.
R151, R157: ERET restores the pc and the status from EPC, PSUP and PIE; with CAUSE.SH a curator
executes the instruction there as a shadow, from mode OLDM to NEWM. -/
def Obligations.CallBreakReturn : Prop :=
  (∀ (c : Fin 8) (s : State), s.dev.ready c { noSlot := true } = true → s.dev.coreEp c = false →
      let x := vget s.dev.core c
      answers (exec (.ecall c ⟨0, 0, 0⟩) s) s (fun t => s.dev.trapped t c 0xD x.pc.toNat) ∧
      (s.dev.bt R.DBG_CTL 28 c.val = false →
        answers (exec (.ebreak c ⟨0, 0, 0⟩) s) s fun t => s.dev.trapped t c 0xE x.pc.toNat) ∧
      (s.dev.bt R.DBG_CTL 28 c.val = true →
        answers (exec (.ebreak c ⟨0, 0, 0⟩) s) s fun t =>
          let y := vget t.core c
          y.run = .halted ∧ y.pc = x.pathPc ∧ (∀ r, y.reg r = x.reg r) ∧ y.instret = x.instret ∧
            t.fld R.DBG_STAT 23 20 c.val = 4 ∧ t.mem = s.dev.mem)) ∧
  (∀ (c : Fin 8) (s : State), s.dev.ready c { loopForm with priv := true } = true →
      answers (exec (.eret c ⟨0, 0, 0⟩) s) s fun t =>
        let x := vget s.dev.core c
        let y := vget t.core c
        y.pc = BitVec.ofNat 32 x.epc ∧
        y.status = bit x.status 2 + 2 * bit x.status 3 + 4 * bit x.status 2 + 8 * bit x.status 3 ∧
        (bit x.cause 29 = 0 → y.shadow = none ∧ y.cause = x.cause) ∧
        (bit x.cause 29 = 1 → bit y.cause 29 = 0 ∧
          (c.val < 6 → y.charted = (bit x.cause 28 == 1) ∧
            y.shadow = some (bit x.cause 28 == 1, bit x.cause 27 == 1))) ∧
        (∀ r, y.reg r = x.reg r) ∧ y.epc = x.epc ∧ y.badaddr = x.badaddr ∧ y.evec = x.evec ∧ y.lc = x.lc ∧
        y.instret = (x.instret + 1) % 2 ^ 64 ∧ s.dev.onlyCore t c)

/-- R122 to R124, R165: WFI, FENCE, IFENCE and MODESW complete when what they wait for has come, and
otherwise stall with the pc in place. -/
def Obligations.WaitingInstructions : Prop :=
  ∀ (c : Fin 8) (s : State), s.dev.coreEp c = false →
    let x := vget s.dev.core c
    let done := fun (t : Dev) =>
      x.kept (vget t.core c) ∧ (vget t.core c).pc = x.pathPc ∧ (∀ r, (vget t.core c).reg r = x.reg r) ∧
        s.dev.onlyCore t c
    let stays := fun (st : Stall) (t : Dev) => vget t.core c = { x with stall := st } ∧ s.dev.onlyCore t c
    (s.dev.ready c { priv := true } = true →
      (s.dev.ipendEn c = 0 → answers (exec (.wfi c ⟨0, 0, 0⟩) s) s (stays .wfi)) ∧
      (s.dev.ipendEn c ≠ 0 → bit x.status 1 = 0 → answers (exec (.wfi c ⟨0, 0, 0⟩) s) s done)) ∧
    (s.dev.ready c {} = true →
      (s.dev.storesDone c = true → answers (exec (.ifence c ⟨0, 0, 0⟩) s) s done) ∧
      (s.dev.storesDone c = false → answers (exec (.ifence c ⟨0, 0, 0⟩) s) s (stays .ifence)) ∧
      ∀ b : Fin 32, b.val < 4 →
        let m := if b.val = 0 then 3 else b.val
        let met := (bit m 0 = 1 → s.dev.storesDone c = true) ∧
          (bit m 1 = 1 → ∀ g, CoreId.gal c = some g → s.dev.streamsQuiet g = true)
        (met → answers (exec (.fence c ⟨0, 0, b⟩) s) s done) ∧
        (¬ met → answers (exec (.fence c ⟨0, 0, b⟩) s) s (stays (.fence m)))) ∧
    ∀ (g : Fin 6) (b : Fin 32), CoreId.gal c = some g → b.val < 2 →
      s.dev.ready c { loopForm with gx := true, priv := true } = true →
      (s.dev.unitsQuiet g = true → answers (exec (.modesw c ⟨0, 0, b⟩) s) s fun t =>
        (vget t.core c).shadow = some (x.charted, b.val == 1) ∧ (vget t.core c).pc = x.pathPc ∧
          (vget t.core c).charted = x.charted ∧ (∀ r, (vget t.core c).reg r = x.reg r) ∧ s.dev.onlyCore t c) ∧
      (s.dev.unitsQuiet g = false →
        answers (exec (.modesw c ⟨0, 0, b⟩) s) s (stays (.modesw (b.val == 1))))

/-- R150, R152, R153, R166: an interrupt that is due is taken with the number of the lowest source that is
pending and enabled; a store error that is due is taken as STORE_BUS; a halt that was asked for halts the
core at its next instruction. -/
def Obligations.InterruptStoreErrorHalt : Prop :=
  ∀ (c : Fin 8) (s : State), s.dev.calm c = true →
    let x := vget s.dev.core c
    (s.dev.intDue c = true → ∀ k < 13, bit (s.dev.ipendEn c) k = 1 → (∀ j < k, bit (s.dev.ipendEn c) j = 0) →
      answers (exec (.interruptTaken c) s) s fun t =>
        x.entered (vget t.core c) x.pc.toNat (2 ^ 31 + k) 0 ∧
          t = { s.dev.count R.INT_CNT 1 c.val with core := t.core } ∧
          ∀ i, i ≠ c → vget t.core i = vget s.dev.core i) ∧
    (s.dev.storeErrDue c = true → ∀ a, x.sbErr = some a →
      answers (exec (.storeBus c) s) s fun t =>
        ({ x with sbErr := none } : CoreSt).entered (vget t.core c) x.pc.toNat (2 ^ 26 + 9) a ∧
          t = { s.dev.count R.EXC_CNT 1 c.val with core := t.core } ∧
          ∀ i, i ≠ c → vget t.core i = vget s.dev.core i) ∧
    (x.haltReq = true → x.midUnit = false →
      answers (exec (.debugHalt c) s) s fun t =>
        vget t.core c = { x with run := .halted, haltReq := false } ∧
          t = { s.dev.setF R.DBG_STAT 23 20 1 c.val with core := t.core } ∧
          ∀ i, i ≠ c → vget t.core i = vget s.dev.core i)

/-- R105, R114, R115, R139, R159, R160: a load is forwarded from the youngest buffered store that shares a
byte with it when that one holds all of it; a load of memory that shares none is issued; one that shares
bytes with entries not held waits, and is issued once they have left. A load that returns good memory
writes sd, held bytes merged in, and commits.
R114, R158, R213: a store commits into the buffer, held inside an open epoch, and stores nothing yet;
the oldest entry that is not held leaves into memory, and only its bytes change. -/
def Obligations.LoadsAndStores : Prop :=
  ((∀ (i : Instr) (c : Fin 8) (f : IF) (n : Nat) (sg : Bool) (s : State),
      loadRow i = some (c, f, n, sg) → s.dev.ready c {} = true →
      let x := vget s.dev.core c
      let ea := (x.reg f.sa + f.imm.signExtend 32).toNat
      let a := x.toDev ea
      s.dev.addrOk c ea n false = true → s.dev.vxStPending c a n = false → memAddr a = true →
      (youngest x.sb a n = none →
        answers (exec i s) s fun t =>
          vget t.core c = { x with load := some ⟨f.sd, ea, a, n, sg, false⟩ } ∧ s.dev.onlyCore t c) ∧
      (∀ e, youngest x.sb a n = some e → e.covers a n = true →
        answers (exec i s) s fun t =>
          x.wrote (vget t.core c) f.sd (loaded n sg (e.data / 256 ^ (a - e.dev))) ∧ x.kept (vget t.core c) ∧
            (vget t.core c).pc = x.pathPc ∧ s.dev.onlyCore t c) ∧
      (∀ e, youngest x.sb a n = some e → e.covers a n = false → x.loadHeld a n = true →
        answers (exec i s) s fun t =>
          vget t.core c = { x with load := some ⟨f.sd, ea, a, n, sg, true⟩ } ∧
            t.rg R.SBSTALL c.val = min (s.dev.rg R.SBSTALL c.val + 1) (2 ^ 32 - 1))) ∧
    ∀ (c : Fin 8) (s : State) (l : LoadSt),
      let x := vget s.dev.core c
      ¬ (c.val = 7 ∧ s.dev.fitted 1 = false) → x.load = some l → memAddr l.dev = true →
      (l.waiting = true → x.loadHeld l.dev l.size = false →
        answers (exec (.overlapLoadIssue c) s) s fun t =>
          t = s.dev.modCore c fun x => { x with load := some { l with waiting := false } }) ∧
      (l.waiting = false → x.resumed = false → s.dev.flashBusy l.dev = false →
        s.dev.refusal (coreIni c) l.dev l.size .rd = none → s.dev.clean l.dev l.size = true →
        s.dev.poisoned l.dev l.size = false →
        answers (exec (.loadComplete c) s) s fun t =>
          x.wrote (vget t.core c) l.sd
            (loadValue l.size l.signed (heldMerge x.sb l.dev l.size (s.dev.rdN l.dev l.size))) ∧
          x.kept (vget t.core c) ∧ t.mem = s.dev.mem)) ∧
  ((∀ (i : Instr) (c : Fin 8) (f : SF) (n : Nat) (s : State),
      storeRow i = some (c, f, n) → s.dev.ready c {} = true →
      let x := vget s.dev.core c
      let ea := (x.reg f.sa + f.off.signExtend 32).toNat
      s.dev.addrOk c ea n true = true → x.sb.length < 8 →
      answers (exec i s) s fun t =>
        let y := vget t.core c
        y.sb = x.sb ++ [⟨ea, x.toDev ea, n, (x.reg f.sb).toNat % 2 ^ (8 * n), s.dev.inEpoch c⟩] ∧
          x.kept { y with sb := x.sb } ∧ (∀ r, y.reg r = x.reg r) ∧ y.pc = x.pathPc ∧ s.dev.onlyCore t c) ∧
    ∀ (c : Fin 8) (s : State) (e : SbEntry),
      let x := vget s.dev.core c
      s.dev.wf = true → ¬ (c.val = 7 ∧ s.dev.fitted 1 = false) → x.sb.find? (fun e => !e.held) = some e → x.stall = .none →
      memAddr e.dev = true → s.dev.refusal (coreIni c) e.dev e.size .wr = none →
      s.dev.clean e.dev e.size = true →
      answers (exec (.storeBufferDrain c) s) s fun t =>
        (vget t.core c).sb = x.sb.erase e ∧
          (∀ k < e.size, t.byte (e.dev + k) = BitVec.ofNat 8 (e.data / 256 ^ k)) ∧
          (∀ a, (a < e.dev ∨ e.dev + e.size ≤ a) → t.byte a = s.dev.byte a) ∧
          SMap.get 0 t.bus.outw (coreIni c) = SMap.get 0 s.dev.bus.outw (coreIni c) + 1)

/-- R107, R114, R149: a load or store of the control windows in task mode raises ACCESS, a misaligned one
raises LOAD_MIS or STORE_MIS, with the data address, and nothing else happens.
R30, R43, R123, R518: an acknowledgement lowers the count of writes that are out and lets the core's
IFENCE complete; a core's load that times out raises LOAD_BUS with the load's address. -/
def Obligations.MemoryTraps : Prop :=
  (∀ (i : Instr) (c : Fin 8) (n ea : Nat) (st : Bool) (s : State),
      let x := vget s.dev.core c
      ((∃ f sg, loadRow i = some (c, f, n, sg) ∧ ea = (x.reg f.sa + f.imm.signExtend 32).toNat ∧ st = false) ∨
        ∃ f, storeRow i = some (c, f, n) ∧ ea = (x.reg f.sa + f.off.signExtend 32).toNat ∧ st = true) →
      s.dev.ready c {} = true → s.dev.coreEp c = false →
      let bad := bit x.status 0 = 0 ∧ 0x10000000 ≤ x.toDev ea ∧ x.toDev ea ≤ 0x3FFFFFFF
      (bad → answers (exec i s) s fun t => s.dev.trapped t c 0xA ea) ∧
      (¬ bad → ea % n ≠ 0 → answers (exec i s) s fun t => s.dev.trapped t c (if st then 8 else 6) ea)) ∧
  ((∀ (ini : Nat) (s : State), s.dev.wf = true → ini ≠ 4 → iniCore ini = none →
      answers (exec (.writeAcknowledge ini) s) s fun t =>
        SMap.get 0 t.bus.outw ini = SMap.get 0 s.dev.bus.outw ini - 1 ∧ t = { s.dev with bus := t.bus }) ∧
    (∀ (c : Fin 8) (s : State),
      let x := vget s.dev.core c
      s.dev.wf = true → x.run = .running → x.stall = .ifence → x.resumed = false → x.drained = true →
      SMap.get 0 s.dev.bus.outw (coreIni c) = 1 →
      answers (exec (.writeAcknowledge (coreIni c)) s) s fun t =>
        (vget t.core c).stall = .none ∧ (vget t.core c).pc = x.pathPc ∧
          (vget t.core c).instret = (x.instret + 1) % 2 ^ 64) ∧
    ∀ (c : Fin 8) (s : State) (l : LoadSt) (v : Nat),
      let x := vget s.dev.core c
      x.load = some l → l.waiting = false → x.resumed = false → memAddr l.dev = true → s.dev.coreEp c = false →
      s.dev.refusal (coreIni c) l.dev l.size .rd = none →
      answers (exec (.accessTimeout (coreIni c) l.dev l.size false v) s) s fun t =>
        x.entered (vget t.core c) x.excPc (x.excCause 7) l.addr)

/-- R155, R166 to R168: the debug block of a core: a halt request, a resume of a halted core, registers
that a halted core shows and takes and a running one refuses with NOTHALTED, and the doorbell. -/
def Obligations.DebugBlock : Prop :=
  ∀ (ini v : Nat) (c : Fin 8) (s : State),
    let x := vget s.dev.core c
    (s.dev.wf = true → s.dev.calm c = true → s.dev.accepts ini R.DBG_CTL c.val = true →
      answers (exec (.debugHaltreq ini c v) s) s fun t =>
        (vget t.core c).haltReq = true ∧ t.mem = s.dev.mem ∧
          t.fld R.DBG_CTL 29 28 c.val = bits v 29 28 ∧ ∀ i, i ≠ c → vget t.core i = vget s.dev.core i) ∧
    (x.run = .halted → s.dev.accepts ini R.DBG_CTL c.val = true →
      answers (exec (.debugResume ini c v) s) s fun t =>
        (vget t.core c).run = .running ∧ (vget t.core c).resumed = true ∧ (vget t.core c).pc = x.pc ∧
          t.mem = s.dev.mem ∧ ∀ i, i ≠ c → vget t.core i = vget s.dev.core i) ∧
    (∀ r : Fin 32, x.run = .halted → s.dev.accepts ini R.SREG c.val r.val = true →
      answers (exec (.debugRegAccess ini c (0x100 + 4 * r.val) (some v)) s) s fun t =>
        x.wrote (vget t.core c) r (BitVec.ofNat 32 v) ∧ t.mem = s.dev.mem) ∧
    (∀ r : Fin 32, x.run = .halted → s.dev.readable ini R.SREG c.val r.val = true →
      answers (exec (.debugRegAccess ini c (0x100 + 4 * r.val) none) s) s fun t =>
        t.returned ini (x.reg r).toNat ∧ t.core = s.dev.core) ∧
    (∀ r : Fin 32, s.dev.calm c = true → s.dev.readable ini R.SREG c.val r.val = true →
      answers (exec (.debugRegAccess ini c (0x100 + 4 * r.val) none) s) s fun t =>
        t.returned ini 0 ∧ t.bt R.DBG_STAT 29 c.val = true ∧ t.core = s.dev.core) ∧
    (s.dev.accepts ini R.DOORBELL c.val = true →
      answers (exec (.doorbell ini c v) s) s fun t =>
        t.core = vmod s.dev.core c (fun y => { y with soft := true }) ∧ bit (t.ipend c) 0 = 1)

/-- R173, R174, R176, R181: MX.CFG, MX.WLD, MX.SWAP and MX.RUN commit with their command at the end of the
queue and the issue-order state changed at once. With 4 commands queued in curated mode the instruction
waits for room.
R174, R176, R181: OPERAND for an MX.CFG in a chain, a plane that is misplaced, and a run with no rows, too
many rows, misplaced rows or a plane of another format. -/
def Obligations.ArrayIssue : Prop :=
  (∀ (g : Fin 6) (s : State), let c := curator g
      s.dev.ready c { gx := true } = true →
      let x := s.dev.cur g
      let i := (s.dev.arr g).iss
      let sh : Fin 2 := if i.active then 0 else 1
      let issues := fun (j : Instr) (k : ArrKind) (i' : ArrIssue) =>
        ((s.dev.arr g).queue.length < 4 → answers (exec j s) s fun t =>
          s.dev.gxDone t g (fun y => y.issued k i') ∧ x.same (t.cur g)) ∧
        ((s.dev.arr g).queue.length = 4 → x.charted = false → exec j s = .next s)
      (∀ m : Fin 64, m.val < 4 → i.chain = none → issues (.mxCfg c ⟨0, 0, 0, m⟩) (.cfg m.val) { i with mode := m.val }) ∧
      (∀ b : Fin 32,
        let a := x.toDev (x.reg b).toNat
        a % 2048 = 0 → galStore g ≤ a → a + 262144 ≤ galStore g + 0x1000000 →
        issues (.mxWld c ⟨0, b, 0, 0⟩) (.wld a (!i.active) (modeW i.mode))
          { i with valid := vset i.valid sh true, fmt := vset i.fmt sh (modeW i.mode) }) ∧
      issues (.mxSwap c ⟨0, 0, 0, 0⟩) .swap { i with active := !i.active } ∧
      ∀ a b n : Fin 32,
        let r : RunCmd := ⟨(x.reg a).toNat, x.toDev (x.reg b).toNat, (x.reg n).toNat, i.mode⟩
        s.dev.runCheck g r = none →
        issues (.mxRun c ⟨a, b, n, 0⟩) (.run r)
          { i with chain := if r.chain = 1 then some ⟨r.n, (s.dev.ep g).isOpen⟩
              else if r.chain = 3 then none else i.chain }) ∧
  (∀ (g : Fin 6) (s : State), let c := curator g
      s.dev.ready c { gx := true } = true → s.dev.coreEp c = false →
      let x := s.dev.cur g
      let i := (s.dev.arr g).iss
      let traps := fun (j : Instr) => answers (exec j s) s fun t => s.dev.trapped t c 0xB x.pc.toNat
      (∀ m : Fin 64, m.val < 4 → i.chain ≠ none → traps (.mxCfg c ⟨0, 0, 0, m⟩)) ∧
      (∀ b : Fin 32,
        let a := x.toDev (x.reg b).toNat
        (a % 2048 ≠ 0 ∨ a < galStore g ∨ galStore g + 0x1000000 < a + 262144) →
        traps (.mxWld c ⟨0, b, 0, 0⟩)) ∧
      ∀ a b n : Fin 32,
        let w := (x.reg a).toNat
        let m := x.toDev (x.reg b).toNat
        let rows := (x.reg n).toNat
        let act : Fin 2 := if i.active then 1 else 0
        (rows = 0 ∨ (bit w 22 = 1 ∧ 32 < rows) ∨ 32768 < rows ∨ (bit w 22 = 0 ∧ m % 64 ≠ 0) ∨
          vget i.valid act = false ∨ vget i.fmt act ≠ modeW i.mode ∨
          (i.chain = none ∧ 2 ≤ bits w 21 20) ∨ (i.chain ≠ none ∧ bits w 21 20 < 2)) →
        traps (.mxRun c ⟨a, b, n, 0⟩))

/-- R123, R128, R173: MX.WAIT completes once the array is idle and otherwise waits; MX.STAT reads ARR_STAT.
R175, R178, R179, R183, R185: what the head of the array's queue does when it is dispatched, a plane
load that ends, the slot a tile takes and the tile that is READY. -/
def Obligations.ArrayExecution : Prop :=
  (∀ (g : Fin 6) (s : State), let c := curator g
      s.dev.ready c { gx := true } = true →
      let x := s.dev.cur g
      ((s.dev.arr g).idle = true → answers (exec (.mxWait c ⟨0, 0, 0, 0⟩) s) s fun t =>
        s.dev.gxDone t g id ∧ x.same (t.cur g)) ∧
      ((s.dev.arr g).idle = false → answers (exec (.mxWait c ⟨0, 0, 0, 0⟩) s) s fun t => s.dev.gxWaits t g .mxWait) ∧
      ∀ a : Fin 32, answers (exec (.mxStat c ⟨a, 0, 0, 0⟩) s) s fun t =>
        s.dev.gxDone t g id ∧
          x.wrote (t.cur g) a (BitVec.ofNat 32 ((s.dev.arr g).stat (s.dev.ep g).isOpen))) ∧
  (∀ (g : Fin 6) (s : State) (q : List ArrCmd) (e : Bool) (n : Nat),
      let a := s.dev.arr g
      s.dev.galUp g = true → a.frozen = 0 → s.dev.wf = true →
      let arr := fun (t : Dev) (b : ArraySt) => s.dev.onlyGal t g fun y => { y with arr := b }
      (∀ m, a.queue = ⟨.cfg m, e, n⟩ :: q →
        answers (exec (.mxCfgDispatch g) s) s (arr · { a with queue := q, mode := m })) ∧
      (∀ ad pl fm, a.queue = ⟨.wld ad pl fm, e, n⟩ :: q → a.loader = none → (s.dev.cur g).drained = true →
        (s.dev.cur g).charted = true →
        answers (exec (.mxWldDispatch g) s) s fun t =>
          (t.arr g).queue = q ∧ (t.arr g).loader = some ⟨ad, pl, fm, e⟩ ∧
            (vget (t.arr g).planes (if pl then 1 else 0)).valid = false ∧
            vget (t.arr g).planes (if pl then 0 else 1) = vget a.planes (if pl then 0 else 1) ∧
            t = { s.dev with gal := t.gal }) ∧
      (a.queue = ⟨.swap, e, n⟩ :: q → a.loader = none →
        answers (exec (.mxSwapDispatch g) s) s (arr · { a with queue := q, active := !a.active })) ∧
      (∀ r, a.queue = ⟨.run r, e, n⟩ :: q →
        (vget a.planes (if a.active then 1 else 0)).valid = true → (s.dev.cur g).charted = true →
        r.tsrc = true → r.chain = 1 → (vget (s.dev.vec g).t r.treg).tag.poison = false →
        (vget a.planes (if a.active then 1 else 0)).poison = false →
        answers (exec (.mxRunDispatch g) s) s fun t =>
          let p := vget a.planes (if a.active then 1 else 0)
          (t.arr g).queue = q ∧ (t.arr g).flight = a.flight ∧
            (∀ i < r.n, ∀ k < modeCols r.mode, SMap.get 0 (t.arr g).acc (1024 * i + k) =
              accOf (s.dev.actRow g r i) (s.dev.leg g r.aidx).zp (fun j => weightAt p.fmt p.dense j k)
                (s.dev.runZw g r k)) ∧
            t.rg R.ARR_ROWS g.val = min (s.dev.rg R.ARR_ROWS g.val + r.n) (2 ^ R.ARR_ROWS.w - 1) ∧
            t.mem = s.dev.mem) ∧
      (∀ l, a.loader = some l → s.dev.clean l.addr 262144 = true → s.dev.poisoned l.addr 262144 = false →
        0x10000 ≤ l.addr →
        answers (exec (.planeLoadDone g) s) s fun t =>
          let p := vget (t.arr g).planes (if l.plane then 1 else 0)
          (t.arr g).loader = none ∧ p.valid = true ∧ p.fmt = l.fmt ∧ p.poison = false ∧
            (∀ o < 262144, SMap.get 0 p.data o = s.dev.byte (l.addr + o)) ∧ t.mem = s.dev.mem) ∧
      (∀ v vs, a.flight = v :: vs → a.vit.length < 8 → v.prov = false →
        answers (exec (.vitrineSlotReserve g) s) s fun t =>
          (t.arr g).flight = vs ∧ (t.arr g).vit.length = a.vit.length + 1 ∧ (t.arr g).frozen = 0 ∧
            t = { s.dev with gal := t.gal }) ∧
      (∀ v vs, a.vit = v :: vs → v.st = .filling → v.sat = false → v.poison = false →
        answers (exec (.tileReady g) s) s fun t =>
          (t.arr g).vit = { v with st := .ready } :: vs ∧ (t.arr g).seq = (a.seq + 1) % 256 ∧
            t.rg R.ARR_TILES g.val = min (s.dev.rg R.ARR_TILES g.val + 1) (2 ^ R.ARR_TILES.w - 1)))

/-- R126, R129, R198, R222, R225, R235, R236: a VX instruction enters the engine's queue; VX.SUM waits for its
value; an operand condition that fails raises OPERAND.
R163, R222 to R228, R232: an instruction starts at the head of the queue. At its end VX.POP takes the
head of the vitrine, VX.LD reads memory, VX.ST writes it, an element-wise integer instruction saturates
each element, and VX.SUM writes its register and commits. -/
def Obligations.VectorEngine : Prop :=
  (∀ (g : Fin 6) (i : Instr) (legal : Bool) (v : CoreSt → VxInstr) (good : Dev → CoreSt → Bool) (s : State),
      let c := curator g
      let x := s.dev.cur g
      vxRow g i = some (c, legal, v, good) → s.dev.ready c { legal := legal, gx := true } = true →
      (s.dev.coreEp c = false → good s.dev x = false → answers (exec i s) s fun t => s.dev.trapped t c 0xB x.pc.toNat) ∧
      (good s.dev x = true → (s.dev.vec g).waiting.length < 4 → ((v x).sub = .st → s.dev.inEpoch c = false) →
        let put := fun (y : GalSt) => y.vxIssued { v x with ep := s.dev.inEpoch c, charted := x.charted }
        ((v x).sub ≠ .sum → answers (exec i s) s fun t => s.dev.gxDone t g put ∧ x.same (t.cur g)) ∧
        ((v x).sub = .sum → answers (exec i s) s fun t => s.dev.gxWaits t g .vxSum put))) ∧
  (∀ (g : Fin 6) (s : State) (i : VxInstr),
      let v := s.dev.vec g
      s.dev.galUp g = true → s.dev.wf = true →
      (∀ w, v.exec = none → v.waiting = i :: w → i.sub ≠ .pop → i.sub ≠ .rq → s.dev.vxReady g i = true →
        answers (exec (.vxInstrStart g) s) s fun t =>
          s.dev.onlyGal t g fun y => { y with vec := { v with exec := some i, waiting := w, rqDrop := false } }) ∧
      (v.exec = some i →
        let ends := fun (p : Dev → Prop) => answers (exec (.vxInstrEnd g) s) s fun t =>
          (t.vec g).exec = none ∧
            t.rg R.VEC_INSTR g.val = min (s.dev.rg R.VEC_INSTR g.val + 1) (2 ^ R.VEC_INSTR.w - 1) ∧ p t
        let a := vget v.t i.ta
        let b := vget v.t i.tb
        (∀ h, i.sub = .pop → i.x = 1 → (s.dev.arr g).head = some h → h.poison = false → ends fun t =>
          (vget (t.vec g).t i.td).data = h.data ∧ (vget (t.vec g).t i.td).tag.valid = h.valid ∧
            (vget (t.vec g).t i.td).tag.seq = h.seq ∧ (t.arr g).vit = popFirst (s.dev.ep g).isOpen (s.dev.arr g).vit) ∧
        (i.sub = .ld → i.d = 2 → s.dev.clean i.x 65536 = true → s.dev.poisoned i.x 65536 = false → ends fun t =>
          (∀ e < 16384, (vget (t.vec g).t i.td).data.elem e = s.dev.rdN (i.x + 4 * e) 4) ∧ t.mem = s.dev.mem) ∧
        (i.sub = .st → i.d = 2 → 0x10000 ≤ i.x → ends fun t =>
          (∀ e < 16384, t.rdN (i.x + 4 * e) 4 = a.data.elem e % 2 ^ 32) ∧
            ∀ m, (m < i.x ∨ i.x + 65536 ≤ m) → t.byte m = s.dev.byte m) ∧
        (∀ op : VxBin, (i.sub = match op with | .add => .add | .sub => .sub | .mul => .mul | .max => .max | .min => .min) →
          i.d ≤ 2 → ends fun t =>
            ∀ e < 16384,
              let p := readInt i.d (a.data.elem e)
              let q := readInt i.d (b.data.elem e)
              (vget (t.vec g).t i.td).data.elem e = cont (clampS (intBits i.d)
                (match op with | .add => p + q | .sub => p - q | .mul => p * q | .max => max p q | .min => min p q))) ∧
        (i.sub = .sum → a.tag.poison = false → (s.dev.cur g).stall = .vxSum → (s.dev.cur g).resumed = false → ends fun t =>
          let w := (vxSum (i.d / 8) (i.d % 8) a.data).w
          (s.dev.cur g).wrote (t.cur g) i.sd (BitVec.ofNat 32 w) ∧ (t.cur g).stall = .none ∧
            (t.cur g).pc = (s.dev.cur g).pathPc ∧ t.rg R.VEC_LASTSUM g.val = w % 2 ^ 32)))

/-- R196, R197, R199: an accepted write of a legend entry takes effect with its derived words and ends the
entry's open step; a write that would break R197 is ignored and recorded.
R194, R195: VX.RQ of an integer tile through a static entry writes round-half-even(x × MULT / 2^SHIFT)
plus the zero point, clamped, and leaves the legend as it is. -/
def Obligations.LegendAccess : Prop :=
  (∀ (ini v : Nat) (g : Fin 6) (e : Fin 1024) (w : Fin 3) (s : State),
      let l := s.dev.leg g e.val
      let l' := if w = 0 then ({ l with scale := v % 2 ^ 32 } : Leg).derive
        else if w = 1 then ({ l with insc := v % 2 ^ 32 } : Leg).derive
        else { l with ctl := v % 2 ^ 27, hist := [], wide := false }
      s.dev.wf = true →
      s.dev.accepts ini (legReg w) g.val e.val = true →
      (l'.bad = false → answers (exec (.legendWrite ini g e w v) s) s fun t =>
        t.leg g e.val = { l' with step := none, pend := [] } ∧ (∀ k, k ≠ e.val → t.leg g k = s.dev.leg g k) ∧
          t.mem = s.dev.mem ∧ t.core = s.dev.core) ∧
      (l'.bad = true → answers (exec (.legendWrite ini g e w v) s) s fun t =>
        t.gal = s.dev.gal ∧ t.bt R.EP_FLAGS 6 g.val = true ∧
          (s.dev.bt R.EP_LEGERR 31 g.val = false → t.rg R.EP_LEGERR g.val = 2 ^ 31 + e.val))) ∧
  (∀ (g : Fin 6) (s : State) (i : VxInstr),
      let v := s.dev.vec g
      let a := vget v.t i.ta
      s.dev.galUp g = true → v.exec = some i → i.sub = .rq → v.rq.smode = 0 → a.tag.fmt = 2 → i.d < 2 →
      rqEntryOk v.rq i.d = true →
      let l := v.rq.derive
      answers (exec (.vxInstrEnd g) s) s fun t =>
        (∀ e < 16384, (vget (t.vec g).t i.td).data.elem e =
          cont (max (codeLo v.rq.fmt) (min (codeHi v.rq.fmt)
            (v.rq.zp + rhe (toS 32 (a.data.elem e) * l.mult) (2 ^ l.shift))))) ∧
        (vget t.gal g).leg = (vget s.dev.gal g).leg ∧ t.mem = s.dev.mem)

/-- R208, R214: EP.OPEN opens an epoch and keeps what a squash restores; inside one it raises EPOCH_STATE,
which squashes it; a restart address that is not a multiple of 4 raises OPERAND.
R135, R214, R216: EP.COMMIT begins the end of an open epoch and waits, and commits alone outside one;
EP.SQUASH asks for a squash; EP.STAT reads EP_STAT. -/
def Obligations.EpochsOpenAndRun : Prop :=
  (∀ (g : Fin 6) (b : Fin 32) (s : State), let c := curator g
      s.dev.wf = true → s.dev.ready c { gx := true, noSlot := true } = true →
      let x := s.dev.cur g
      let e := s.dev.ep g
      (e.isOpen = false → (x.reg b).toNat % 4 = 0 → answers (exec (.epOpen c ⟨0, b, 0, 0⟩) s) s fun t =>
        let y := vget t.gal g
        y.ep.isOpen = true ∧ y.ep.radio = false ∧ y.ep.restart = (x.reg b).toNat ∧ y.ep.instr = 0 ∧ y.ep.tiles = 0 ∧
          y.ep.bound = 0 ∧ y.ep.squash = 0 ∧ y.arr.ck = some (s.dev.arr g).iss ∧ y.legCk = some y.leg ∧
          y.leg = (vget s.dev.gal g).leg ∧ y.vec = s.dev.vec g ∧ x.same (t.cur g) ∧ x.kept (t.cur g) ∧
          (t.cur g).pc = x.pathPc ∧ t.mem = s.dev.mem ∧
          t.rg R.EP_OPENS g.val = min (s.dev.rg R.EP_OPENS g.val + 1) (2 ^ R.EP_OPENS.w - 1)) ∧
      (e.isOpen = false → (x.reg b).toNat % 4 ≠ 0 → answers (exec (.epOpen c ⟨0, b, 0, 0⟩) s) s fun t =>
        s.dev.trapped t c 0xB x.pc.toNat) ∧
      (e.isOpen = true → e.defer = none → e.radio = false → answers (exec (.epOpen c ⟨0, b, 0, 0⟩) s) s fun t =>
        (t.ep g).isOpen = false ∧ (t.ep g).last = 4 ∧ (t.cur g).epc = e.restart ∧
          (t.cur g).badaddr = x.pc.toNat ∧ (t.cur g).pc = BitVec.ofNat 32 x.evec)) ∧
  (∀ (g : Fin 6) (s : State), let c := curator g
      let x := s.dev.cur g
      let e := s.dev.ep g
      (s.dev.ready c { gx := true, noSlot := true } = true →
        (e.isOpen = true → answers (exec (.epCommit c ⟨0, 0, 0, 0⟩) s) s fun t =>
          s.dev.gxWaits t g .epCommit fun y => { y with ep := { y.ep with ending := true } }) ∧
        (e.isOpen = false → answers (exec (.epCommit c ⟨0, 0, 0, 0⟩) s) s fun t =>
          s.dev.gxDone t g id ∧ x.same (t.cur g))) ∧
      (s.dev.ready c { gx := true, noSlot := true, noEnd := true } = true →
        answers (exec (.epSquash c ⟨0, 0, 0, 0⟩) s) s fun t =>
          s.dev.gxDone t g (fun y => if e.isOpen = true then { y with ep := { y.ep with squash := worse e.squash 2 } } else y) ∧
            x.same (t.cur g)) ∧
      (s.dev.ready c { gx := true } = true → ∀ a : Fin 32,
        answers (exec (.epStat c ⟨a, 0, 0, 0⟩) s) s fun t =>
          s.dev.gxDone t g id ∧ x.wrote (t.cur g) a (BitVec.ofNat 32 (s.dev.epStat g))))

/-- R213 to R216: the time bound of an open epoch; a commit makes the held stores, tiles and steps final; a
squash puts the curator at its restart address and discards what the epoch made. -/
def Obligations.EpochEnds : Prop :=
  ∀ (g : Fin 6) (s : State),
    let x := s.dev.cur g
    let e := s.dev.ep g
    s.dev.wf = true →
    (e.isOpen = true → 2458 ≤ e.age → e.bound = 0 → answers (exec (.epochTimeBound g) s) s fun t =>
      (t.ep g).ending = true ∧ (t.ep g).bound = 4 ∧ (t.ep g).isOpen = true ∧ t.core = s.dev.core ∧
        t.rg R.EP_BOUNDS g.val = min (s.dev.rg R.EP_BOUNDS g.val + 1) (2 ^ R.EP_BOUNDS.w - 1)) ∧
    (s.dev.epCommitDue g = true → e.defer = none → (∀ n, s.dev.stream g n = none) →
      answers (exec (.epochCommit g) s) s fun t =>
        (t.ep g).isOpen = false ∧ (t.ep g).ending = false ∧ (t.ep g).last = 1 ∧
          (t.cur g).sb = x.sb.map (fun b => { b with held := false }) ∧ x.same (t.cur g) ∧
          (∀ r, (vget (t.vec g).t r).data = (vget (s.dev.vec g).t r).data ∧ (vget (t.vec g).t r).tag.prov = false) ∧
          (t.arr g).vit = ((s.dev.arr g).vit.filter fun v => v.st != .held).map (fun v => { v with prov := false }) ∧
          (vget t.gal g).legCk = none ∧ t.mem = s.dev.mem) ∧
    (s.dev.epSquashDue g = true → e.defer = none → e.radio = false → (∀ n, s.dev.stream g n = none) →
      answers (exec (.epochSquash g) s) s fun t =>
        (t.ep g).isOpen = false ∧ (t.ep g).last = e.squash ∧ (t.cur g).pc = BitVec.ofNat 32 e.restart ∧
          (t.cur g).slot = none ∧ (t.cur g).sb = x.sb.filter (fun b => !b.held) ∧ x.same (t.cur g) ∧
          (t.vec g).t = (s.dev.vec g).ck ∧ (t.arr g).vit.all (fun v => !v.prov) = true ∧
          (vget t.gal g).leg = (vget s.dev.gal g).legCk.getD (vget s.dev.gal g).leg ∧ t.mem = s.dev.mem)

/-- R130, R269 to R275, R278: the ST instructions outside an open epoch.
R271, R273 to R275: a tile of one row that a stream fetches or writes, and the stream's end. -/
def Obligations.Streams : Prop :=
  (∀ (g : Fin 6) (n : Fin 16) (a b : Fin 32) (s : State), let c := curator g
      let x := s.dev.cur g
      let k : Fin 32 := ⟨n.val, by omega⟩
      let with_ := fun (o : Option StreamSt) (y : GalSt) => { y with streams := vset y.streams n o }
      s.dev.ready c { gx := true } = true → s.dev.inEpoch c = false → (s.dev.ep g).isOpen = false →
      (∀ d : Fin 64, d.val < 4 →
        let m := x.toDev (x.reg b).toNat
        m % 64 = 0 → (inStore g m 64 = true ∨ inAtrium m 64 = true) → x.drained = true → s.dev.clean m 64 = true →
        s.dev.poisoned m 64 = false →
        answers (exec (.stOpen c ⟨a, b, k, d⟩) s) s fun t =>
          let code := s.dev.stOpenCode g n m (d.val + 1)
          x.wrote (t.cur g) a (BitVec.ofNat 32 code) ∧ x.pathPc = (t.cur g).pc ∧ t.mem = s.dev.mem ∧
            (code ≠ 0 → t.gal = s.dev.gal) ∧
            (code = 0 → ∃ st, t.stream g n = some st ∧ st.desc = s.dev.stDesc x m ∧ st.depth = d.val + 1 ∧
              st.taken = 0 ∧ st.released = 0 ∧ st.moved = 0 ∧ st.tiles = st.desc.full ∧ st.ended = false ∧
              st.task = x.task ∧ ∀ j, j ≠ n → t.stream g j = s.dev.stream g j)) ∧
      (s.dev.stream g n = none → s.dev.coreEp c = false →
        (answers (exec (.stClose c ⟨0, 0, k, 0⟩) s) s fun t => s.dev.trapped t c 0xB x.pc.toNat) ∧
        (answers (exec (.stNext c ⟨a, 0, k, 0⟩) s) s fun t => s.dev.trapped t c 0xB x.pc.toNat) ∧
        (answers (exec (.stDone c ⟨0, 0, k, 0⟩) s) s fun t => s.dev.trapped t c 0xB x.pc.toNat) ∧
        (answers (exec (.stWait c ⟨0, 0, k, 0⟩) s) s fun t => s.dev.trapped t c 0xB x.pc.toNat) ∧
        (answers (exec (.stStat c ⟨a, 0, k, 0⟩) s) s fun t => s.dev.trapped t c 0xB x.pc.toNat)) ∧
      ∀ st, s.dev.stream g n = some st → st.heldClose = false →
        (st.closable = true → answers (exec (.stClose c ⟨0, 0, k, 0⟩) s) s fun t =>
          s.dev.gxDone t g (with_ none) ∧ x.same (t.cur g)) ∧
        (∀ ad, s.dev.stNextRes g n = .tile ad → answers (exec (.stNext c ⟨a, 0, k, 0⟩) s) s fun t =>
          s.dev.gxDone t g (with_ (some { st with taken := st.taken + 1 })) ∧
            x.wrote (t.cur g) a (BitVec.ofNat 32 ad) ∧ ad = st.desc.slot + st.taken % (st.depth + 1) * st.desc.tb) ∧
        (s.dev.stNextRes g n = .none → answers (exec (.stNext c ⟨a, 0, k, 0⟩) s) s fun t =>
          s.dev.gxDone t g id ∧ x.wrote (t.cur g) a 0xFFFFFFFF) ∧
        (s.dev.stNextRes g n = .stall → answers (exec (.stNext c ⟨a, 0, k, 0⟩) s) s fun t =>
          s.dev.gxWaits t g (.stNext a n)) ∧
        (0 < st.out → s.dev.doneBlocked g n x = false → answers (exec (.stDone c ⟨0, 0, k, 0⟩) s) s fun t =>
          s.dev.gxDone t g (with_ (some { st with released := st.released + 1 })) ∧ x.same (t.cur g)) ∧
        (s.dev.stQuiet g st = true → answers (exec (.stWait c ⟨0, 0, k, 0⟩) s) s fun t =>
          s.dev.gxDone t g id ∧ x.same (t.cur g)) ∧
        (s.dev.stQuiet g st = false → answers (exec (.stWait c ⟨0, 0, k, 0⟩) s) s fun t =>
          s.dev.gxWaits t g (.stWait n)) ∧
        answers (exec (.stStat c ⟨a, 0, k, 0⟩) s) s fun t =>
          s.dev.gxDone t g id ∧ x.wrote (t.cur g) a (BitVec.ofNat 32 (streamStat (some st)))) ∧
  (∀ (g : Fin 6) (n : Fin 16) (st : StreamSt) (s : State),
      let slot := st.desc.slot + st.moved % (st.depth + 1) * st.desc.tb
      let row := ((st.desc.base : Int) + st.moved * st.desc.tstride).toNat
      let bytes := st.desc.rowbytes
      s.dev.wf = true → s.dev.galUp g = true → s.dev.stream g n = some st → st.desc.kind = false →
      (st.desc.rows = 1 → bytes % 64 = 0 → st.moved < st.tiles → overlap slot bytes row bytes = false →
        0x10000 ≤ slot → 0x10000 ≤ row → s.dev.clean row bytes = true → s.dev.clean slot bytes = true →
        (st.desc.dirW = false → st.moved < st.released + st.depth + 1 → s.dev.rowCause g st row false = none →
          answers (exec (.tileFetchDone g n) s) s fun t =>
            t.rdBytes slot bytes = s.dev.rdBytes row bytes ∧
              (∀ m, (m < slot ∨ slot + bytes ≤ m) → t.byte m = s.dev.byte m) ∧
              t.stream g n = some { st with moved := st.moved + 1 } ∧ t.core = s.dev.core) ∧
        (st.desc.dirW = true → st.moved < st.released → (s.dev.cur g).drained = true → (s.dev.ep g).isOpen = false →
          s.dev.rowCause g st row true = none →
          answers (exec (.tileWriteDone g n) s) s fun t =>
            t.rdBytes row bytes = s.dev.rdBytes slot bytes ∧
              (∀ m, (m < row ∨ row + bytes ≤ m) → t.byte m = s.dev.byte m) ∧
              t.stream g n = some { st with moved := st.moved + 1 } ∧ t.core = s.dev.core)) ∧
      (st.ended = false → st.tiles ≤ st.moved → (st.desc.dirW = true → st.released = st.moved) → st.desc.cell = false →
        answers (exec (.streamEnd g n) s) s fun t =>
          t.stream g n = some { st with ended := true, heldCell := false } ∧ t.mem = s.dev.mem ∧ t.core = s.dev.core ∧
            (st.desc.notify = true → t.bt R.ST_FLAGS 0 g.val = true)))

/-- R31, R131 to R133, R301, R302: a cell operation of a curator on a cell of its station. Once its stores are
acknowledged an add, a set or a test returns the old value and GXSTAT 0; a wait whose value is met returns
it, one that is not met is armed, and a timeout of 0 ends it with GXSTAT 10.
R301, R302, R509: the sync-cell window: a read returns the value, a write of the first word sets it, a
write of the second adds modulo 2^32. -/
def Obligations.Cells : Prop :=
  (∀ (g : Fin 6) (a b o : Fin 32) (s : State), let c := curator g
      let x := s.dev.cur g
      let id := (x.reg b).toNat
      let k := bits id 15 0
      let old := s.dev.cell k
      let v := (x.reg o).toNat
      s.dev.wf = true → s.dev.ready c { gx := true } = true → s.dev.cellIdBad g x id = false → s.dev.foreign id = false →
      SMap.get 0 s.dev.hub.ecc k = 0 → s.dev.cellBad k = false → s.dev.inEpoch c = false →
      let done := fun (r : Fin 32) (val code : Nat) (t : Dev) =>
        x.wrote (t.cur g) r (BitVec.ofNat 32 val) ∧ (t.cur g).gxstat = code ∧ (t.cur g).pc = x.pathPc ∧
          (t.cur g).stall = .none ∧ ∀ j, j ≠ c → vget t.core j = vget s.dev.core j
      let cells := fun (t : Dev) (n : Nat) => t.cell k = n % 2 ^ 32 ∧ ∀ j, j ≠ k → t.cell j = s.dev.cell j
      (s.dev.storesDone c = false → ∀ j d, (j, d) ∈ [
          (Instr.syAdd c ⟨a, b, o, 0⟩, (⟨.add, a, id, v, 0⟩ : HubOp)), (.sySet c ⟨a, b, o, 0⟩, ⟨.set, a, id, v, 0⟩),
          (.syGate c ⟨0, b, o, 0⟩, ⟨.gate, 0, id, v, 0⟩)] →
        answers (exec j s) s fun t => s.dev.gxWaits t g (.hubHeld d)) ∧
      (s.dev.storesDone c = true →
        answers (exec (.syAdd c ⟨a, b, o, 0⟩) s) s (fun t => done a old 0 t ∧ cells t (old + v)) ∧
        answers (exec (.sySet c ⟨a, b, o, 0⟩) s) s (fun t => done a old 0 t ∧ cells t v) ∧
        answers (exec (.syTest c ⟨a, b, 0, 0⟩) s) s (fun t => done a old 0 t ∧ t.hub.cells = s.dev.hub.cells) ∧
        (v ≤ old → answers (exec (.syGate c ⟨0, b, o, 0⟩) s) s fun t => done 0 0 0 t ∧ (t.cur g).intPoint = true) ∧
        (old < v → s.dev.hub.resp = Vector.replicate 6 none → answers (exec (.syGate c ⟨0, b, o, 0⟩) s) s fun t =>
          t.hub.waits = s.dev.hub.waits ++ [⟨.curator g, k, false, v, none, 0⟩] ∧ (t.cur g).pc = x.pc) ∧
        ∀ d : Fin 32,
          let dd : Fin 64 := ⟨d.val, by omega⟩
          let tmo := (x.reg d).toNat
          let waits := fun (eq : Bool) (j : Instr) (met : Prop) =>
            (met → answers (exec j s) s (done a old 0)) ∧
            (¬ met → tmo = 0 → answers (exec j s) s (done a old 0xA)) ∧
            (¬ met → tmo ≠ 0 → s.dev.hub.resp = Vector.replicate 6 none → answers (exec j s) s fun t =>
              t.hub.waits = s.dev.hub.waits ++ [⟨.curator g, k, eq, v, some tmo, 0⟩] ∧ (t.cur g).pc = x.pc ∧
                x.same (t.cur g) ∧ t.hub.cells = s.dev.hub.cells)
          waits false (.syWaitge c ⟨a, b, o, dd⟩) (v ≤ old) ∧ waits true (.syWaiteq c ⟨a, b, o, dd⟩) (old = v))) ∧
  (∀ (ini v : Nat) (k : Fin 65536) (s : State),
      s.dev.wf = true → SMap.get 0 s.dev.hub.ecc k.val = 0 → s.dev.cellBad k.val = false →
      let others := fun (t : Dev) => ∀ j, j ≠ k.val → t.cell j = s.dev.cell j
      (s.dev.refusal ini (cellAddr k) 4 .rd = none → answers (exec (.cellWindowTest ini k) s) s fun t =>
        t.returned ini (s.dev.cell k.val) ∧ t = { s.dev with bus := t.bus }) ∧
      (s.dev.refusal ini (cellAddr k) 4 .wr = none → answers (exec (.cellWindowSet ini k v) s) s fun t =>
        t.cell k.val = v % 2 ^ 32 ∧ others t ∧ t.core = s.dev.core) ∧
      (s.dev.refusal ini (cellAddr k + 4) 4 .wr = none → answers (exec (.cellWindowAdd ini k v) s) s fun t =>
        t.cell k.val = (s.dev.cell k.val + v) % 2 ^ 32 ∧ others t ∧ t.core = s.dev.core))

/-- R134, R290 to R297: a post that the bucket and the reserved sub-queue take is ACCEPTED and its 64 bytes
stand in the ring; a pop takes the oldest entry into the buffer, or answers EMPTY; RG.POPW waits; RG.STAT
reads the occupancies.
R288 to R292, R303: enabling a ring empties it and fills its bucket; disabling it discards its entries; a
hub tick ages every wait and fills every bucket; a wait ends with TIMEOUT after its time. -/
def Obligations.Rings : Prop :=
  (∀ (g : Fin 6) (a b o : Fin 32) (s : State), let c := curator g
      let x := s.dev.cur g
      let id := (x.reg b).toNat
      let r := bits id 9 0
      let buf := x.toDev (x.reg o).toNat
      let q := s.dev.ring r
      let room := s.dev.ringN r - s.dev.ringS r
      s.dev.wf = true → s.dev.ready c { gx := true } = true → s.dev.foreign id = false → s.dev.inEpoch c = false →
      SMap.get 0 s.dev.hub.ecc (65536 + r) = 0 → s.dev.hub.popWaits = [] → s.dev.ringEn r = true →
      bufBad g buf = false → s.dev.clean buf 64 = true → s.dev.poisoned buf 64 = false →
      let done := fun (code : Nat) (t : Dev) =>
        x.wrote (t.cur g) a (BitVec.ofNat 32 code) ∧ (t.cur g).gxstat = code % 16 ∧ (t.cur g).pc = x.pathPc
      (s.dev.postBad g x id = false → s.dev.storesDone c = true → s.dev.ledgerRefuses (s.dev.ringClass r) = false →
        1000 ≤ s.dev.rg R.RING_TOK 0 r → q.rocc < room →
        answers (exec (.rgPost c ⟨a, b, o, 0⟩) s) s fun t =>
          done 0 t ∧ (t.ring r).rocc = q.rocc + 1 ∧ (t.ring r).socc = q.socc ∧ (t.ring r).seq = (q.seq + 1) % 2 ^ 32 ∧
            t.rg R.RING_TOK 0 r = (s.dev.rg R.RING_TOK 0 r - 1000) % 2 ^ 32 ∧
            (0x10000 ≤ s.dev.fld R.RING_BASE 39 6 0 r * 64 →
              ∀ k, 0x10 ≤ k → k < 64 →
                t.byte (s.dev.fld R.RING_BASE 39 6 0 r * 64 + s.dev.fld R.RING_RPTR 15 0 0 r * 64 + k) = s.dev.byte (buf + k))) ∧
      (s.dev.popBad g x id = false → s.dev.ringOcc r = 0 →
        answers (exec (.rgPop c ⟨a, b, o, 0⟩) s) s (fun t => done 9 t ∧ t.mem = s.dev.mem) ∧
        ∀ d : Fin 32,
          ((x.reg d).toNat = 0 → answers (exec (.rgPopw c ⟨a, b, o, ⟨d.val, by omega⟩⟩) s) s fun t =>
            done 0xA t ∧ t.mem = s.dev.mem) ∧
          ((x.reg d).toNat ≠ 0 → s.dev.hub.resp = Vector.replicate 6 none →
            answers (exec (.rgPopw c ⟨a, b, o, ⟨d.val, by omega⟩⟩) s) s fun t =>
              t.hub.popWaits = [⟨g, r, buf, (x.reg d).toNat, 0⟩] ∧ (t.cur g).pc = x.pc ∧ t.mem = s.dev.mem)) ∧
      (s.dev.popBad g x id = false → 0 < s.dev.ringOcc r →
        let at_ := s.dev.ringHead r
        s.dev.clean at_ 64 = true → bit (leNat ((s.dev.rdBytes at_ 64).drop 12 |>.take 2)) 15 = 0 →
        let pops := fun (t : Dev) => done 8 t ∧ t.rdBytes buf 64 = s.dev.rdBytes at_ 64 ∧
          (∀ m, (m < buf ∨ buf + 64 ≤ m) → t.byte m = s.dev.byte m) ∧ t.ringOcc r = s.dev.ringOcc r - 1
        answers (exec (.rgPop c ⟨a, b, o, 0⟩) s) s pops ∧
          ∀ d : Fin 32, answers (exec (.rgPopw c ⟨a, b, o, ⟨d.val, by omega⟩⟩) s) s pops) ∧
      (s.dev.popBad g x id = false → answers (exec (.rgStat c ⟨a, b, 0, 0⟩) s) s fun t =>
        s.dev.gxDone t g (fun y => y) ∧
          x.wrote (t.cur g) a (BitVec.ofNat 32 (min q.rocc 65535 * 2 ^ 16 + min q.socc 65535)))) ∧
  ((∀ (ini v : Nat) (r : Fin 1024) (s : State),
      s.dev.wf = true → s.dev.accepts ini R.RING_CFG 0 r.val = true →
      s.dev.fld R.RING_CFG 15 8 0 r.val = 0 →
      (s.dev.ringEn r.val = false → 55 < r.val → s.dev.ringEnableOk r.val (v % 2 ^ 32) = true →
        answers (exec (.ringEnable ini r v) s) s fun t =>
          t.ringEn r.val = true ∧ t.ring r.val = ⟨0, 0, 0⟩ ∧ t.mem = s.dev.mem ∧
            t.rg R.RING_TOK 0 r.val = (if s.dev.fld R.RING_RATE 31 16 0 r.val = 0 then 0
              else s.dev.fld R.RING_RATE 15 0 0 r.val * 1000)) ∧
      (s.dev.ringEn r.val = true → answers (exec (.ringDisable ini r v) s) s fun t =>
        t.ringEn r.val = false ∧ t.ring r.val = ⟨0, 0, 0⟩ ∧ t.mem = s.dev.mem ∧ t.core = s.dev.core ∧
          ∀ w ∈ t.hub.popWaits, w.ring ≠ r.val)) ∧
    (∀ s : State, s.dev.wf = true → answers (exec .hubTick s) s fun t =>
      t.hub.ticks = s.dev.hub.ticks + 1 ∧ t.hub.waits = s.dev.hub.waits.map (fun w => { w with age := w.age + 1 }) ∧
        t.hub.cells = s.dev.hub.cells ∧ t.mem = s.dev.mem ∧
        ∀ r : Fin 1024, s.dev.ringEn r.val = true → s.dev.fld R.RING_RATE 31 16 0 r.val ≠ 0 →
          t.rg R.RING_TOK 0 r.val = min (s.dev.rg R.RING_TOK 0 r.val + s.dev.fld R.RING_RATE 31 16 0 r.val)
            (s.dev.fld R.RING_RATE 15 0 0 r.val * 1000)) ∧
    ∀ (k : Nat) (s : State) (g : Fin 6) (w : Wait) (n : Nat),
      s.dev.hub.waits[k]? = some w → w.who = .curator g → w.timeout = some n → n < w.age →
      answers (exec (.waitTimeout false k) s) s fun t =>
        vget t.hub.resp g = some ⟨0xA, 0, s.dev.cell w.cell⟩ ∧ t.hub.waits = s.dev.hub.waits.erase w ∧
          t.mem = s.dev.mem ∧ t.hub.cells = s.dev.hub.cells)

/-- R304, R305: a write of HUB_CMD that names a record performs it and writes VALUE and RESULT, and nothing
else of memory, while no wait stands on the cell. -/
def Obligations.CommandRecords : Prop :=
  ∀ (ini rec : Nat) (s : State),
    let id := s.dev.rdN (rec + 4) 4
    let opnd := s.dev.rdN (rec + 8) 4
    let nring := s.dev.rdN (rec + 2) 2
    let k := bits id 15 0
    let old := s.dev.cell k
    s.dev.wf = true → s.dev.accepts ini R.HUB_CMD = true → rec % 32 = 0 → inAtrium rec 32 = true →
    s.dev.clean rec 32 = true → s.dev.poisoned rec 32 = false → s.dev.rdN (rec + 1) 1 = 0 → bits nring 15 10 = 0 →
    s.dev.hub.cmds = [] → s.dev.hub.waits = [] → s.dev.hub.popWaits = [] → s.dev.foreign id = false →
    let done := fun (code value : Nat) (t : Dev) =>
      t.rdN (rec + 0x18) 4 = code ∧ t.rdN (rec + 0x1C) 4 = value % 2 ^ 32 ∧ t.core = s.dev.core
    let frame := fun (t : Dev) => ∀ m, (m < rec + 0x18 ∨ rec + 0x20 ≤ m) → t.byte m = s.dev.byte m
    let cells := fun (t : Dev) (n : Nat) => t.cell k = n % 2 ^ 32 ∧ ∀ j, j ≠ k → t.cell j = s.dev.cell j
    (idOkCell id = true → SMap.get 0 s.dev.hub.ecc k = 0 → s.dev.cellBad k = false →
      (s.dev.rdN rec 1 = 1 → answers (exec (.commandAdd ini rec) s) s fun t =>
        done 0 old t ∧ frame t ∧ cells t (old + opnd)) ∧
      (s.dev.rdN rec 1 = 2 → answers (exec (.commandSet ini rec) s) s fun t => done 0 old t ∧ frame t ∧ cells t opnd) ∧
      (s.dev.rdN rec 1 = 3 → answers (exec (.commandTest ini rec) s) s fun t =>
        done 0 old t ∧ frame t ∧ t.hub.cells = s.dev.hub.cells) ∧
      (s.dev.rdN rec 1 = 4 → opnd ≤ old → answers (exec (.commandWaitge ini rec) s) s fun t =>
        done 0 old t ∧ frame t ∧ t.hub.cells = s.dev.hub.cells) ∧
      (s.dev.rdN rec 1 = 4 → old < opnd → s.dev.rdN (rec + 0xC) 4 ≠ 0 → answers (exec (.commandWaitge ini rec) s) s fun t =>
        t.mem = s.dev.mem ∧ t.hub.waits = [⟨.cmd rec nring id, k, false, opnd, some (s.dev.rdN (rec + 0xC) 4), 0⟩]) ∧
      (s.dev.rdN rec 1 = 5 → opnd = old → answers (exec (.commandWaiteq ini rec) s) s fun t =>
        done 0 old t ∧ frame t ∧ t.hub.cells = s.dev.hub.cells)) ∧
    (idOkRing id = true → s.dev.ringEn (bits id 9 0) = true →
      let buf := s.dev.rdN (rec + 0x10) 8
      let r := bits id 9 0
      let q := s.dev.ring r
      buf % 64 = 0 → inAtrium buf 64 = true → (buf + 64 ≤ rec ∨ rec + 32 ≤ buf) →
      (s.dev.rdN rec 1 = 0x10 → s.dev.clean buf 64 = true → s.dev.poisoned buf 64 = false →
        (s.dev.ledgerRefuses (s.dev.ringClass r) = true →
          answers (exec (.commandPost ini rec) s) s fun t => done 4 0 t ∧ frame t ∧ t.ring r = q) ∧
        (s.dev.ledgerRefuses (s.dev.ringClass r) = false → 1000 ≤ s.dev.rg R.RING_TOK 0 r →
          q.rocc < s.dev.ringN r - s.dev.ringS r →
          answers (exec (.commandPost ini rec) s) s fun t => done 0 0 t ∧
            t.ring r = ⟨q.rocc + 1, q.socc, (q.seq + 1) % 2 ^ 32⟩ ∧
            t.rg R.RING_TOK 0 r = (s.dev.rg R.RING_TOK 0 r - 1000) % 2 ^ 32)) ∧
      (s.dev.rdN rec 1 = 0x11 → q.rocc + q.socc = 0 → answers (exec (.commandPop ini rec) s) s fun t =>
        done 9 0 t ∧ frame t ∧ t.ring r = q) ∧
      (s.dev.rdN rec 1 = 0x11 → 0 < q.rocc + q.socc → s.dev.clean (s.dev.ringHead r) 64 = true →
        bit (leNat ((s.dev.rdBytes (s.dev.ringHead r) 64).drop 12 |>.take 2)) 15 = 0 →
        answers (exec (.commandPop ini rec) s) s fun t =>
          done 8 0 t ∧ t.rdBytes buf 64 = s.dev.rdBytes (s.dev.ringHead r) 64 ∧ t.ringOcc r = q.rocc + q.socc - 1))

/-- R306, R307: the outcome of a curator's remote operation reaches it; one that is overdue becomes a
refusal, a wait that is overdue is cancelled, and an outcome that nothing waits for is counted. -/
def Obligations.RemoteOperations : Prop :=
  ∀ (tag code stamp v : Nat) (s : State),
    (s.dev.hub.remotes.find? (·.tag == tag) = none → answers (exec (.remoteOutcome tag code stamp v) s) s fun t =>
      t.rg R.HUB_RLATE = min (s.dev.rg R.HUB_RLATE + 1) (2 ^ R.HUB_RLATE.w - 1) ∧ t.hub = s.dev.hub ∧
        t.core = s.dev.core ∧ t.mem = s.dev.mem) ∧
    ∀ (op : RemoteOp) (g : Fin 6), s.dev.hub.remotes.find? (·.tag == tag) = some op → op.who = .curator g →
      let gone := s.dev.hub.remotes.erase op
      (code ≠ 5 → answers (exec (.remoteOutcome tag code stamp v) s) s fun t =>
        vget t.hub.resp g = some ⟨code, stamp, v⟩ ∧ t.hub.remotes = gone ∧ t.regs = s.dev.regs ∧ t.mem = s.dev.mem) ∧
      (op.byRto = true → max 1 (s.dev.rg R.HUB_RTO) < op.age → answers (exec (.remoteTimeout tag) s) s fun t =>
        vget t.hub.resp g = some ⟨5, 0, 0⟩ ∧ t.hub.remotes = gone ∧
          t.rg R.HUB_RREF = min (s.dev.rg R.HUB_RREF + 1) (2 ^ R.HUB_RREF.w - 1) ∧ t.mem = s.dev.mem) ∧
      ∀ n, op.timeout = some (n + 1) → n + 1 < op.age → answers (exec (.remoteWaitTimeout tag) s) s fun t =>
        (∃ w, vget t.hub.resp g = some ⟨0xA, 0, w⟩) ∧ t.hub.remotes = gone ∧
          t.hub.txq = s.dev.hub.txq ++ [.cancel op.stn op.tag] ∧ t.mem = s.dev.mem

/-- R246, R253 to R255: GO opens a job or records why not; a round is granted, refused or comes too early; a
deadline mark cuts an open deadline-mode job; ABORT closes the job.
R249 to R252, R255: outside deadline mode a job ends with the list of every row in memory and its counts,
all equal to the kept counts; the lists of a deadline-mode job make it READY. -/
def Obligations.SkipUnit : Prop :=
  (∀ (ini v : Nat) (g : Fin 6) (s : State),
      let q := s.dev.skip g
      let granted := s.dev.fld R.SKP_GRANT 8 0 g.val
      let w := with1 v 31 % 2 ^ 32
      s.dev.wf = true →
      (s.dev.accepts ini R.SKP_CTL g.val = true →
        (q.job.isSome = true → answers (exec (.skipJobStart ini g v) s) s fun t =>
          t.skip g = q ∧ t.fld R.SKP_STAT 27 24 g.val = 3 ∧ t.mem = s.dev.mem) ∧
        (s.dev.skipErr g (s.dev.skipLatch g w) = 0 → answers (exec (.skipJobStart ini g v) s) s fun t =>
          (t.skip g).job = some ⟨s.dev.skipLatch g w, []⟩ ∧ t.rg R.SKP_STAT g.val = 2 ^ 31 ∧ t.mem = s.dev.mem ∧
            t.core = s.dev.core) ∧
        (bit v 31 = 0 → answers (exec (.skipJobAbort ini g v) s) s fun t =>
          (t.skip g).job = none ∧
            (q.job.isSome = true → t.bt R.SKP_STAT 31 g.val = false ∧ t.bt R.SKP_STAT 28 g.val = true))) ∧
      (s.dev.accepts ini R.SKP_TAKE g.val = true →
        (q.job = none → answers (exec (.roundTake ini g v) s) s fun t =>
          t.rg R.SKP_ROUND g.val = 2 ^ 28 ∧ t.gal = s.dev.gal) ∧
        ∀ j, q.job = some j → j.l.dl = true → s.dev.bt R.SKP_STAT 30 g.val = true →
          (granted = s.dev.fld R.SKP_GRANT 24 16 g.val → answers (exec (.roundTake ini g v) s) s fun t =>
            t.rg R.SKP_ROUND g.val = 2 ^ 29 ∧ t.gal = s.dev.gal) ∧
          (granted + 1 < s.dev.fld R.SKP_GRANT 24 16 g.val → s.dev.bt R.SKP_STAT 29 g.val = false →
            answers (exec (.roundTake ini g v) s) s fun t =>
              t.rg R.SKP_ROUND g.val = 2 ^ 31 + granted ∧ t.fld R.SKP_GRANT 8 0 g.val = granted + 1 ∧
                t.gal = s.dev.gal)) ∧
      (∀ d, (List.finRange 2).find? (fun d => g.val ∈ (vget s.dev.tt d).galMarks) = some d → s.dev.galUp g = true →
        answers (exec (.deadlineMarkArrive g) s) s fun t =>
          (vget t.tt d).galMarks = (vget s.dev.tt d).galMarks.erase g.val ∧
            ∀ j, q.job = some j → j.l.dl = true → t.bt R.SKP_STAT 29 g.val = true)) ∧
  (∀ (g : Fin 6) (j : SkipJob) (s : State),
      let l := j.l
      s.dev.wf = true → s.dev.galUp g = true → (s.dev.skip g).job = some j → s.dev.clean l.est (l.nq * l.stride) = true →
      0x10000 ≤ l.list → 0x10000 ≤ l.cnt → l.np ≤ 8192 → 0 < l.np → l.nq = 1 →
      overlap l.list l.stride l.cnt 4 = false → s.dev.bt R.AUD_CTL 31 g.val = false →
      let k := s.dev.keptRow l 0
      let list := fun (t : Dev) => ∀ m < l.stride / 2,
        t.rdN (l.list + 2 * m) 2 = (if h : m < k.length then k[m] % 65536 else 0xFFFF)
      (l.dl = false → answers (exec (.skipJobDone g) s) s fun t =>
        (t.skip g).job = none ∧ list t ∧ t.rdN l.cnt 2 = k.length % 65536 ∧ t.rdN (l.cnt + 2) 2 = k.length % 65536 ∧
          t.bt R.SKP_STAT 31 g.val = false ∧ t.core = s.dev.core) ∧
      (l.dl = true → s.dev.bt R.SKP_STAT 30 g.val = false → s.dev.bt R.SKP_STAT 29 g.val = false → k ≠ [] →
        s.dev.fld R.SKP_GRANT 8 0 g.val = 0 →
        answers (exec (.skipListsReady g) s) s fun t =>
          (t.skip g).job = some ⟨l, [k.length]⟩ ∧ list t ∧ t.bt R.SKP_STAT 30 g.val = true ∧
            t.fld R.SKP_GRANT 24 16 g.val = (k.length + 31) / 32))

/-- R257 to R260: AUD_CTL is ignored whole with a field out of range; a flush drops and counts the pending
rows; a slot adds one exact score; an evaluated row joins the window, and a full window is published.
R281, R282, R284: the carousel: START, the group's start, PASS, a transfer and its end, the entry of a
step, and STOP. -/
def Obligations.SamplerAndCarousel : Prop :=
  (∀ (ini v : Nat) (g : Fin 6) (s : State),
      let q := s.dev.skip g
      s.dev.wf = true →
      (s.dev.accepts ini R.AUD_CTL g.val = true →
        ((bits v 12 8 < 4 ∨ 16 < bits v 12 8 ∨ 12 < bits v 3 0) →
          answers (exec (.auditControlWrite ini g v) s) s fun t =>
            t.rg R.AUD_CTL g.val = s.dev.rg R.AUD_CTL g.val ∧ t.bt R.AUD_FLAGS 2 g.val = true ∧ t.gal = s.dev.gal) ∧
        (4 ≤ bits v 12 8 → bits v 12 8 ≤ 16 → bits v 3 0 ≤ 12 →
          (bit v 31 = 1 → bit v 30 = 0 → s.dev.bt R.AUD_CTL 31 g.val = false →
            answers (exec (.auditControlWrite ini g v) s) s fun t =>
              t.bt R.AUD_CTL 31 g.val = true ∧ t.fld R.AUD_CTL 12 8 g.val = bits v 12 8 ∧
                t.fld R.AUD_CTL 3 0 g.val = bits v 3 0 ∧ t.rg R.AUD_ROWCTR g.val = 0 ∧ t.gal = s.dev.gal) ∧
          (bit v 31 = 1 → answers (exec (.auditFlush ini g v) s) s fun t =>
            (t.skip g).pend = [] ∧ (t.skip g).wcnt = q.wcnt ∧
              t.rg R.AUD_DROPS g.val = min (s.dev.rg R.AUD_DROPS g.val + q.pend.length) (2 ^ R.AUD_DROPS.w - 1)))) ∧
      (s.dev.galUp g = true →
        (∀ r rs, q.pend = r :: rs → r.scores.length < r.l.np → (s.dev.arr g).frozen = 0 →
          s.dev.clean (r.l.krow + 512 * r.scores.length) 512 = true → s.dev.clean (r.l.qrow + 512 * r.row) 512 = true →
          answers (exec (.auditRowSlot g) s) s fun t =>
            (t.skip g).pend = { r with scores := r.scores ++ [s.dev.auditScore r r.scores.length] } :: rs ∧
              t.rg R.AUD_SLOTS g.val = min (s.dev.rg R.AUD_SLOTS g.val + 1) (2 ^ R.AUD_SLOTS.w - 1) ∧ t.mem = s.dev.mem) ∧
        (∀ r rs, q.pend = r :: rs → r.l.np ≤ r.scores.length → q.wcnt < 2 ^ s.dev.fld R.AUD_CTL 3 0 g.val →
          answers (exec (.auditRowEvaluate g) s) s fun t =>
            (t.skip g).pend = rs ∧ (t.skip g).wcnt = q.wcnt + 1 ∧
              t.rg R.AUD_ROWS g.val = min (s.dev.rg R.AUD_ROWS g.val + 1) (2 ^ R.AUD_ROWS.w - 1) ∧ t.mem = s.dev.mem) ∧
        (2 ^ s.dev.fld R.AUD_CTL 3 0 g.val ≤ q.wcnt → answers (exec (.auditWindowComplete g) s) s fun t =>
          (t.skip g).wcnt = 0 ∧ (t.skip g).wmax = 0 ∧ (t.skip g).wsum = 0 ∧ (t.skip g).pend = q.pend ∧
            t.rg R.AUD_LWMAX g.val = q.wmax % 2 ^ 32 ∧
            t.rg R.AUD_LWSEQ g.val = (s.dev.rg R.AUD_LWSEQ g.val + 1) % 2 ^ 32 ∧ t.mem = s.dev.mem))) ∧
  (∀ (ini v : Nat) (g : Fin 6) (s : State),
      let c := s.dev.car g
      let ms := s.dev.carMembers
      s.dev.wf = true →
      (s.dev.accepts ini R.CAR_CTL g.val = true →
        (c.st = .idle → v < 2 → answers (exec (.carouselStart ini g v) s) s fun t =>
          (t.car g).st = .starting ∧ (t.car g).cur = false ∧ (t.car g).step = 0 ∧
            vget (t.car g).buf 0 = (s.dev.cur g).toDev (s.dev.rg R.CAR_BUF0 g.val) ∧
            vget (t.car g).buf 1 = (s.dev.cur g).toDev (s.dev.rg R.CAR_BUF1 g.val) ∧ t.mem = s.dev.mem) ∧
        (c.st = .running → v = 0 → answers (exec (.carouselPass ini g v) s) s fun t =>
          t.car g = { c with passed := true } ∧ t.mem = s.dev.mem ∧ ∀ h, h ≠ g → t.car h = s.dev.car h) ∧
        (g ∈ ms → v = 0 → answers (exec (.carouselStop ini g v) s) s fun t =>
          (∀ h ∈ ms, t.car h = .init) ∧ (∀ h, h ∉ ms → t.car h = s.dev.car h) ∧ t.core = s.dev.core)) ∧
      (∀ named, ((List.finRange 6).filter fun h => (s.dev.car h).st == .starting) = named → named ≠ [] → ms = [] →
        (named.flatMap fun h => groupOf (s.dev.carGroup h)).all (fun h => h ∈ named) = true →
        (∀ h, s.dev.galOn h = true) →
        answers (exec .carouselGroupStart s) s fun t =>
          (s.dev.carCfgOk named = true → ∀ h ∈ named, t.car h = { s.dev.car h with st := .running }) ∧
          (s.dev.carCfgOk named = false → ∀ h ∈ named, (t.car h).st = .error ∧ (t.car h).errc = 1)) ∧
      (g ∈ ms → c.sending = false → c.outdone = false → (s.dev.car (succOf ms g)).step = c.step →
        answers (exec (.carouselTransferStart g) s) s fun t =>
          ((s.dev.ep g).isOpen = false → t.car g = { c with sending := true }) ∧
          ((s.dev.ep g).isOpen = true → t = s.dev)) ∧
      (let r := succOf ms g
       let n := s.dev.shard g
       let src := vget c.buf (if c.cur then 1 else 0)
       let dst := vget (s.dev.car r).buf (if (s.dev.car r).cur then 0 else 1)
       g ∈ ms → r ≠ g → c.sending = true → overlap src n dst n = false → 0x10000 ≤ src → 0x10000 ≤ dst →
       s.dev.clean src n = true →
        answers (exec (.carouselTransferDone g) s) s fun t =>
          t.rdBytes dst n = s.dev.rdBytes src n ∧ (∀ m, (m < dst ∨ dst + n ≤ m) → t.byte m = s.dev.byte m) ∧
            t.car g = { c with sending := false, outdone := true } ∧ t.car r = { s.dev.car r with indone := true }) ∧
      (c.st = .running → c.passed = true → c.indone = true → c.outdone = true → s.dev.bt R.CAR_CFG 30 g.val = false →
        answers (exec (.carouselStepEntry g) s) s fun t =>
          t.car g = { c with cur := !c.cur, step := (c.step + 1) % 2 ^ 16, passed := false, indone := false, outdone := false } ∧
            t.bt R.CAR_FLAGS 0 g.val = true ∧ t.mem = s.dev.mem))

/-- R8, R38, R40: a write of a whole register without an effect of its own puts the written bits into the RW
fields, clears the W1C bits written 1 and leaves every other bit; a read of one that clears puts its RC
bits back to their reset values. -/
def Obligations.RegisterAccess : Prop :=
  ∀ (ini a v : Nat) (x : RegAt) (s : State),
    let n := x.r.w / 8
    let old := s.dev.rg x.r x.k x.i x.j
    s.dev.wf = true → regAt a = some x → x.part = 0 → memAddr a = false → regionOf a ≠ some .cells →
    regionOf a ≠ some .hostDbg → x.r.isLdg = false → (x.r.w = 32 ∨ x.r.w = 64) →
    (s.dev.refusal ini a n .wr = none → (lookupReg x.r handlers).isNone = true →
      answers (exec (.registerWrite ini a n v) s) s fun t =>
        (∀ b < x.r.w, (t.rg x.r x.k x.i x.j).testBit b =
          if (x.r.mask .rw).testBit b then v.testBit b
          else if (x.r.mask .w1c).testBit b && v.testBit b then false
          else old.testBit b) ∧
        t.mem = s.dev.mem ∧ t.core = s.dev.core ∧ t.gal = s.dev.gal) ∧
    (s.dev.refusal ini a n .rd = none → (lookupReg x.r views).isNone = true → x.r.win ≠ .plic →
      (∀ z ∈ [R.PLIC_CLAIM, R.DPC, R.CSRDATA, R.SREG, R.CSP_RXD, R.ACC_RR, R.ACC_TOT], x.r.is z = false) →
      s.dev.bus.snap = [] → old < 2 ^ x.r.w →
      answers (exec (.readAndReset ini a n) s) s fun t =>
        t.returned ini (andNot old (x.r.mask .wo)) ∧
        (∀ b < x.r.w, (t.rg x.r x.k x.i x.j).testBit b =
          if (x.r.mask .rc).testBit b then (x.r.rst s.dev.asm x.k x.i x.j).testBit b else old.testBit b) ∧
        t.mem = s.dev.mem ∧ t.core = s.dev.core)

/-- R8, R44: a read of an RS register latches its whole snapshot group for its reader.
R38: the halves of a 64-bit register: a read of the low half holds the whole value for the reader, a write
of it waits in the writer's holding register, and a write of the high half writes both, or is refused. -/
def Obligations.SnapshotsAndHalves : Prop :=
  (∀ (ini a : Nat) (x : RegAt) (s : State),
      regAt a = some x → x.part = 0 → memAddr a = false → regionOf a ≠ some .cells → regionOf a ≠ some .hostDbg →
      x.r.isLdg = false → (x.r.w = 32 ∨ x.r.w = 64) → x.r.win ≠ .plic → x.r.mask .rc = 0 →
      (∀ z ∈ [R.PLIC_CLAIM, R.DPC, R.CSRDATA, R.SREG, R.CSP_RXD, R.ACC_RR], x.r.is z = false) →
      s.dev.refusal ini a (x.r.w / 8) .rd = none →
      answers (exec (.snapshotRead ini a (x.r.w / 8)) s) s fun t =>
        t.returned ini (s.dev.readShown ini x.r x.k x.i x.j) ∧
        (∀ m ∈ snapGroup x.r x.i,
          SMap.get 0 t.bus.snap (snapKey ini (m.1.addr x.k m.2 0)) = s.dev.shown m.1 x.k m.2 0) ∧
        t.regs = s.dev.regs ∧ t.mem = s.dev.mem ∧ t.core = s.dev.core) ∧
  (∀ (ini a v : Nat) (x : RegAt) (s : State),
      s.dev.wf = true → regAt a = some x → memAddr a = false → regionOf a ≠ some .cells → regionOf a ≠ some .hostDbg →
      x.r.isLdg = false → x.r.w = 64 →
      let low := SMap.get (0, 0) s.dev.bus.wrHold ini
      (x.part = 0 → s.dev.refusal ini a 4 .rd = none → x.r.mask .rc = 0 → x.r.win ≠ .plic →
        (∀ z ∈ [R.PLIC_CLAIM, R.DPC, R.CSRDATA, R.SREG, R.CSP_RXD, R.ACC_RR], x.r.is z = false) →
        answers (exec (.lowHalfRead ini a) s) s fun t =>
          t.returned ini (s.dev.readShown ini x.r x.k x.i x.j % 2 ^ 32) ∧
            SMap.get 0 t.bus.rdHold ini = s.dev.readShown ini x.r x.k x.i x.j ∧ t.regs = s.dev.regs) ∧
      (x.part = 0 → s.dev.refusal ini a 4 .wr = none → answers (exec (.lowHalfWrite ini a v) s) s fun t =>
        SMap.get (0, 0) t.bus.wrHold ini = (x.r.addr x.k x.i x.j, v % 2 ^ 32) ∧ t = { s.dev with bus := t.bus }) ∧
      (x.part = 4 → s.dev.refusal ini a 4 .wr = none →
        (low.1 ≠ x.r.addr x.k x.i x.j → answers (exec (.highHalfWrite ini a v) s) s fun t =>
          SMap.get ⟨0, true, true⟩ t.bus.resp ini = ⟨0, true, false⟩ ∧ t.mem = s.dev.mem ∧ t.core = s.dev.core) ∧
        (low.1 = x.r.addr x.k x.i x.j → low.2 < 2 ^ 32 → (lookupReg x.r handlers).isNone = true → x.r.mask .w1c = 0 →
          answers (exec (.highHalfWrite ini a v) s) s fun t =>
            (∀ b < 64, (x.r.mask .rw).testBit b = true →
              (t.rg x.r x.k x.i x.j).testBit b = (low.2 + v % 2 ^ 32 * 2 ^ 32).testBit b) ∧
            t.mem = s.dev.mem ∧ t.core = s.dev.core)))

/-- R33, R37, R38: a write of memory by an initiator that the window accepts stores its bytes and no others;
a read returns them.
R41: an access that is refused returns a bus error with value 0; a refusal by a target on the compute die
counts, and is logged while the log is free. -/
def Obligations.BusAccess : Prop :=
  (∀ (ini a n v : Nat) (s : State),
      s.dev.wf = true → memAddr a = true → 0x10000 ≤ a → s.dev.clean a n = true →
      (s.dev.refusal ini a n .wr = none → answers (exec (.registerWrite ini a n v) s) s fun t =>
        t.rdN a n = v % 256 ^ n ∧ (∀ m, (m < a ∨ a + n ≤ m) → t.byte m = s.dev.byte m) ∧ t.core = s.dev.core ∧
          t.regs = s.dev.regs) ∧
      (s.dev.refusal ini a n .rd = none → regionOf a = some .atrium → s.dev.poisoned a n = false →
        answers (exec (.readAndReset ini a n) s) s fun t =>
          t.returned ini (s.dev.rdN a n) ∧ t = { s.dev with bus := t.bus })) ∧
  (∀ (ini a n v : Nat) (s : State) (c : Cause) (i : Instr) (k : AccK),
      s.dev.wf = true → (k = .wr ∧ i = .registerWrite ini a n v) ∨ (k = .rd ∧ i = .readAndReset ini a n) →
      s.dev.refusal ini a n k = some c →
      answers (exec i s) s fun t =>
        SMap.get ⟨0, true, true⟩ t.bus.resp ini = ⟨0, true, false⟩ ∧ t.mem = s.dev.mem ∧ t.core = s.dev.core ∧
        (s.dev.cdieOn = true → 0x20000000 ≤ a → a < 0x30000000 → c ≠ .timeout →
          t.rg R.BERR_COUNT = min (s.dev.rg R.BERR_COUNT + 1) (2 ^ R.BERR_COUNT.w - 1) ∧
          (s.dev.bt R.BERR_INFO 31 = true → t.rg R.BERR_ADDR = s.dev.rg R.BERR_ADDR ∧ t.bt R.BERR_INFO 30 = true) ∧
          (s.dev.bt R.BERR_INFO 31 = false → t.rg R.BERR_ADDR = a ∧ t.bt R.BERR_INFO 31 = true ∧
            t.fld R.BERR_INFO 26 24 = c.code ∧ t.fld R.BERR_INFO 23 18 = ini % 64)))

/-- R24, R47: a write of ICC_CTL of an adaptive island within its range takes effect and unlocks it, one outside
is refused with ERR; the lock, the frequency window, a droop and the relock. -/
def Obligations.ClockControllers : Prop :=
  ∀ (ini v n : Nat) (i : Fin 13) (s : State),
    s.dev.wf = true →
    let icc := fun (t : Dev) (hi lo : Nat) => t.fld R.ICC_CTL hi lo 0 i.val
    let waits := if h : i.val < 7 then (vget s.dev.pwr.raises ⟨i.val, h⟩).isSome else false
    (s.dev.accepts ini R.ICC_CTL 0 i.val = true → ∀ lo hi, islRange i.val = some (lo, hi) →
      (lo ≤ bits v 11 0 → bits v 11 0 ≤ bits v 27 16 → bits v 27 16 ≤ hi →
        answers (exec (.iccCtlWrite ini i v) s) s fun t =>
          icc t 27 16 = bits v 27 16 ∧ icc t 11 0 = bits v 11 0 ∧ icc t 31 31 = bits v 31 31 ∧
            t.bt R.ICC_STAT 29 0 i.val = false ∧ t.core = s.dev.core) ∧
      ((bits v 11 0 < lo ∨ bits v 27 16 < bits v 11 0 ∨ hi < bits v 27 16) →
        answers (exec (.iccCtlWrite ini i v) s) s fun t =>
          t.rg R.ICC_CTL 0 i.val = s.dev.rg R.ICC_CTL 0 i.val ∧ t.bt R.ICC_STAT 31 0 i.val = true ∧
            t.pwr = s.dev.pwr)) ∧
    (waits = false → (vget s.dev.isl i).unlocked = false → answers (exec (.clockSettled (.cd i)) s) s fun t =>
      (vget t.isl i).limits = s.dev.rg R.ICC_CTL 0 i.val ∧ t.bt R.ICC_STAT 29 0 i.val = true) ∧
    (answers (exec (.clockWindowEnd (.cd i) n) s) s fun t => t.fld R.ICC_STAT 15 0 0 i.val = min n 65535) ∧
    ((islRange i.val).isSome = true → s.dev.bt R.ICC_CTL 31 0 i.val = false →
      answers (exec (.supplyDroop (.cd i)) s) s fun t =>
        (vget t.isl i).unlocked = true ∧ t.bt R.ICC_STAT 30 0 i.val = true ∧ t.bt R.ICC_STAT 29 0 i.val = false ∧
          t.rg R.ICC_DROOPS 0 i.val = min (s.dev.rg R.ICC_DROOPS 0 i.val + 1) (2 ^ R.ICC_DROOPS.w - 1)) ∧
    ((vget s.dev.isl i).unlocked = true → answers (exec (.islandRelock (.cd i)) s) s fun t =>
      (vget t.isl i).unlocked = false ∧ (waits = false → t.bt R.ICC_STAT 29 0 i.val = true))

/-- R51, R53: CDIE_ON starts the rise with VDD_ATR; a rail that reads near its voltage, or has settled, ends its
step; a step that times out or whose request is abandoned ends the rise with SEQERR; clearing CDIE_ON lets
the die fall, and its state is lost. -/
def Obligations.PowerSequence : Prop :=
  ∀ (ini v mode x : Nat) (s : State),
    let p := s.dev.pwr
    s.dev.wf = true →
    (s.dev.accepts ini R.PWR_CTL = true →
      (p.phase = .off → s.dev.bt R.PWR_CTL 31 = false → s.dev.bt R.CD_TRIPSTAT 31 = false →
        s.dev.railConfigured 4 = true → answers (exec (.cdieOnSet ini v) s) s fun t =>
          t.pwr.phase = .rising ∧ t.pwr.steps = [4, 3, 0, 1, 2, 5] ∧ t.pwr.pwren = true ∧ t.bt R.PWR_CTL 31 = true) ∧
      (p.phase = .on → s.dev.bt R.PWR_CTL 31 = true → answers (exec (.cdieOnClear ini v) s) s fun t =>
        t.pwr.phase = .falling ∧ t.pwr.steps = [] ∧ t.bt R.PWR_CTL 31 = false)) ∧
    (p.phase = .falling → s.dev.bt R.PWR_CTL 31 = false → answers (exec .computeDiePowerDown s) s fun t =>
      t.pwr.phase = .off ∧ t.cdieOn = false ∧ t.hub = .init ∧ t.host = .init ∧
        ∀ a, 0x40000000 ≤ a → a < 0x43000000 → t.byte a = 0) ∧
    (p.phase = .rising → p.steps = [4, 3, 0, 1, 2, 5] → s.dev.bt R.PWR_CTL 31 = true → s.dev.railConfigured 3 = true →
      let up := fun (t : Dev) =>
        (vget t.pwr.rails 4).on = true ∧ (vget t.pwr.rails 4).monitor = true ∧ t.pwr.steps = [3, 0, 1, 2, 5] ∧
          t.pwr.order = 4 :: p.order ∧ t.mem = s.dev.mem
      let fails := fun (t : Dev) =>
        t.pwr.phase = .off ∧ t.bt R.PWR_STAT 29 = true ∧ t.fld R.PWR_STAT 28 26 = 4 ∧ t.bt R.PWR_CTL 31 = false
      (modeLinear mode = true → readNear x mode 750 = true → answers (exec (.railVoutPoll mode (some x)) s) s up) ∧
      (modeLinear mode = false → p.settle = false → answers (exec (.railVoutPoll mode (some x)) s) s fun t =>
        t.pwr.settle = true ∧ t.pwr.steps = p.steps ∧ t.bt R.PMB_STAT 29 = true) ∧
      (answers (exec (.railVoutPoll mode none) s) s fun t => fails t ∧ t.bt R.PMB_STAT 31 = true) ∧
      (p.settle = true → answers (exec .railVsettleEnd s) s up) ∧
      (p.settle = false → answers (exec .railStepTimeout s) s fails))

/-- R49, R52, R53: ISL_ON gates switched islands at once, and one is powered later; clearing GAL_ON or STK_ON
gates the gallery or stack, whose memory is lost while all other memory stays. -/
def Obligations.IslandGating : Prop :=
  ∀ (ini v : Nat) (d : Fin 2) (i : Fin 7) (g : Fin 6) (k : Fin 4) (s : State),
    s.dev.wf = true →
    (s.dev.accepts ini R.PWR_CTL d.val = true → (bit v 31 == 1) = s.dev.bt R.PWR_CTL 31 →
      s.dev.bt R.CD_TRIPSTAT 31 = false →
      answers (exec (.islandPowerWrite ini d v) s) s fun t =>
        t.fld R.PWR_CTL 6 2 d.val = bits v 6 2 ∧ t.mem = s.dev.mem ∧
          (2 ≤ i.val → bit v i.val = 0 → (vget (vget t.ioIsl d) i).on = false) ∧
          (bit v i.val = 1 → (vget (vget t.ioIsl d) i).on = (vget (vget s.dev.ioIsl d) i).on)) ∧
    (s.dev.fitted d.val = true → 2 ≤ i.val → s.dev.bt R.PWR_CTL i.val d.val = true →
      answers (exec (.islandPowered d i) s) s fun t => (vget (vget t.ioIsl d) i).on = true ∧ t.mem = s.dev.mem) ∧
    (s.dev.accepts ini R.PWR_CISL = true → s.dev.pwr.phase = .on → s.dev.pwr.steps = [] →
      let old := s.dev.rg R.PWR_CISL
      (∀ j < 12, 8 + s.dev.asm.stacks ≤ j → bit old j = 0) →
      (bit old g.val = 1 → bit v g.val = 0 → (∀ j < 12, j ≠ g.val → bit v j = bit old j) →
        vget s.dev.pwr.gal g ≠ .gated →
        answers (exec (.galleryGateWrite ini v) s) s fun t =>
          vget t.pwr.gal g = .gated ∧ vget t.core (curator g) = .init ∧ (vget t.gal g).arr = .init ∧
            (∀ a, galStore g ≤ a → a < galStore g + 0x1000000 → t.byte a = 0) ∧
            ∀ a, (a < galStore g ∨ galStore g + 0x1000000 ≤ a) → t.byte a = s.dev.byte a) ∧
      (k.val < s.dev.asm.stacks → bit old (8 + k.val) = 1 → bit v (8 + k.val) = 0 →
        (∀ j < 12, j ≠ 8 + k.val → bit v j = bit old j) →
        let base := 0x800000000 + k.val * 0x200000000
        answers (exec (.stackGateWrite ini v) s) s fun t =>
          (vget t.isl ⟨9 + k.val, by omega⟩).on = false ∧
            (∀ a, base ≤ a → a < base + 0x200000000 → t.byte a = 0) ∧
            ∀ a, (a < base ∨ base + 0x200000000 ≤ a) → t.byte a = s.dev.byte a))

/-- R54 to R56: a brownout of VDD_ATR or VDD_HOST turns the compute die off; one of a gallery pair gates the pair
and clears GAL_ON; a pad rail holds its islands until it is back and its bit is cleared; an SMBus alert
records the status word of the rail that answers.
R58, R59, R543: a raise is applied once its voltage reads within 15 mV; a sensor at its limit in two
measurements running trips the compute die. -/
def Obligations.SupplyFaults : Prop :=
  (∀ (host io33 : Bool) (p : Fin 3) (d : Fin 2) (i : Fin 7) (r w : Nat) (s : State),
      s.dev.wf = true →
      let r0 : Fin 9 := if host then 3 else 4
      ((vget s.dev.pwr.rails r0).monitor = true → answers (exec (.brownoutAtrHost host) s) s fun t =>
        t.pwr.phase = .off ∧ t.bt R.PWR_CTL 31 = false ∧ t.bt R.BOD_STAT (if host then 6 else 5) = true ∧
          t.rg R.BOD_COUNT = min (s.dev.rg R.BOD_COUNT + 1) (2 ^ R.BOD_COUNT.w - 1)) ∧
      ((vget s.dev.pwr.rails ⟨p.val, by omega⟩).monitor = true → answers (exec (.galleryRailBrownout p) s) s fun t =>
        (∀ g : Fin 6, g.val / 2 = p.val → vget t.pwr.gal g = .gated ∧ t.bt R.PWR_CISL g.val = false) ∧
          t.bt R.BOD_STAT 7 = true ∧ t.bt R.FLT_STAT (15 + p.val) = true ∧
          (vget t.pwr.rails ⟨p.val, by omega⟩).on = false) ∧
      (s.dev.fitted d.val = true → 2 ≤ i.val → (if io33 then (padRails i).2 else (padRails i).1) = true →
        (answers (exec (.brownoutPadRail d io33) s) s fun t =>
          (vget (vget t.ioIsl d) i).held = true ∧ t.bt R.BOD_STAT (if io33 then 4 else 3) d.val = true ∧
            t.mem = s.dev.mem) ∧
        ((if io33 then vget s.dev.pwr.padLow18 d else vget s.dev.pwr.padLow33 d) = false →
          s.dev.bt R.BOD_STAT 3 d.val = false → s.dev.bt R.BOD_STAT 4 d.val = false →
          answers (exec (.padRailRecovery d io33) s) s fun t =>
            (vget (vget t.ioIsl d) i).held = false ∧ t.mem = s.dev.mem)) ∧
      (s.dev.bt R.PMB_CFG 31 = true → s.dev.alertRails = [r] →
        (s.dev.rg R.PMB_ALERT = 0 → answers (exec (.pmbAlert [some w]) s) s fun t =>
          t.rg R.PMB_ALERT = w % 65536 ∧ t.core = s.dev.core) ∧
        answers (exec (.pmbAlert [none]) s) s fun t =>
          t.rg R.PMB_ALERT = s.dev.rg R.PMB_ALERT ∧ t.bt R.PMB_STAT 31 = true)) ∧
  (∀ (t7 : Fin 7) (x : Raise) (v : Nat) (cd io : List Int) (s : State),
      s.dev.wf = true →
      (vget s.dev.pwr.raises t7 = some x →
        readAtLeast v (vget s.dev.pwr.rails (ceilRail t7)).mode (x.mv - 15) = true →
        answers (exec (.ceilingRiseConfirm t7 (some v)) s) s fun t =>
          vget t.pwr.ceil t7 = x.ceil ∧ vget t.pwr.raises t7 = none ∧ t.regs = s.dev.regs ∧ t.mem = s.dev.mem) ∧
      let limit := toS 16 (s.dev.rg R.CD_TRIP)
      let warm := fun (k : Fin 8) => s.dev.sensorUp k && decide (limit ≤ cd.getD k.val 0)
      ((∀ k, warm k = true → vget s.dev.test.hot k = false) → answers (exec (.thermalMeasure cd io) s) s fun t =>
        (∀ k : Fin 8, t.rg R.THRM_T 0 k.val =
          if s.dev.sensorUp k then 2 ^ 31 + ofS 16 (cd.getD k.val 0) else 0) ∧
        (∀ k, vget t.test.hot k = warm k) ∧ t.pwr = s.dev.pwr ∧ t.mem = s.dev.mem) ∧
      ∀ k, warm k = true → vget s.dev.test.hot k = true → (∀ j, j < k → (warm j && vget s.dev.test.hot j) = false) →
        answers (exec (.thermalMeasure cd io) s) s fun t =>
          t.pwr.phase = .off ∧ t.bt R.PWR_CTL 31 = false ∧ t.bt R.CD_TRIPSTAT 31 = true ∧
            t.fld R.CD_TRIPSTAT 2 0 = k.val)

/-- R60, R61, R64: a tick integrates the battery's current into BAT_Q, held between 0 and BAT_CAP; a write of
BAT_Q makes the charge known.
R62, R63: a full charge puts BAT_Q to BAT_CAP and a table fix to the charge the table gives, unless
software has written it in the tick; each sets its interrupt flag. -/
def Obligations.Battery : Prop :=
  (∀ (ini v : Nat) (s : State),
      s.dev.wf = true → s.dev.ldg.stage = .idle →
      let i : Int := vget (s.dev.ldg.mean.getD s.dev.ldg.prev) 3
      let gain := if 0 < i then i * (s.dev.fld R.BAT_PAR 23 16 : Int) else 256 * i
      let q : Int := 256000 * (s.dev.rg R.BAT_Q : Int) + s.dev.ldg.qRem + gain
      let cap := s.dev.rg R.BAT_CAP
      (answers (exec .ledgerTick s) s fun t =>
        t.ldg.tick = s.dev.ldg.tick + 1 ∧
          t.rg R.BAT_Q = (if q < 0 then 0 else if 256000 * (cap : Int) ≤ q then cap else (q / 256000).toNat) % 2 ^ 32) ∧
      (s.dev.accepts ini R.BAT_Q = true → answers (exec (.batQWrite ini v) s) s fun t =>
        t.rg R.BAT_Q = v % 2 ^ 32 ∧ t.bt R.LDG_STAT 31 = true ∧ t.ldg.qRem = 0 ∧ t.ldg.qWrote = true ∧
          t.mem = s.dev.mem ∧ t.core = s.dev.core)) ∧
  (∀ s : State, s.dev.wf = true →
      (s.dev.ldg.stage = .full → answers (exec .fullCharge s) s fun t =>
        (s.dev.ldg.qWrote = false → t.rg R.BAT_Q = s.dev.rg R.BAT_CAP % 2 ^ 32) ∧
          (s.dev.ldg.qWrote = true → t.rg R.BAT_Q = s.dev.rg R.BAT_Q) ∧
          t.bt R.LDG_STAT 31 = true ∧ t.bt R.LDG_IRQ 1 = true) ∧
      (s.dev.ldg.stage = .fix → answers (exec .tableFix s) s fun t =>
        (s.dev.ldg.qWrote = false → t.rg R.BAT_Q = s.dev.ocvCharge s.dev.batV % 2 ^ 32) ∧
          t.bt R.LDG_STAT 31 = true ∧ t.bt R.LDG_IRQ 2 = true))

/-- R65, R66: at the end of a ledger hour BUDGET is the smaller of BUD_CAP and the stored charge over the
horizon plus the weighted solar energy; RECALC asks for it.
R70, R74: GCAP of 0 puts FEFF back to 600 MHz; when the grace timer expires while the ledger enforces, the
works of the lowest running class are shed and counted. -/
def Obligations.LedgerHourAndCaps : Prop :=
  (∀ (ini v : Nat) (s : State), s.dev.wf = true →
      (s.dev.ldg.stage = .hour → s.dev.ldg.solar / 1000 < 2 ^ 64 → answers (exec .ledgerHourEnd s) s fun t =>
        let stored := (s.dev.rg R.BAT_Q - s.dev.rg R.Q_FLOOR) * s.dev.fld R.BAT_PAR 15 0
        t.rg R.HOUR_MS = 0 ∧ t.rg R.E_SOLAR_PREV = s.dev.ldg.solar / 1000 ∧ t.ldg.solar = s.dev.ldg.solar % 1000 ∧
          t.ldg.recalc = false ∧ t.bt R.LDG_IRQ 0 = true ∧
          t.rg R.BUDGET = min (s.dev.rg R.BUD_CAP) (stored / max 1 (s.dev.fld R.LDG_CTL 23 16)
            + s.dev.ldg.solar / 1000 * min 8 (s.dev.fld R.LDG_CTL 3 0) / 8) % 2 ^ 64) ∧
      (s.dev.ldg.stage = .idle → s.dev.accepts ini R.LDG_CTL = true →
        answers (exec (.ledgerRecalc ini v) s) s fun t =>
          t.ldg.recalc = true ∧ t.fld R.LDG_CTL 31 31 = bits v 31 31 ∧ t.fld R.LDG_CTL 23 16 = bits v 23 16 ∧
            t.mem = s.dev.mem)) ∧
  (∀ (ini v : Nat) (g : Fin 6) (s : State), s.dev.wf = true →
      (s.dev.ldg.stage = .idle → s.dev.accepts ini R.GCAP 0 g.val = true →
        answers (exec (.gcapWrite ini g v) s) s fun t =>
          t.rg R.GCAP 0 g.val = v % 2 ^ 32 ∧ (v % 2 ^ 32 = 0 → t.fld R.GSTAT 27 16 0 g.val = 600) ∧
            t.mem = s.dev.mem ∧ t.core = s.dev.core) ∧
      let low := fun (c : Nat) => s.dev.hub.works.filter (·.cls == c)
      let shed := if (low 3).isEmpty then low 2 else low 3
      (s.dev.ldg.stage = .grace → s.dev.enforce = true → shed ≠ [] → answers (exec .graceExpiry s) s fun t =>
        t.rg R.SHED_CNT = min (s.dev.rg R.SHED_CNT + shed.length) (2 ^ 32 - 1) ∧ t.bt R.LDG_IRQ 5 = true ∧
          t.ldg.stage = .idle) ∧
      (s.dev.ldg.stage = .grace → shed = [] → answers (exec .graceExpiry s) s fun t =>
        t.bt R.LDG_STAT 27 = false ∧ t.rg R.SHED_CNT = s.dev.rg R.SHED_CNT ∧ t.ldg.stage = .idle))

/-- R78 to R81: each reset of I/O die 0 records its cause and puts the warden and the boot ROM back to their
start, turning the compute die off; the release latches the straps. -/
def Obligations.Resets : Prop :=
  ∀ (ini v gpio : Nat) (d : Fin 2) (s : State),
    s.dev.wf = true →
    let resetTo := fun (n : Nat) (cold : Bool) (t : Dev) =>
      (vget t.die 0).inReset = true ∧ (vget t.die 0).rom = .start ∧ (vget t.die 0).cold = cold ∧
        t.fld R.RST_CAUSE 10 8 = n ∧ t.bt R.RST_CAUSE n = true ∧ vget t.core 6 = .init ∧ t.pwr.phase = .off ∧
        t.hub = .init ∧ t.rg R.LDG_CTL = R.LDG_CTL.rst s.dev.asm 0 0 0
    answers (exec (.powerOnReset 0 false) s) s (resetTo 0 true) ∧
    answers (exec (.powerOnReset 0 true) s) s (fun t => resetTo 0 true t ∧ t.bt R.RST_CAUSE 31 = true) ∧
    ((vget s.dev.die 0).vbat = true → answers (exec (.brownoutVddAo 0) s) s (resetTo 1 true)) ∧
    ((s.dev.fitted d.val = true) → answers (exec (.pinReset d) s) s (resetTo 2 false)) ∧
    (s.dev.accepts ini R.RST_CTL = true → answers (exec (.systemReset ini 0 v) s) s (resetTo 4 false)) ∧
    ((vget s.dev.die 0).inReset = false → answers (exec (.clockLoss 0) s) s (resetTo 6 false)) ∧
    (s.dev.fitted d.val = true → (vget s.dev.die d).inReset = true →
      answers (exec (.resetRelease d gpio) s) s fun t =>
        (vget t.die d).inReset = false ∧ t.rg R.STRAPS d.val = gpio % 2 ^ 14 ∧ t.mem = s.dev.mem ∧
          (calOk (vget s.dev.die d).calNv = false → (vget t.die d).calLive = calDefault ∧ t.bt R.CAL_STAT 31 d.val = true) ∧
          (calOk (vget s.dev.die d).calNv = true → (vget t.die d).calLive = (vget s.dev.die d).calNv)) ∧
    (s.dev.fitted d.val = true → answers (exec (.tapReset d) s) s fun t =>
      t = { s.dev with test := { s.dev.test with ir := 2 } })

/-- R92 to R95: host cores and galleries start where they are released, once the atrium and a gallery's store
are zero; W1_GO starts the warden of I/O die 1 in its wait. -/
def Obligations.ReleasesAndStarts : Prop :=
  ∀ (ini v : Nat) (c : Fin 4) (g : Fin 6) (s : State),
    s.dev.wf = true →
    (s.dev.accepts ini R.CRST_REL = true → s.dev.cdieOn = true →
      (bit v c.val = 1 → (vget s.dev.host.core c).run = .reset → s.dev.dmFlag 0x82 c = false → s.dev.dmFlag 0x83 c = false →
        answers (exec (.hostReleaseWrite ini v) s) s fun t =>
          vget t.host.core c = { HostCore.init with run := .running, pc := BitVec.ofNat 64 (s.dev.rg R.HOST_PC) } ∧
            t.bt R.CRST_REL c.val = true) ∧
      (bit v c.val = 0 → answers (exec (.hostReleaseWrite ini v) s) s fun t => vget t.host.core c = .init) ∧
      (bit v (4 + g.val) = 1 → vget s.dev.pwr.gal g = .reset → vget s.dev.pwr.zeroed g = true →
        answers (exec (.galleryReleaseWrite ini v) s) s fun t =>
          vget t.pwr.gal g = .run ∧ (vget t.core (curator g)).run = .running ∧
            (vget t.core (curator g)).pc = BitVec.ofNat 32 (s.dev.rg R.GREL_PC 0 g.val / 4 * 4) ∧
            (vget t.core (curator g)).status = 5)) ∧
    (vget s.dev.pwr.gal g = .zeroing → answers (exec (.storeZeroingDone g) s) s fun t =>
      vget t.pwr.gal g = .run ∧ vget t.pwr.zeroed g = true ∧ (vget t.core (curator g)).run = .running ∧
        (∀ a, galStore g ≤ a → a < galStore g + 0x1000000 → t.byte a = 0) ∧
        ∀ a, (a < galStore g ∨ galStore g + 0x1000000 ≤ a) → t.byte a = s.dev.byte a) ∧
    (s.dev.pwr.phase = .init → answers (exec .atriumInitDone s) s fun t =>
      t.cdieOn = true ∧ ∀ a, 0x40000000 ≤ a → a < 0x43000000 → t.byte a = 0) ∧
    (s.dev.accepts ini R.W1_GO 1 = true →
      ((vget s.dev.die 1).rom = .wait1 → answers (exec (.w1Go ini v) s) s fun t =>
        (vget t.die 1).rom = .running ∧ t.fld R.BOOT_STAT 7 0 1 = 1 ∧ (vget t.core 7).run = .running ∧
          (vget t.core 7).pc = BitVec.ofNat 32 (s.dev.rg R.W1_PC 1)) ∧
      ((vget s.dev.die 1).rom ≠ .wait1 → answers (exec (.w1Go ini v) s) s fun t => t = { s.dev with bus := t.bus }))

/-- R83, R88 to R91, R95: the ROM of I/O die 1 waits; that of I/O die 0 holds where the straps ask for it, and
an octal image is loaded once its header reads back, or its copy is refused; a dead boot port is noted and
a failed boot is retried through a reset. -/
def Obligations.BootSequence : Prop :=
  ∀ (n : Nat) (p : Fin 2) (s : State),
    s.dev.wf = true →
    (s.dev.fitted 1 = true → (vget s.dev.die 1).inReset = false → (vget s.dev.die 1).rom = .start →
      answers (exec (.bootSequence 1) s) s fun t =>
        (vget t.die 1).rom = .wait1 ∧ t.fld R.BOOT_STAT 7 0 1 = 4 ∧ t.core = s.dev.core) ∧
    ((vget s.dev.die 0).inReset = false → (vget s.dev.die 0).rom = .start → s.dev.fld R.STRAPS 1 0 = 3 →
      s.dev.dbgLock = false → answers (exec (.bootSequence 0) s) s fun t =>
        (vget t.die 0).rom = .hold ∧ t.fld R.BOOT_STAT 7 0 = 3 ∧ (vget t.core 6).run = .running ∧
          (vget t.core 6).pc.toNat < 0x10000) ∧
    (answers (exec (.flashBootTimeout p) s) s fun t =>
      vget (vget t.die 0).deadPort p = true ∧ t.mem = s.dev.mem ∧ t.core = s.dev.core ∧ t.regs = s.dev.regs) ∧
    ((vget s.dev.die 0).rom = .failed → answers (exec .bootRetryReset s) s fun t =>
      (vget t.die 0).inReset = true ∧ t.fld R.RST_CAUSE 10 8 = 4) ∧
    ∀ c, (vget s.dev.die 0).rom = .waitOctal n → s.dev.copies[n]? = some c → c.port = 0 →
      let set := ((s.dev.setF R.FL_CFG 29 28 (if s.dev.imgFlag c 2 then 2 else 1)).setF R.FL_CFG 10 8
        (s.dev.hdr c 0x49 1)).setF R.FL_CFG 4 0 (s.dev.hdr c 0x48 1)
      let loaded := (set.segs c).foldl (fun s g => s.loadSeg c g) set
      (loaded.signCode c = 0 → answers (exec (.octalSwitchWaitEnd true) s) s fun t =>
        (vget t.die 0).rom = .running ∧ t.fld R.BOOT_STAT 7 0 = 1 ∧ (vget t.core 6).run = .running ∧
          (vget t.core 6).pc = BitVec.ofNat 32 (loaded.hdr c 0x18 4)) ∧
      (s.dev.copies.length = n + 1 → s.dev.fld R.RST_CAUSE 23 20 < 2 →
        answers (exec (.octalSwitchWaitEnd false) s) s fun t =>
          (vget t.die 0).rom = .failed ∧ t.fld R.BOOT_STAT 15 8 = 0x16 ∧
            t.fld R.RST_CAUSE 23 20 = s.dev.fld R.RST_CAUSE 23 20 + 1)

/-- R97, R101, R102: the warden programs an OTP word, whose bits only rise; a sound staged block is committed and
becomes the live view when it reads back. -/
def Obligations.FusesAndCalibration : Prop :=
  ∀ (ini v : Nat) (d : Fin 2) (s : State),
    let x := vget s.dev.die d
    let w := bits v 12 8
    s.dev.wf = true →
    (s.dev.accepts (0x18 + d.val) R.OTP_CMD d.val = true → x.otpBusy = none → w ≤ 18 →
      answers (exec (.otpProgram (0x18 + d.val) d v) s) s fun t =>
        (vget t.die d).otpBusy = some (w, s.dev.rg R.OTP_DATA d.val) ∧ t.bt R.OTP_STAT 31 d.val = true ∧
          t.mem = s.dev.mem) ∧
    (s.dev.accepts ini R.OTP_CMD d.val = true → ini ≠ 0x18 + d.val → ini ≠ 0x3F →
      answers (exec (.otpProgram ini d v) s) s fun t => t = { s.dev with bus := t.bus }) ∧
    (∀ word data, s.dev.fitted d.val = true → x.otpBusy = some (word, data) →
      answers (exec (.otpProgramDone d true) s) s fun t =>
        SMap.get 0 (vget t.die d).otp word = SMap.get 0 x.otp word ||| data ∧ (vget t.die d).otpBusy = none ∧
          (∀ k, k ≠ word → SMap.get 0 (vget t.die d).otp k = SMap.get 0 x.otp k) ∧ t.bt R.OTP_STAT 31 d.val = false) ∧
    (s.dev.accepts (0x18 + d.val) R.CAL_CMD d.val = true → x.commit = none → SMap.get 0 x.otp 16 / 8 % 2 = 0 →
      (x.wear < 1000 → calSound x.calStage = true → calSource x.calStage = 2 →
        answers (exec (.calCommit (0x18 + d.val) d v) s) s fun t =>
          (vget t.die d).commit = some ⟨x.calStage⟩ ∧ (vget t.die d).wear = x.wear + 1 ∧ t.bt R.CAL_STAT 30 d.val = true) ∧
      (1000 ≤ x.wear → answers (exec (.calCommit (0x18 + d.val) d v) s) s fun t =>
        t.fld R.CAL_STAT 23 20 d.val = 5 ∧ (vget t.die d).commit = none ∧ (vget t.die d).calLive = x.calLive)) ∧
    ∀ c, s.dev.fitted d.val = true → x.commit = some c → s.dev.measuring d = false → calOk c.buf = true →
      answers (exec (.calCommitDone d true) s) s fun t =>
        (vget t.die d).calNv = c.buf ∧ (vget t.die d).calLive = c.buf ∧ (vget t.die d).commit = none ∧
          t.bt R.CAL_STAT 30 d.val = false ∧ t.fld R.CAL_STAT 23 20 d.val = 1 ∧ t.mem = s.dev.mem

/-- R515 to R517: a kick with the key reloads CNT and a wrong key in STRICT is the expiry, which is stated with
the unit boundary; EN, LOCK and STRICT are kept once LOCK is 1; CNT falls by one at a unit boundary, WARNED is
set where it reaches WARN, and at 0 the watched domain is reset. -/
def Obligations.Watchdogs : Prop :=
  ∀ (ini v : Nat) (w : Wdog) (s : State), s.dev.wf = true →
    let r := wdogR w
    let cnt := s.dev.rg r.cnt r.k r.i
    let reload := s.dev.rg r.tmo r.k r.i % 2 ^ 32
    (s.dev.accepts ini r.cnt r.k r.i = true →
      (v % 65536 = 0x4B1C → answers (exec (.watchdogKick ini w v) s) s fun t =>
        t.rg r.cnt r.k r.i = reload ∧ t.mem = s.dev.mem ∧ t.core = s.dev.core) ∧
      (v % 65536 ≠ 0x4B1C → (s.dev.wdogCtl w 28 = false ∨ s.dev.wdogCtl w 31 = false) →
        answers (exec (.watchdogKick ini w v) s) s fun t => t = { s.dev with bus := t.bus })) ∧
    (s.dev.accepts ini r.ctl r.k r.i = true → answers (exec (.watchdogEnable ini w v) s) s fun t =>
      (s.dev.wdogCtl w 30 = true → t.wdogCtl w 31 = s.dev.wdogCtl w 31 ∧ t.wdogCtl w 30 = true ∧
        t.wdogCtl w 28 = s.dev.wdogCtl w 28 ∧ t.wdogCtl w 29 = (bit v 29 == 1)) ∧
      (s.dev.wdogCtl w 30 = false → t.wdogCtl w 31 = true ∧ t.wdogCtl w 30 = (bit v 30 == 1) ∧
        t.wdogCtl w 29 = (bit v 29 == 1) ∧ t.wdogCtl w 28 = (bit v 28 == 1) ∧
        (s.dev.wdogCtl w 31 = false → t.rg r.cnt r.k r.i = reload)) ∧
      t.mem = s.dev.mem ∧ t.core = s.dev.core) ∧
    (s.dev.wdogRuns w = true → s.dev.wdogCtl w 31 = true → s.dev.romKicks w = false →
      (1 < cnt → answers (exec (.watchdogUnit w) s) s fun t =>
        t.rg r.cnt r.k r.i = (cnt - 1) % 2 ^ 32 ∧ t = { s.dev with regs := t.regs }) ∧
      (1 < cnt → cnt = SMap.get 65536 s.dev.wdogWarn (wdogA w) + 1 →
        answers (exec (.watchdogWarn w) s) s fun t => match w with
          | .gal g => t.bt R.GFLT_STAT 3 g.val = true
          | .host c => t.bt R.FLT_STAT (18 + c.val) = true
          | .ao d => t.bt R.AOFLT_STAT 2 d.val = true) ∧
      (cnt = 1 → answers (exec (.watchdogExpire w) s) s fun t => match w with
        | .gal g => t.bt R.GFLT_STAT 4 g.val = true ∧ vget t.pwr.gal g = .reset ∧ vget t.core (curator g) = .init ∧
            t.bt R.CRST_REL (4 + g.val) = false
        | .host c => t.bt R.FLT_STAT (22 + c.val) = true ∧ vget t.host.core c = .init ∧
            t.bt R.CRST_REL c.val = false
        | .ao d => (vget t.die d).inReset = true ∧ t.fld R.RST_CAUSE 10 8 d.val = 3 ∧
            vget t.core (warden d) = .init))

/-- R436 to R439, R441: VBAT's rise resets the meridian; a second counts; HALT stops the count, lets writes of it
land and counts what passes; OSF follows its causes; an alarm that has been passed sets its flag and moves on
by its period, or disables itself. -/
def Obligations.Meridian : Prop :=
  ∀ (ini v : Nat) (d : Fin 2) (k : Fin 4) (sub low : Bool) (s : State),
    s.dev.wf = true → s.dev.fitted d.val = true →
    let stat := fun (t : Dev) (b : Nat) => t.bt R.MER_STAT b d.val
    let sec := s.dev.fld R.MER_SEC 39 0 d.val
    let halted := s.dev.bt R.MER_CTL 31 d.val
    answers (exec (.vbatRise d low) s) s (fun t =>
      t.merCount d.val = 0 ∧ stat t 31 = true ∧ stat t 30 = low ∧ (∀ b ≤ 29, stat t b = false) ∧
        t.bt R.MER_CTL 31 d.val = false ∧ (∀ i < 4, t.bt R.ALM_CTL 31 d.val i = false) ∧
        (vget t.die d).vbat = true) ∧
    (halted = false → answers (exec (.meridianSecond d) s) s fun t =>
      t.fld R.MER_SEC 39 0 d.val = (sec + 1) % 2 ^ 40 ∧ t.fld R.MER_SUB 14 0 d.val = 0 ∧ t.mem = s.dev.mem) ∧
    (s.dev.accepts ini R.MER_CTL d.val = true →
      answers (exec (.meridianHalt ini d v) s) s (fun t =>
        t.bt R.MER_CTL 31 d.val = true ∧ t.merCount d.val = s.dev.merCount d.val ∧
          (halted = false → t.rg R.MER_HOLD d.val = 0) ∧ t.mem = s.dev.mem) ∧
      (halted = true → answers (exec (.meridianResume ini d v) s) s fun t =>
        t.bt R.MER_CTL 31 d.val = false ∧ t.rg R.MER_HOLD d.val = s.dev.rg R.MER_HOLD d.val ∧ t.mem = s.dev.mem ∧
          t.merCount d.val = if bit v 30 = 1 then (s.dev.merCount d.val + s.dev.rg R.MER_HOLD d.val) % 2 ^ 55
            else s.dev.merCount d.val)) ∧
    (s.dev.accepts ini (if sub then R.MER_SUB else R.MER_SEC) d.val = true →
      answers (exec (.meridianSet ini d sub v) s) s fun t =>
        (halted = false → stat t 27 = true ∧ t.merCount d.val = s.dev.merCount d.val) ∧
        (halted = true → sub = true → t.fld R.MER_SUB 14 0 d.val = v % 2 ^ 15 ∧ t.fld R.MER_SEC 39 0 d.val = sec) ∧
        (halted = true → sub = false → t.fld R.MER_SEC 39 0 d.val = v % 2 ^ 40 ∧
          t.fld R.MER_SUB 14 0 d.val = s.dev.fld R.MER_SUB 14 0 d.val)) ∧
    answers (exec (.crystalMiss d) s) s (fun t => stat t 31 = true ∧ stat t 29 = true) ∧
    answers (exec (.vbatBrownout d) s) s (fun t => stat t 31 = true ∧ stat t 28 = true ∧ stat t 30 = true) ∧
    (bit (vget s.dev.tt d).almDue k.val = 1 → answers (exec (.alarmFire d k) s) s fun t =>
      let per := s.dev.rg R.ALM_PER d.val k.val
      let old := s.dev.fld R.ALM_SEC 39 0 d.val k.val
      stat t k.val = true ∧ (per = 0 → t.bt R.ALM_CTL 31 d.val k.val = false) ∧
        (0 < per →
          ∃ n, t.fld R.ALM_SEC 39 0 d.val k.val = (old + n * per) % 2 ^ 40 ∧
            s.dev.merCount d.val < (old + n * per) * 2 ^ 15 + s.dev.fld R.ALM_CTL 14 0 d.val k.val ∧
            (n = 0 ∨ (old + (n - 1) * per) * 2 ^ 15 + s.dev.fld R.ALM_CTL 14 0 d.val k.val ≤ s.dev.merCount d.val)))

/-- R442 to R447: what the corrections of station time do and when they are ignored; a TCXO cycle advances it by
625/24 ns and the rate correction; a capture lies within 1 ns of the edge; and LOCK falls with the source or
with a missing edge. -/
def Obligations.StationTime : Prop :=
  ∀ (ini v off : Nat) (up : Bool) (s : State), s.dev.wf = true →
    let time := s.dev.time
    let werr := fun (t : Dev) => t.bt R.TS_STAT 26 = true ∧ t.time = time ∧
      t.rg R.TS_FADJ = s.dev.rg R.TS_FADJ ∧ t.rg R.TS_CTL = s.dev.rg R.TS_CTL ∧ t.mem = s.dev.mem
    let may := s.dev.tsSrc ≠ 2 ∨ ini = 0x1C
    (s.dev.accepts ini R.TS_FADJ = true → answers (exec (.tsFadjWrite ini v) s) s fun t =>
      (may → t.rg R.TS_FADJ = v % 2 ^ 32 ∧ t.time = time ∧ t.mem = s.dev.mem) ∧ (¬ may → werr t)) ∧
    (s.dev.accepts ini R.TS_SLEW = true → answers (exec (.tsSlewWrite ini v) s) s fun t =>
      (may → t.time = { time with slew := toS 32 (v % 2 ^ 32) * (tsNs : Int) } ∧ t.regs = s.dev.regs) ∧
        (¬ may → werr t)) ∧
    (s.dev.accepts ini R.TS_STEP = true → answers (exec (.tsStepWrite ini v) s) s fun t =>
      (may → t.time = { time with step := some (time.step.getD 0 + toS 64 (v % 2 ^ 64)) } ∧ t.regs = s.dev.regs) ∧
        (¬ may → werr t)) ∧
    (s.dev.accepts ini R.TS_CTL = true → answers (exec (.tsCtlWrite ini v) s) s fun t =>
      let bad := bits v 1 0 = 3 ∨ bits v 20 16 < 8 ∨ 20 < bits v 20 16
      (bad → werr t) ∧
      (¬ bad → t.tsSrc = bits v 1 0 ∧ t.fld R.TS_CTL 20 16 = bits v 20 16 ∧ t.bt R.TS_CTL 8 = (bit v 8 == 1) ∧
        (bits v 1 0 = s.dev.tsSrc → t.lock = s.dev.lock) ∧
        (bits v 1 0 ≠ s.dev.tsSrc → t.lock = (bits v 1 0 == 2 && s.dev.bt R.TS_STAT 27)))) ∧
    (let q : Int := 625 * 2 ^ (40 - s.dev.fld R.TS_CTL 20 16)
     time.slew ≤ q → -q ≤ time.slew → answers (exec .slewComplete s) s fun t =>
      t = { s.dev with time := { time with units := tsAdd time.units time.slew, slew := 0 } }) ∧
    (s.pending = [] → (vget s.dev.die 0).inReset = false → time.slew = 0 → time.step = none →
      ∃ t, step s = .next { s with dev := t } ∧
        t.time.units = tsAdd time.units (625 * 2 ^ 40 + 625 * toS 32 (s.dev.rg R.TS_FADJ))) ∧
    (up = s.dev.bt R.TS_CTL 8 → answers (exec (.ppsCapture up off) s) s fun t => t = s.dev) ∧
    (up ≠ s.dev.bt R.TS_CTL 8 →
      ((∃ a, time.ppsAge = some a ∧ a < 19200000) → answers (exec (.ppsCapture up off) s) s fun t =>
        t.rg R.PPS_IGN = min (s.dev.rg R.PPS_IGN + 1) (2 ^ 32 - 1) ∧ t = { s.dev with regs := t.regs }) ∧
      ((∀ a, time.ppsAge = some a → 19200000 ≤ a) → answers (exec (.ppsCapture up off) s) s fun t =>
        ∃ e : Int, (off % tsTickUnits : Nat) - (tsNs : Int) ≤ e ∧ e ≤ (off % tsTickUnits : Nat) + (tsNs : Int) ∧
          t.rg R.PPS_CAP = tsAdd time.units e / tsNs ∧
          t.rg R.PPS_INFO = ofS 32 (ppsErr (tsAdd time.units e / tsNs)) ∧
          t.rg R.PPS_SEQ = (s.dev.rg R.PPS_SEQ + 1) % 2 ^ 32 ∧ t.time.ppsAge = some 0)) ∧
    (∀ a, time.ppsTimer = some a → s.dev.tsSrc = 1 → 57600000 ≤ a → answers (exec .ppsMissTimeout s) s fun t =>
      t.lock = false ∧ t.bt R.TS_STAT 29 = true ∧ t.time.ppsTimer = none ∧ t.mem = s.dev.mem)

/-- R449 to R455: arming an entry, refusing an ill-formed or an armed one, keeping a late one for the next cycle,
disarming; and a pin action that fires on time. -/
def Obligations.Timetable : Prop :=
  ∀ (ini v : Nat) (d : Fin 2) (n : Fin 256) (s : State), s.dev.wf = true →
    let act := s.dev.rg R.TT_ACT d.val n.val
    let arg := s.dev.rg R.TT_ARG d.val n.val
    let time := s.dev.rg R.TT_TIME d.val n.val
    let per := s.dev.rg R.TT_PER d.val n.val
    (s.dev.accepts ini R.TT_CTL d.val n.val = true →
      (bit v 30 = 0 → answers (exec (.ttArm ini d n v) s) s fun t =>
        (s.dev.ttValid d n.val = true → t.ttValid d n.val = true ∧ t.bt R.TT_STAT 29 d.val n.val = true ∧
          t.fld R.TT_CTL 28 26 d.val n.val = s.dev.fld R.TT_CTL 28 26 d.val n.val ∧ t.tt = s.dev.tt) ∧
        (s.dev.ttValid d n.val = false → actOk act arg = false →
          t.ttValid d n.val = false ∧ t.bt R.TT_STAT 29 d.val n.val = true ∧ t.tt = s.dev.tt) ∧
        (s.dev.ttValid d n.val = false → actOk act arg = true →
          (s.dev.tk + 2 < time → t.ttValid d n.val = true ∧ t.fld R.TT_CTL 28 26 d.val n.val = bits v 28 26 ∧
            t.fld R.TT_STAT 15 0 d.val n.val = 0 ∧ t.tt = s.dev.tt ∧ t.mem = s.dev.mem) ∧
          (time ≤ s.dev.tk + 2 → bit v 28 = 0 → t.ttValid d n.val = true ∧
            (vget t.tt d).late = (vget s.dev.tt d).late ++ [(n.val, (vget s.dev.die d).tcxo)]))) ∧
      (bit v 31 = 0 → answers (exec (.ttDisarm ini d n v) s) s fun t =>
        t.ttValid d n.val = false ∧ (vget t.tt d).late = (vget s.dev.tt d).late.filter (·.1 != n.val) ∧
          t.rg R.TT_TIME d.val n.val = time ∧ t.mem = s.dev.mem)) ∧
    (s.dev.fitted d.val = true → (∀ m < 256, s.dev.ttDue d m = none) →
      answers (exec (.timetableFire d) s) s fun t => t = s.dev) ∧
    (s.dev.fitted d.val = true → (vget s.dev.die d).inReset = false → s.dev.ttDue d n.val = some false →
      (∀ m < 256, m ≠ n.val → s.dev.ttDue d m = none) → bits act 31 28 = 1 →
      answers (exec (.timetableFire d) s) s fun t =>
        t.bt R.TT_PINS (act % 4) d.val = (if bit act 3 = 0 then bit act 2 == 1 else !s.dev.bt R.TT_PINS (act % 4) d.val) ∧
          t.fld R.TT_STAT 27 24 d.val n.val = 1 ∧ t.rg R.TT_LATEBY d.val n.val = ofS 32 ((s.dev.tk : Int) - time) ∧
          t.rg R.TT_FIRES d.val = min (s.dev.rg R.TT_FIRES d.val + 1) (2 ^ 32 - 1) ∧
          (per = 0 → t.ttValid d n.val = false) ∧
          (0 < per → t.ttValid d n.val = true ∧ t.rg R.TT_TIME d.val n.val = (time + per) % 2 ^ 64) ∧
          t.mem = s.dev.mem ∧ t.core = s.dev.core)

/-- R461, R464, R466, R468, R469, R471 to R475, R479: links come up, fall and are repaired; frames are checked
and delivered; HELLO and TOPO are sent and taken in; map entries expire; and the station takes, keeps or gives
up its number. -/
def Obligations.SurveyLinks : Prop :=
  ∀ (ini v : Nat) (d l : Fin 2) (los modabs : Bool) (b : List Byte) (s : State),
    s.dev.wf = true → s.dev.fitted d.val = true →
    let x := s.dev.lnk d l
    let st := vget s.dev.trk d
    let irq := fun (t : Dev) (k : Nat) => t.bt R.TRK_IRQ k d.val = true
    (s.dev.lnkOn d l = true → x.up = false → 20 ≤ x.good → answers (exec (.linkUp d l) s) s fun t =>
      (t.lnk d l).up = true ∧ (t.lnk d l).upAt = s.dev.cyc d ∧ (t.lnk d l).wrap = x.wrap ∧ irq t 0 ∧
        t.bt R.TRK_STAT (28 + l.val) d.val = false ∧ t.bt R.TRK_STAT (26 + l.val) d.val = false) ∧
    (x.up = true → answers (exec (.linkDown d l los modabs) s) s fun t =>
      (t.lnk d l).up = false ∧ (t.lnk d l).good = 0 ∧ irq t 0 ∧
        t.bt R.TRK_STAT (28 + l.val) d.val = los ∧ t.bt R.TRK_STAT (26 + l.val) d.val = modabs ∧
        (st.ring = none → (t.lnk d l).wrap = x.wrap) ∧
        ∀ n c, st.ring = some (n, c) → (t.lnk d l).wrap = some n ∧ irq t 6) ∧
    (x.up = true → x.wrap.isSome = true → x.upAt + 38400000 ≤ s.dev.cyc d →
      answers (exec (.spanRepair d l) s) s fun t => (t.lnk d l).wrap = none ∧ irq t 6) ∧
    (s.dev.lnkOn d l = true → x.quiet = true → answers (exec (.helloSend d l) s) s fun t =>
      t.sends d l fun f => fCls f = 0 ∧ fTyp f = 2 ∧ fPay f 0 8 = trkUid d ∧
        ∀ k : Fin 3, fPay f (12 + 4 * k.val) 4 = vget x.given k % 2 ^ 32) ∧
    (s.dev.lnkOn d l = true →
      (headOk b = false → answers (exec (.frameReceive d l b) s) s fun t =>
        t.rg R.HCSERR d.val l.val = min (s.dev.rg R.HCSERR d.val l.val + 1) (2 ^ 32 - 1) ∧
          (t.lnk d l).good = 0 ∧ (vget t.trk d).inbox = st.inbox) ∧
      (headOk b = true → fCls b = 0 → fTyp b ≤ 2 → answers (exec (.frameReceive d l b) s) s fun t =>
        t.rg R.RXFRM d.val l.val = min (s.dev.rg R.RXFRM d.val l.val + 1) (2 ^ 32 - 1) ∧
          (fTyp b = 2 → (t.lnk d l).good = if crcOk b then x.good + 1 else 0) ∧
          (crcOk b = true → ∃ k < 5, (vget t.trk d).inbox = st.inbox ++ [⟨l, b, s.dev.ns + k - 2, false⟩]) ∧
          (crcOk b = false → (vget t.trk d).inbox = st.inbox ∧
            t.rg R.CRCERR d.val l.val = min (s.dev.rg R.CRCERR d.val l.val + 1) (2 ^ 32 - 1)))) ∧
    (∀ f fs, s.dev.inHead d f fs 0 2 → answers (exec (.helloReceive d) s) s fun t =>
      (vget t.trk d).inbox = fs ∧
        t.rg R.LNK_NBR d.val f.link.val = bit (fPay f.bytes 8 2) 15 * 2 ^ 31 + fPay f.bytes 8 2 % 1024 ∧
        t.rg R.LNK_NBRUID d.val f.link.val = fPay f.bytes 0 8 ∧
        ∀ k : Fin 3, vget (t.lnk d f.link).grant k = fPay f.bytes (12 + 4 * k.val) 4) ∧
    (s.dev.lnkOn d l = true → x.quiet = true → answers (exec (.topoSend d) s) s fun t =>
      t.sends d l fun f => fCls f = 0 ∧ fTyp f = 3 ∧ fBcast f = true ∧ fTtl f = 1023 ∧ fPay f 0 8 = trkUid d ∧
        bit (fPay f 8 2) 15 = b2n (s.dev.numOk d)) ∧
    (∀ f fs, s.dev.inHead d f fs 0 3 → answers (exec (.topoReceive d) s) s fun t =>
      let uid := beAt ((f.bytes.drop 16).take 16) 0 8
      let hops := 1024 - fTtl f.bytes
      (vget t.trk d).inbox = fs ∧
        (uid = trkUid d → (vget t.trk d).ring = some (hops, s.dev.cyc d) ∧ (vget t.trk d).map = st.map) ∧
        (uid ≠ trkUid d → ∃ e ∈ (vget t.trk d).map, e.uid = uid ∧ vget e.hear f.link = some (hops, s.dev.cyc d) ∧
          e.payload = (f.bytes.drop 16).take 16)) ∧
    (∀ uid, let old := fun (n : Nat) => n + 3 * s.dev.topoPer d < s.dev.cyc d
      (∀ n c, uid = trkUid d → st.ring = some (n, c) → old c → answers (exec (.topoEntryExpire d uid) s) s fun t =>
        (vget t.trk d).ring = none ∧ irq t 1) ∧
      (∀ e, uid ≠ trkUid d → s.dev.heard d uid = some e → (∃ k, vget e.hear k ≠ none) →
        (∀ k h c, vget e.hear k = some (h, c) → old c) → answers (exec (.topoEntryExpire d uid) s) s fun t =>
        (vget t.trk d).map = st.map.filter (·.uid != uid) ∧ irq t 1)) ∧
    (s.dev.trkOn d = true → s.dev.fld R.TRK_STN 29 28 d.val = 0 → s.dev.numOk d = false →
      st.changed + 3 * s.dev.topoPer d ≤ s.dev.cyc d → answers (exec (.election d) s) s fun t =>
        t.numOk d = true ∧ t.num d = s.dev.elect d % 1024 ∧ t.bt R.TRK_STAT 20 d.val = false ∧ irq t 2) ∧
    (s.dev.accepts ini R.TRK_STN d.val = true → answers (exec (.trkStnWrite ini d v) s) s fun t =>
      t.fld R.TRK_STN 29 28 d.val = bits v 29 28 ∧ (bits v 29 28 = 0 → t.numOk d = false) ∧
        (bits v 29 28 = 3 → t.numOk d = true ∧ t.num d = bits v 9 0 ∧ t.bt R.TRK_STAT 20 d.val = false)) ∧
    (s.dev.accepts ini R.TRK_CMD d.val = true → answers (exec (.reelect ini d v) s) s fun t =>
      (s.dev.fld R.TRK_STN 29 28 d.val = 0 → t.numOk d = false ∧ t.bt R.TRK_STAT 20 d.val = false) ∧
        (s.dev.fld R.TRK_STN 29 28 d.val ≠ 0 → t.rg R.TRK_STN d.val = s.dev.rg R.TRK_STN d.val)) ∧
    (s.dev.slock d = true → st.slAt + 38400000 ≤ s.dev.cyc d → answers (exec (.slockTimeout d) s) s fun t =>
      t.slock d = false ∧ irq t 5 ∧
        (d = 0 → t.bt R.TS_STAT 27 = false ∧ (s.dev.tsSrc = 2 → t.lock = false)))

/-- R465, R476, R477, R480, R482 to R486: time frames and their results, the calibration of a link, operations
of other stations on cells and rings, bulk data and the end of a frame. -/
def Obligations.TrunkTransfers : Prop :=
  ∀ (ini v : Nat) (d l : Fin 2) (s : State),
    s.dev.wf = true → s.dev.fitted d.val = true → s.dev.hub.txq = [] →
    let x := s.dev.lnk d l
    let st := vget s.dev.trk d
    let c1 := fun (t : Dev) (r : RegDef) (i : Nat) => t.rg r d.val i = min (s.dev.rg r d.val i + 1) (2 ^ 32 - 1)
    (s.dev.lnkOn d l = true → x.quiet = true → answers (exec (.ttExchangeStart d l) s) s fun t =>
      t.sends d l (fun f => fCls f = 0 ∧ fTyp f = 0 ∧ fPay f 0 4 = x.seq % 2 ^ 32) ∧
        (t.lnk d l).seq = (x.seq + 1) % 2 ^ 32 ∧
        ∃ k < 5, ∃ e, (t.lnk d l).exch = some e ∧ e.seq = x.seq % 2 ^ 32 ∧ e.start = s.dev.cyc d ∧
          e.t1 = s.dev.ns + k - 2) ∧
    (∀ f fs, s.dev.inHead d f fs 0 0 → s.dev.lnkOn d f.link = true → (s.dev.lnk d f.link).quiet = true →
      answers (exec (.ttReqReceive d) s) s fun t => (vget t.trk d).inbox = fs ∧
        ∃ k < 5, t.sends d f.link fun g => fCls g = 0 ∧ fTyp g = 1 ∧ fTag g = fTag f.bytes ∧
          fPay g 0 4 = fPay f.bytes 0 4 ∧ fPay g 8 8 = f.t % 2 ^ 64 ∧ fPay g 16 8 = (s.dev.ns + k - 2) % 2 ^ 64) ∧
    (∀ f fs e, s.dev.inHead d f fs 0 1 → (s.dev.lnk d f.link).exch = some e → e.tag = fTag f.bytes →
      e.seq = fPay f.bytes 0 4 → (s.dev.lnk d f.link).acal = none →
      answers (exec (.ttRespReceive d) s) s fun t =>
        let t2 : Int := fPay f.bytes 8 8
        let t3 : Int := fPay f.bytes 16 8
        let asym := toS 32 (s.dev.rg R.LNK_ASYM d.val f.link.val)
        (vget t.trk d).inbox = fs ∧
          t.rg R.LNK_OFS d.val f.link.val = ofS 32 (rhe (1000 * ((t2 - e.t1) - (f.t - t3)) - asym) 2) ∧
          t.rg R.LNK_DLY d.val f.link.val = ofS 32 (rhe (1000 * ((f.t - e.t1) - (t3 - t2))) 2) ∧
          t.rg R.LNK_SEQ d.val f.link.val = (s.dev.rg R.LNK_SEQ d.val f.link.val + 1) % 2 ^ 32) ∧
    (∀ e, x.exch = some e → e.start + 192000 ≤ s.dev.cyc d → answers (exec (.ttExchangeLost d l) s) s fun t =>
      (t.lnk d l).exch = none ∧ c1 t R.TTLOST l.val ∧ t.mem = s.dev.mem) ∧
    (s.dev.accepts ini R.TRK_CMD = true → bit v 31 = 0 → bit v 0 = 1 → bit v 1 = 0 →
      answers (exec (.asymmetryCalibrate ini 0 v) s) s fun t =>
        let ok := s.dev.tsSrc = 1 ∧ s.dev.lock = true ∧ (s.dev.lnk 0 0).nbrLock = true
        (ok → (t.lnk 0 0).acal = some ⟨max 1 (s.dev.fld R.LNK_ACAL 7 0), 0, 0⟩ ∧ t.bt R.LNK_ACAL 31 = true) ∧
          (¬ ok → (t.lnk 0 0).acal = (s.dev.lnk 0 0).acal ∧ t.bt R.LNK_ACAL 30 = true)) ∧
    (∀ f fs, s.dev.inHead 0 f fs 2 0 → s.dev.hub.popWaits = [] →
      let r := fPay f.bytes 0 2 % 1024
      let q := s.dev.ring r
      let open' := s.dev.cdieOn = true ∧ s.dev.ringEn r = true ∧ s.dev.bt R.RING_CFG 25 0 r = true
      (¬ open' → answers (exec (.remotePostReceive 0) s) s fun t => (vget t.trk 0).inbox = fs ∧
        t.rg R.RREMOTE = min (s.dev.rg R.RREMOTE + 1) (2 ^ 32 - 1) ∧ t.ring r = q ∧ t.mem = s.dev.mem) ∧
      (open' → s.dev.ledgerRefuses (s.dev.ringClass r) = false → 1000 ≤ s.dev.rg R.RING_TOK 0 r →
        q.rocc < s.dev.ringN r - s.dev.ringS r → answers (exec (.remotePostReceive 0) s) s fun t =>
          (vget t.trk 0).inbox = fs ∧ t.ring r = ⟨q.rocc + 1, q.socc, (q.seq + 1) % 2 ^ 32⟩)) ∧
    (∀ f fs, s.dev.inHead 0 f fs 1 0 →
      let op := fPay f.bytes 0 1
      let c := fPay f.bytes 2 2
      let a := fPay f.bytes 4 4
      (op = 6 → answers (exec (.remoteCancelReceive 0) s) s fun t => (vget t.trk 0).inbox = fs ∧
        t.hub.waits = s.dev.hub.waits.filter fun w => !w.isOf 0 (fSrc f.bytes) (fTag f.bytes)) ∧
      (s.dev.cdieOn = true → SMap.get 0 s.dev.hub.ecc c = 0 → s.dev.cellBad c = false →
        (1 ≤ op → op ≤ 3 → answers (exec (.remoteCellOpReceive 0) s) s fun t => (vget t.trk 0).inbox = fs ∧
          t.cell c = (if op = 1 then (s.dev.cell c + a) % 2 ^ 32 else if op = 2 then a else s.dev.cell c) ∧
          ∀ k, k ≠ c → t.cell k = s.dev.cell k) ∧
        (op = 4 ∨ op = 5 → s.dev.hub.waits.length < 1024 → fPay f.bytes 8 4 ≠ 0 →
          let w : Wait := ⟨.remote 0 (fSrc f.bytes) (fTag f.bytes), c, op == 5, a, some (fPay f.bytes 8 4), 0⟩
          w.met (s.dev.cell c) = false → answers (exec (.remoteCellOpReceive 0) s) s fun t =>
            (vget t.trk 0).inbox = fs ∧ t.hub.waits = s.dev.hub.waits ++ [w] ∧ t.cell c = s.dev.cell c))) ∧
    (∀ stn tag, answers (exec (.remoteWaitExpire d stn tag) s) s fun t =>
      t.hub.waits = s.dev.hub.waits.filter fun w => !(w.isOf d stn tag && decide (w.timeout.getD 0 + 10000 < w.age))) ∧
    (let r := 24 + 8 * d.val
     let e := s.dev.rdBytes (s.dev.ringHead r) 64
     let fld := fun (o n : Nat) => leNat ((e.drop o).take n)
     let len := fld 0x14 2
     s.dev.trkOn d = true → s.dev.cdieOn = true → s.dev.ringEn r = true → 0 < s.dev.ringOcc r →
      s.dev.clean (s.dev.ringHead r) 64 = true → bit (fld 0xC 2) 15 = 0 → s.dev.numOk d = true → fld 0x10 2 < 1024 →
      4 ≤ len → len ≤ 2040 → len % 4 = 0 → inAtrium (fld 0x20 8) len = true → s.dev.clean (fld 0x20 8) len = true →
      s.dev.poisoned (fld 0x20 8) len = false → (s.dev.route d (fld 0x10 2)).isSome = true →
      s.dev.refusal (0x1C + d.val) (fld 0x20 8) len .rd = none →
      answers (exec (.bulkSend d) s) s fun t =>
        (vget t.trk d).bulk = st.bulk ++ [⟨fld 0 4, 1⟩] ∧ t.ringOcc r = s.dev.ringOcc r - 1 ∧
          (vget t.trk d).tag = (st.tag + 1) % 2 ^ 32 ∧ t.mem = s.dev.mem) ∧
    (∀ f fs, s.dev.inHead d f fs 3 0 → s.dev.ringEn (25 + 8 * d.val) = false →
      let free := (st.rxK + 2 ^ 32 - s.dev.cell (s.dev.fld R.TRK_RXREL 15 0 d.val)) % 2 ^ 32 < s.dev.rxBufs d
      let a := s.dev.fld R.TRK_RXBASE 39 11 d.val * 2048 + 2048 * (st.rxK % s.dev.rxBufs d)
      let p := (f.bytes.drop 24).take (fLen f.bytes - 8)
      (¬ free ∨ s.dev.cdieOn = false → answers (exec (.bulkReceive d) s) s fun t => (vget t.trk d).inbox = fs ∧
        c1 t R.RXDROP 0 ∧ t.bt R.TRK_IRQ 8 d.val = true ∧ (vget t.trk d).rxK = st.rxK ∧ t.mem = s.dev.mem) ∧
      (free → s.dev.cdieOn = true → s.dev.refusal (0x1C + d.val) a 8 .wr = none →
        answers (exec (.bulkReceive d) s) s fun t => (vget t.trk d).inbox = fs ∧
          (vget t.trk d).rxK = (st.rxK + 1) % 2 ^ 32 ∧ (∀ (i : Nat) y, p[i]? = some y → t.byte (a + i) = y) ∧
          ∀ m, (m < a ∨ a + p.length ≤ m) → t.byte m = s.dev.byte m)) ∧
    (∀ q, x.tx = some q → q.ingress = none → q.bulk = none → x.own = Vector.replicate 4 [] →
      x.transit = Vector.replicate 4 [] → answers (exec (.frameTransmitted d l) s) s fun t =>
        (t.lnk d l).tx = none ∧ c1 t R.TXFRM l.val ∧ t.mem = s.dev.mem)

/-- R491 to R496: a serial transfer starts on an idle port, runs its units or waits, times out, is aborted and
ends; and what a push and a pop do to the FIFOs.
R498: GPIO_SET and GPIO_CLR change bits of GPIO_OUT, the board changes a pin that is not driven, and a change
of level sets the interrupt flag that its edge selects. -/
def Obligations.PinsAndSerial : Prop :=
  (∀ (ini v : Nat) (d : Fin 2) (p : Fin 4) (rdy : Bool) (di : List Bool) (s : State),
      s.dev.wf = true → s.dev.fitted d.val = true →
      let x := s.dev.csp d p
      let irq := fun (t : Dev) (b : Nat) => t.bt R.CSP_IRQ b d.val p.val = true
      let result := fun (t : Dev) (n : Nat) => t.fld R.CSP_STAT 27 24 d.val p.val = n
      let ended := fun (t : Dev) (n : Nat) => (t.csp d p).busy = false ∧ (t.csp d p).why = 0 ∧ result t n ∧ irq t (n - 1) ∧
        (n ≠ 1 → (t.csp d p).sel = none ∧ (t.csp d p).tx = []) ∧ t.mem = s.dev.mem
      (s.dev.accepts ini R.CSP_XFER d.val p.val = true →
        (bit v 30 = 0 → answers (exec (.cspTransferStart ini d p v) s) s fun t =>
          let n : Fin 4 := Fin.ofNat 4 (bits v 21 20)
          let good := x.busy = false ∧ s.dev.bt R.CSP_CFG 31 d.val p.val = true ∧ 3 ≤ bits v 13 8 ∧
            (x.sel = none ∨ x.sel = some n)
          (good → t.csp d p = { x with
              busy := true, xfer := with1 v 31 % 2 ^ 32, cfg := s.dev.rg R.CSP_CFG d.val p.val
              nfrm := s.dev.rg R.CSP_NFRM d.val p.val, tmo := s.dev.rg R.CSP_TO d.val p.val, frame := 0, bit := 0
              cur := 0, acc := 0, sel := some n, abort := false, why := 0, sent := [] } ∧
            result t 0 ∧ t.rg R.CSP_DONE d.val p.val = 0 ∧ t.mem = s.dev.mem) ∧
          (¬ good → irq t 3 ∧ t.csp d p = x)) ∧
        (bit v 31 = 0 → x.busy = true → answers (exec (.cspAbort ini d p v) s) s fun t =>
          (x.why ≠ 0 → ended t 3) ∧ (x.why = 0 → t.csp d p = { x with abort := true }))) ∧
      (s.dev.accepts ini R.CSP_TXD d.val p.val = true → answers (exec (.cspPush ini d p v) s) s fun t =>
        (x.tx.length < 16 → t.csp d p = { x with tx := x.tx ++ [v % 2 ^ 64] } ∧ t.regs = s.dev.regs) ∧
          (16 ≤ x.tx.length → irq t 4 ∧ t.csp d p = x)) ∧
      (s.dev.readable ini R.CSP_RXD d.val p.val = true → answers (exec (.cspPop ini d p) s) s fun t =>
        (∀ w l, x.rx = w :: l → t.returned ini w ∧ t.csp d p = { x with rx := l } ∧ t.regs = s.dev.regs) ∧
          (x.rx = [] → t.returned ini 0 ∧ irq t 5 ∧ t.csp d p = x)) ∧
      (x.busy = true → x.abort = true → answers (exec (.cspUnitStart d p rdy di) s) s fun t => ended t 3) ∧
      (x.busy = true → x.abort = false → x.frame < x.frames → x.bit = 0 → answers (exec (.cspUnitStart d p rdy di) s) s fun t =>
        let tx := bit x.xfer 28 = 1
        let rx := bit x.xfer 27 = 1
        let waits := fun (n : Nat) => t = { s.dev with ser := t.ser } ∧ t.csp d p = { x with why := n }
        let n := x.flen
        let word := unitWord (bit x.cfg 2 == 1) n 0 ((List.range n).map fun i => di.getD i false)
        (tx → x.tx = [] → waits 2) ∧ (¬ (tx ∧ x.tx = []) → rx → 16 ≤ x.rx.length → waits 3) ∧
          (¬ (tx ∧ x.tx = []) → ¬ (rx ∧ 16 ≤ x.rx.length) →
            (bits x.xfer 25 24 ≠ 0 → rdy = false → waits 1) ∧
            (bits x.xfer 25 24 = 0 → t.rg R.CSP_DONE d.val p.val = (x.frame + 1) % 2 ^ 32 ∧
              (t.csp d p).frame = x.frame + 1 ∧ (t.csp d p).bit = 0 ∧ (t.csp d p).why = 0 ∧
              (tx → (t.csp d p).tx = x.tx.tail ∧ (t.csp d p).sent = x.sent ++ [x.tx.headD 0 % 2 ^ n]) ∧
              (¬ tx → (t.csp d p).tx = x.tx ∧ (t.csp d p).sent = x.sent ++ [0]) ∧
              (rx → (t.csp d p).rx = x.rx ++ [word]) ∧ (¬ rx → (t.csp d p).rx = x.rx)))) ∧
      (x.busy = true → x.abort = false →
        (x.why ≠ 0 → answers (exec (.cspWaitTimeout d p) s) s fun t => ended t 2) ∧
        (x.frames ≤ x.frame → answers (exec (.cspTransferEnd d p) s) s fun t =>
          ended t 1 ∧ (t.csp d p).tx = x.tx ∧ (t.csp d p).sel = if bit x.xfer 29 = 1 then x.sel else none))) ∧
  (∀ (ini v : Nat) (d : Fin 2) (i : Fin 24) (up : Bool) (s : State),
      s.dev.wf = true → s.dev.fitted d.val = true →
      let edges := fun (t : Dev) => ∀ j : Nat, j < 24 →
        let a := s.dev.gpioLevel d |>.testBit j
        let b := t.gpioLevel d |>.testBit j
        t.bt R.GPIO_IRQ j d.val = (s.dev.bt R.GPIO_IRQ j d.val || (s.dev.ioUp d 5 &&
          ((!a && b && s.dev.bt R.GPIO_RISE j d.val) || (a && !b && s.dev.bt R.GPIO_FALL j d.val))))
      (s.dev.accepts ini R.GPIO_SET d.val = true → answers (exec (.gpioSet ini d v) s) s fun t =>
        t.rg R.GPIO_OUT d.val = (s.dev.rg R.GPIO_OUT d.val ||| v % 2 ^ 24) % 2 ^ 32 ∧ edges t ∧ t.mem = s.dev.mem) ∧
      (s.dev.accepts ini R.GPIO_CLR d.val = true → answers (exec (.gpioClr ini d v) s) s fun t =>
        (∀ j < 32, t.bt R.GPIO_OUT j d.val = (s.dev.bt R.GPIO_OUT j d.val && !(decide (j < 24) && v.testBit j))) ∧
          edges t ∧ t.mem = s.dev.mem) ∧
      answers (exec (.gpioEdge d i up) s) s (fun t =>
        (s.dev.bt R.GPIO_OE i.val d.val = false → (t.gpioLevel d).testBit i.val = up) ∧
          (∀ j < 24, (j ≠ i.val ∨ s.dev.bt R.GPIO_OE j d.val = true) →
            (t.gpioLevel d).testBit j = (s.dev.gpioLevel d).testBit j) ∧
          edges t ∧ t.mem = s.dev.mem ∧ t.core = s.dev.core))

/-- R500 to R504: a configuration of a flash port, a session of it from its start to its end or its time-out,
and a read of a flash window, which waits while a session runs. -/
def Obligations.FlashPorts : Prop :=
  ∀ (ini v addr size : Nat) (d q : Fin 2) (status : Byte) (data : List Byte) (s : State),
    s.dev.wf = true → s.dev.fitted d.val = true →
    let x := s.dev.fl d q
    let fld := fun (t : Dev) (r : RegDef) (h l : Nat) => t.fld r h l d.val q.val
    let ended := fun (t : Dev) (n b : Nat) => (t.fl d q).cmd = none ∧ (t.fl d q).polling = false ∧
      fld t R.FL_STAT 27 24 = n ∧ t.bt R.FL_IRQ b d.val q.val = true
    let cfgerr := fun (t : Dev) => t.bt R.FL_STAT 29 d.val q.val = true ∧ t.bt R.FL_IRQ 2 d.val q.val = true ∧ t.fl d q = x
    (s.dev.accepts ini R.FL_CFG d.val q.val = true → answers (exec (.flashConfigWrite ini d q v) s) s fun t =>
      let bad := bits v 29 28 = 3 ∨ (bits v 29 28 = 0 ∧ bits v 10 8 < 3) ∨ x.cmd.isSome = true ∨ x.rdact.isSome = true
      (bad → cfgerr t ∧ t.rg R.FL_CFG d.val q.val = s.dev.rg R.FL_CFG d.val q.val) ∧
        (¬ bad → fld t R.FL_CFG 31 31 = bits v 31 31 ∧ fld t R.FL_CFG 29 28 = bits v 29 28 ∧
          fld t R.FL_CFG 15 12 = bits v 15 12 ∧ fld t R.FL_CFG 10 8 = bits v 10 8 ∧ fld t R.FL_CFG 4 0 = bits v 4 0 ∧
          t.fl d q = x)) ∧
    (s.dev.accepts (0x18 + d.val) R.FL_CMD d.val q.val = true →
      answers (exec (.flashCommand (0x18 + d.val) d q v) s) s fun t =>
        let bad := 256 < bits v 24 16 ∨ s.dev.bt R.FL_CFG 31 d.val q.val = false
        (x.cmd.isSome = true → cfgerr t) ∧ (x.cmd = none → bad → ended t 3 3) ∧
          (x.cmd = none → ¬ bad → t.fl d q = { x with cmd := some (with1 v 31 % 2 ^ 32), polling := false } ∧
            fld t R.FL_STAT 27 24 = 0 ∧ t.mem = s.dev.mem)) ∧
    (s.dev.accepts ini R.FL_CMD d.val q.val = true → ini ≠ 0x18 + d.val → ini ≠ 0x3F →
      answers (exec (.flashCommand ini d q v) s) s fun t => t = { s.dev with bus := t.bus }) ∧
    (∀ n : Fin 4, regionOf addr = some (.flash n) →
      (s.dev.flashBusy addr = true → answers (exec (.flashWindowRead ini addr size) s) s fun t => t = s.dev) ∧
      (s.dev.flashBusy addr = false → s.dev.refusal ini addr size .rd = none → s.dev.clean addr size = true →
        s.dev.poisoned addr size = false → answers (exec (.flashWindowRead ini addr size) s) s fun t =>
          t.returned ini (s.dev.rdN addr size) ∧ t.mem = s.dev.mem ∧ t.core = s.dev.core)) ∧
    answers (exec (.flashTransactionEnd d q) s) s (fun t =>
      t = { s.dev with ser := t.ser } ∧ t.fl d q = { x with rdact := none }) ∧
    (∀ c, x.cmd = some c → x.polling = false → bits c 24 16 ≤ 256 →
      answers (exec (.commandSessionEnd d q data []) s) s fun t =>
        (bit c 30 = 0 → ∀ i < bits c 24 16,
          t.fld R.FL_BUF (8 * (i % 4) + 7) (8 * (i % 4)) d.val q.val (i / 4) = (data.getD i 0).toNat) ∧
        (bit c 28 = 0 → ended t 1 0) ∧ (bit c 28 = 1 → t.fl d q = { x with polling := true }) ∧ t.mem = s.dev.mem) ∧
    (x.polling = true →
      answers (exec (.flashPoll d q status []) s) s (fun t =>
        let p := s.dev.rg R.FL_POLL d.val q.val
        fld t R.FL_STAT 7 0 = status.toNat ∧
          (status.toNat &&& bits p 23 16 = bits p 31 24 → ended t 1 0) ∧
          (status.toNat &&& bits p 23 16 ≠ bits p 31 24 → t.fl d q = x)) ∧
      answers (exec (.flashPollTimeout d q) s) s fun t => ended t 2 1 ∧ t.mem = s.dev.mem)

/-- R424 to R435: which configurations of an acoustic input, a TDM port and a capture group are taken; a group's
start and stop; one sample of a channel; the fall of a gain step; and the publication of a frame. -/
def Obligations.AcousticInputs : Prop :=
  ∀ (ini v : Nat) (d : Fin 2) (g : Fin 4) (i : Fin 8) (p : Fin 2) (s : State),
    s.dev.wf = true → s.dev.fitted d.val = true →
    let cfgerr := fun (t : Dev) => t.bt R.AC_STAT 30 d.val = true ∧ t.bt R.AC_IRQ 2 d.val = true ∧
      t.aco = s.dev.aco ∧ t.mem = s.dev.mem
    (s.dev.accepts ini R.SD_CFG d.val i.val = true → answers (exec (.sdCfgWrite ini d i v) s) s fun t =>
      let bad := bits v 10 8 < bits v 14 12 ∨ bits v 7 4 < 6 ∨ 14 < bits v 7 4
      (bad → cfgerr t ∧ t.rg R.SD_CFG d.val i.val = s.dev.rg R.SD_CFG d.val i.val) ∧
        (¬ bad → ∀ h l, (h, l) ∈ [(31, 31), (14, 12), (10, 8), (7, 4), (2, 0)] →
          t.fld R.SD_CFG h l d.val i.val = bits v h l)) ∧
    (s.dev.accepts ini R.TDM_CFG d.val p.val = true → answers (exec (.tdmCfgWrite ini d p v) s) s fun t =>
      let bclk := [8000, 16000, 32000, 48000].getD (bits v 1 0) 0 * 2 ^ (bits v 5 4 + 1) * (if bit v 6 = 1 then 32 else 16)
      let bad := 49152000 % bclk ≠ 0 ∨ 24576000 < bclk
      (bad → cfgerr t ∧ t.rg R.TDM_CFG d.val p.val = s.dev.rg R.TDM_CFG d.val p.val) ∧
        (¬ bad → ∀ h l, (h, l) ∈ [(31, 31), (6, 6), (5, 4), (1, 0)] → t.fld R.TDM_CFG h l d.val p.val = bits v h l)) ∧
    (s.dev.accepts ini R.GRP_CFG d.val g.val = true →
      (s.dev.grpEn d g = false → answers (exec (.groupEnable ini d g v) s) s fun t =>
        let ok := s.dev.grpOk d g (with1 v 31 % 2 ^ 32)
        (ok = true → t.grpEn d g = true ∧ t.fld R.GRP_CFG 8 0 d.val g.val = bits v 8 0 ∧
          t.fld R.GRP_CFG 29 28 d.val g.val = bits v 29 28 ∧ (s.dev.bt R.GRP_SDMASK i.val d.val g.val = true →
            let c := s.dev.rg R.SD_CFG d.val i.val
            t.sdIn d i = ⟨c, if bit c 31 = 0 then bits c 2 0 else bits c 10 8, 0, 0, ⟨0, 0⟩⟩)) ∧
        (ok = false → cfgerr t ∧ t.grpEn d g = false)) ∧
      (s.dev.grpEn d g = true → answers (exec (.groupDisable ini d g v) s) s fun t =>
        t.grpEn d g = false ∧ (t.grp d g).frame = none ∧ (t.grp d g).disc = true ∧
          (s.dev.bt R.GRP_SDMASK i.val d.val g.val = true → (t.sdIn d i).hold = 0 ∧ (t.sdIn d i).step = (s.dev.sdIn d i).step) ∧
          t.mem = s.dev.mem)) ∧
    (∀ (rate : Fin 4) (D : Int) (sd : List Int) (tdm0 tdm1 : List Nat),
      let runs := fun (h : Fin 4) => s.dev.grpEn d h = true ∧ s.dev.fld R.GRP_CFG 29 28 d.val h.val = rate.val
      let x := s.dev.sdIn d i
      ((∀ h, ¬ runs h) → answers (exec (.acSample d rate sd tdm0 tdm1) s) s fun t => t = s.dev) ∧
      (s.dev.bt R.AC_CTL 31 d.val = true → s.dev.ioUp d 3 = true → runs g → (∀ h, h ≠ g → ¬ runs h) →
        s.dev.grpChans d g = [i.val] → sd.getD i.val 0 = D → -2 ^ 23 < D → D < 2 ^ 23 - 1 →
        x.cfg = s.dev.rg R.SD_CFG d.val i.val → x.hold = 0 →
        (bit x.cfg 31 = 0 → ∀ f l, (s.dev.grp d g).frame = some f → f.ch = [l] → l.length + 1 < f.len →
          answers (exec (.acSample d rate sd tdm0 tdm1) s) s fun t =>
            (t.grp d g).frame = some { f with ch := [⟨ofS 24 D * 256 + x.step,
              ⟨(D + s.dev.sdOff d i) * s.dev.sdGain d i x.step, 15 + x.step⟩⟩ :: l] } ∧
              (t.sdIn d i).step = x.step ∧ t.mem = s.dev.mem) ∧
        (bit x.cfg 31 = 1 → 7 * 2 ^ 20 ≤ D.natAbs → bits x.cfg 14 12 < x.step →
          answers (exec (.acSample d rate sd tdm0 tdm1) s) s fun t =>
            (t.sdIn d i).step = x.step - 1 ∧ (t.sdIn d i).hold = 4 ∧ (t.sdIn d i).quiet = 0))) ∧
    (∀ f, (s.dev.grp d g).done = some f → s.dev.ringEn (16 + g.val + 4 * d.val) = false →
      let cfg := s.dev.rg R.GRP_CFG d.val g.val
      let a := s.dev.fld R.GRP_BASE 39 6 d.val g.val * 64 + fsize f.ch.length f.len * (f.seq % 2 ^ log2nbuf cfg)
      s.dev.refusal (0x22 + d.val) a 8 .wr = none → 0x10000 ≤ a →
      answers (exec (.framePublish d g) s) s fun t =>
        (t.grp d g).done = none ∧ t.bt R.AC_IRQ 0 d.val = true ∧
          t.rg R.GRP_WSEQ d.val g.val = (s.dev.rg R.GRP_WSEQ d.val g.val + 1) % 2 ^ 32 ∧
          t.rg R.AC_FRAMES d.val g.val = min (s.dev.rg R.AC_FRAMES d.val g.val + 1) (2 ^ 32 - 1) ∧
          t.rdN a 4 = f.seq % 2 ^ 32 ∧ t.rdN (a + 6) 2 = f.len % 2 ^ 16 ∧ t.rdN (a + 8) 8 = f.t0 % 2 ^ 64)

/-- R54, R404 to R416: EN starts the first round; an RTD conversion sets its registers and ends the round; an
accumulator is cleared and counts time; pulses start and end; a pressure is stamped; the station-power channels
take their samples; and a brownout marks what is in progress. -/
def Obligations.MeteringEngine : Prop :=
  ∀ (ini v : Nat) (d : Fin 2) (a : Fin 16) (o : Fin 4) (codes : List Int) (s : State),
    s.dev.wf = true → s.dev.fitted d.val = true →
    let m := vget s.dev.mtr d
    let on := (List.finRange 4).filter fun i => s.dev.bt R.RTD_CFG 31 d.val i.val
    let en := s.dev.bt R.MTR_CTL 31 d.val
    let first := fun (r : Option RtdRound) => ∃ x, r = some x ∧ x.left = on ∧ x.valid = Vector.replicate 4 false ∧ x.brown = false
    (s.dev.accepts ini R.MTR_CTL d.val = true → answers (exec (.meterEnable ini d v) s) s fun t =>
      t.bt R.MTR_CTL 31 d.val = true ∧ t.fld R.MTR_CTL 1 0 d.val = bits v 1 0 ∧
        (en = true → t.mtr = s.dev.mtr ∧ t.mem = s.dev.mem) ∧
        (en = false → on ≠ [] → first (vget t.mtr d).round ∧ t.bt R.MTR_STAT 31 d.val = false ∧
          (∀ i < 4, t.rg R.RTD_TEMP d.val i = 20000 ∧ t.bt R.RTD_STAT 1 d.val i = true) ∧
          ∀ p, (vget (vget t.mtr d).path p).prev = none)) ∧
    (en = true → m.round = none → on ≠ [] → answers (exec (.rtdRoundStart d) s) s fun t =>
      first (vget t.mtr d).round ∧ t.regs = s.dev.regs ∧ t.mem = s.dev.mem) ∧
    (∀ x i rest (code : Nat), m.round = some x → x.left = i :: rest → answers (exec (.rtdConversionDone d code) s) s fun t =>
      let D : Nat := code % 2 ^ 24
      let r := rhe ((D : Int) * s.dev.cal d 0x30 4) (2 ^ 23) + toS 32 (s.dev.cal d (0x34 + 4 * i.val) 4)
      let ty := bits (vget x.cfg i) 1 0
      let th := rtdTemp r (if ty = 0 then 100000 else if ty = 1 then 500000 else 1000000)
      let inside := ∃ k, th = some k ∧ -50000 ≤ k ∧ k ≤ 150000
      let good := D < 0xFFFF00 ∧ 256 ≤ D ∧ inside ∧ x.brown = false
      let stat := fun (b : Nat) => t.bt R.RTD_STAT b d.val i.val = true
      t.rg R.RTD_RES d.val i.val = ofS 32 r ∧ (stat 0 ↔ good) ∧ (stat 1 ↔ ¬ good) ∧ (stat 2 ↔ 0xFFFF00 ≤ D) ∧
        (stat 3 ↔ D < 256) ∧ (stat 4 ↔ ¬ inside) ∧
        (good → t.rg R.RTD_TEMP d.val i.val = ofS 32 (th.getD 0)) ∧
        (¬ good → t.rg R.RTD_TEMP d.val i.val = s.dev.rg R.RTD_TEMP d.val i.val ∧
          t.rg R.MTR_RTDINV d.val = min (s.dev.rg R.MTR_RTDINV d.val + 1) (2 ^ 32 - 1) ∧ t.bt R.MTR_IRQ 3 d.val = true) ∧
        (rest ≠ [] → ∃ y, (vget t.mtr d).round = some y ∧ y.left = rest) ∧
        (rest = [] → (vget t.mtr d).round = none ∧ t.bt R.MTR_STAT 31 d.val = true ∧ t.bt R.MTR_IRQ 2 d.val = true ∧
          t.rg R.RTD_ROUND d.val = (s.dev.rg R.RTD_ROUND d.val + 1) % 2 ^ 32)) ∧
    (s.dev.accepts ini R.ACC_STAT d.val a.val = true → answers (exec (.accClear ini d a v) s) s fun t =>
      (s.dev.bt R.ACC_CFG 31 d.val a.val = false → vget (vget t.mtr d).acc a = ⟨0, 0, 0⟩) ∧
        (s.dev.bt R.ACC_CFG 31 d.val a.val = true → t.mtr = s.dev.mtr) ∧
        (∀ b, b ≠ a → vget (vget t.mtr d).acc b = vget m.acc b) ∧ t.mem = s.dev.mem) ∧
    (let c := vget m.acc a
     answers (exec (.accTimeTick d) s) s fun t =>
      (vget t.mtr d).errNs = m.errNs % 1000000 ∧ t.mem = s.dev.mem ∧
        (en = true → s.dev.fld R.ACC_CFG 3 0 d.val a.val = 0xA → c.r = 0 → -2 ^ 62 < c.tot → c.tot < 2 ^ 62 →
          -2 ^ 62 < c.rr → c.rr < 2 ^ 62 → vget (vget t.mtr d).acc a = ⟨c.tot + 1, c.rr + 1, 0⟩)) ∧
    (let c := vget m.po o
     let b := s.dev.fld R.PO_STAT 23 0 d.val o.val
     let now := (vget s.dev.die d).tcxo
     let due := s.dev.bt R.PO_CFG 31 d.val o.val = true ∧ b ≠ 0 ∧ c.on = false ∧
       ∀ x, c.start = some x → x + 384 * s.dev.fld R.PO_TIME 31 16 d.val o.val ≤ now
     answers (exec (.pulseStart d o) s) s fun t =>
      (due → t.fld R.PO_STAT 23 0 d.val o.val = b - 1 ∧ (vget (vget t.mtr d).po o).on = true ∧
        (vget (vget t.mtr d).po o).start = some now ∧ t.mem = s.dev.mem) ∧ (¬ due → t = s.dev)) ∧
    answers (exec (.pulseEnd d o) s) s (fun t =>
      vget (vget t.mtr d).po o = { vget m.po o with on := false } ∧ t = { s.dev with mtr := t.mtr }) ∧
    (s.dev.accepts ini R.PRESS d.val = true → answers (exec (.pressWrite ini d v) s) s fun t =>
      t.rg R.PRESS d.val = v % 2 ^ 32 ∧ (vget t.mtr d).press = some s.dev.ns ∧ t.mem = s.dev.mem) ∧
    answers (exec (.spSample d codes) s) s (fun t =>
      vget t.pwr.mtrLow d = false ∧ t.mem = s.dev.mem ∧
        (m.spN + 1 < 16 → (vget t.mtr d).spN = m.spN + 1 ∧
          (vget t.mtr d).spBad = (m.spBad || vget s.dev.pwr.mtrLow d) ∧ t.ldg = s.dev.ldg) ∧
        (m.spN = 15 → (vget t.mtr d).spN = 0 ∧ (∀ c, (vget (vget t.mtr d).sp c).sum = 0) ∧
          (d = 0 → (t.ldg.mean = none ↔ (m.spBad = true ∨ vget s.dev.pwr.mtrLow d = true))))) ∧
    answers (exec (.brownoutVddaMtr d) s) s (fun t =>
      t.bt R.BOD_STAT 2 d.val = true ∧ vget t.pwr.mtrLow d = true ∧ t.mem = s.dev.mem ∧ t.core = s.dev.core ∧
        (∀ p x, s.dev.shot d p = some x → t.shot d p = some { x with brown := true }) ∧
        ∀ r, m.round = some r → (vget t.mtr d).round = some { r with brown := true })

/-- R393, R396 to R403, R417: a shot's two measurements, the settling of its pick and its result. -/
def Obligations.MeterShots : Prop :=
  ∀ (ini v : Nat) (d p : Fin 2) (raw hits : List Int) (x : Shot) (s : State),
    s.dev.wf = true → s.dev.fitted d.val = true → s.dev.shot d p = some x →
    let c1 := fun (t : Dev) (r : RegDef) => t.rg r d.val p.val = min (s.dev.rg r d.val p.val + 1) (2 ^ 32 - 1)
    (x.phase = .down → answers (exec (.shotUpStart d p raw hits) s) s fun t =>
      t.shot d p = some { x with phase := .up, dn := some (s.dev.classic d p x raw hits) } ∧ t.mem = s.dev.mem) ∧
    (x.phase = .up → bits (x.c 10) 31 16 = 0 → answers (exec (.shotMeasureEnd d p raw hits) s) s fun t =>
      t.shot d p = some { x with phase := .ready, up := some (s.dev.classic d p x raw hits) } ∧ t.mem = s.dev.mem) ∧
    (x.phase = .pick →
      let ends := fun (t : Dev) (n : Nat) (l : Option (Int × Int)) =>
        t.shot d p = some { x with phase := .ready, pstat := n, learned := l } ∧ t.mem = s.dev.mem ∧
          (n = 1 → c1 t R.MTR_PICKOK) ∧ (n = 2 → c1 t R.MTR_PICKLATE) ∧ (2 < n → c1 t R.MTR_PICKREJ) ∧
          (n ≠ 1 → t.bt R.MTR_IRQ 7 d.val = true)
      let a := toS 32 (s.dev.rg R.PICK_DN d.val p.val)
      let b := toS 32 (s.dev.rg R.PICK_UP d.val p.val)
      let fits := fun (k : Int) => 1 ≤ k ∧ k < 2 ^ 29
      let gate : Int := bits (x.c 10) 15 0
      answers (exec (.pickWindowClose d p) s) s (fun t => ends t (if x.pstat = 3 then 3 else 2) none) ∧
      (s.dev.accepts ini R.PICK_CMT d.val p.val = true → answers (exec (.pickCommit ini d p v) s) s fun t =>
        let late := x.wend < (vget s.dev.die d).tcxo
        (late → ends t 2 none) ∧
        (¬ late → v % 2 ^ 32 ≠ x.seq → t.shot d p = some { x with pstat := 3 } ∧ t.regs = s.dev.regs) ∧
        (¬ late → v % 2 ^ 32 = x.seq → ¬ (fits a ∧ fits b) → ends t 5 none) ∧
        (¬ late → v % 2 ^ 32 = x.seq → fits a ∧ fits b → ∀ dn up, x.dn = some dn → x.up = some up →
          let near := (a - dn.tc).natAbs ≤ gate ∧ (b - up.tc).natAbs ≤ gate
          (¬ near → ends t 4 none) ∧ (near → ends t 1 (some (a, b)))))) ∧
    (∀ dn up, x.phase = .ready → x.dn = some dn → x.up = some up → dn.noecho = false → up.noecho = false →
      answers (exec (.shotResult d p) s) s fun t =>
        let (r0, r1) := x.learned.getD (dn.tc, up.tc)
        let tdn := s.dev.tcal d p 0 x.theta.t r0
        let tup := s.dev.tcal d p 1 x.theta.t r1
        let good := dn.order = false ∧ up.order = false ∧ 0 < tdn ∧ 0 < tup ∧ x.brown = false
        t.shot d p = none ∧ t.rg R.LAST_SEQ d.val p.val = x.seq % 2 ^ 32 ∧
          t.fld R.LAST_FLAGS 18 16 d.val p.val = x.pstat % 8 ∧ (t.bt R.LAST_FLAGS 0 d.val p.val = true ↔ good) ∧
          t.rg R.LAST_TDN d.val p.val = ofS 32 tdn ∧ t.rg R.LAST_TUP d.val p.val = ofS 32 tup ∧
          t.rg R.LAST_TIME d.val p.val = x.t0 % 2 ^ 64 ∧ t.rg R.LAST_TEMP d.val p.val = ofS 32 x.theta.t ∧
          t.bt R.MTR_IRQ 0 d.val = true ∧
          (good → c1 t R.MTR_VALID ∧ (vget (vget t.mtr d).path p).prev = some x.t0) ∧
          (¬ good → t.bt R.MTR_IRQ 1 d.val = true ∧
            (vget (vget t.mtr d).path p).prev = (vget (vget s.dev.mtr d).path p).prev))

/-- R337, R352, R357 to R364, R381 to R385: the superframe, the enabling of a radio, a sample, the decisions of the
qualifier and of the format, the progress and the publication of a capture, the re-arming, and the delivery of a
record at a mark. -/
def Obligations.FieldReceive : Prop :=
  ∀ (ini v : Nat) (d : Fin 2) (a : Fin 4) (x : List Nat) (ppm : Int) (s : State),
    s.dev.wf = true → s.dev.fitted d.val = true →
    let r := vget s.dev.rad d
    let en := s.dev.bt R.RF_CTL 31 d.val
    let c1 := fun (t : Dev) (q : RegDef) => t.rg q d.val = min (s.dev.rg q d.val + 1) (2 ^ 32 - 1)
    let irq := fun (t : Dev) (b : Nat) => t.bt R.RF_IRQ b d.val = true
    let det := fun (t : Dev) => (vget t.rad d).det
    let trig := fun (t : Dev) => (vget t.rad d).trig
    answers (exec (.superframeBoundary d) s) s (fun t =>
      t.rg R.RF_SFN d.val = (s.dev.rg R.RF_SFN d.val + 1) % 2 ^ 32 ∧ t.mem = s.dev.mem) ∧
    (s.dev.accepts ini R.RF_SFOFS d.val = true → answers (exec (.rfSfofsWrite ini d v) s) s fun t =>
      (10 ^ 9 ≤ v % 2 ^ 32 → t = { s.dev with bus := t.bus }) ∧
        (v % 2 ^ 32 < 10 ^ 9 → t.rg R.RF_SFOFS d.val = v % 2 ^ 32 ∧ (vget t.rad d).realign = true ∧
          t.bt R.RF_STAT 30 d.val = true ∧ irq t 5 ∧ t.capture d = none ∧
          (s.dev.capture d ≠ none → c1 t R.RF_ABANDON))) ∧
    (s.dev.accepts ini R.RF_CTL d.val = true → answers (exec (.radioEnable ini d v) s) s fun t =>
      (en = true → t = { s.dev with bus := t.bus }) ∧
        (en = false → t.bt R.RF_CTL 31 d.val = true ∧ t.fld R.RF_CTL 3 0 d.val = bits v 3 0 ∧ det t = .armed ∧
          trig t = none ∧ (vget t.rad d).realign = true)) ∧
    (en = false → answers (exec (.rssiSample d x) s) s fun t => t = s.dev) ∧
    (en = true → r.realign = false → answers (exec (.rssiSample d x) s) s fun t =>
      (vget t.rad d).pos = (r.pos + 1) % (4000 * 512) ∧
        let w := fun i => toS 12 (x.getD (4 * a.val + i) 0)
        let gp := ((w 2, w 3) :: (w 0, w 1) :: vget r.gp a).take 19
        (a ∈ s.dev.ants d → vget (vget t.rad d).gp a = gp ∧
          vget (vget t.rad d).bb a = ((rxSample gp).1 :: vget r.bb a).take 512) ∧
        (a ∉ s.dev.ants d → vget (vget t.rad d).bb a = vget r.bb a)) ∧
    (∀ t', r.trig = some t' →
      let q := s.dev.fld R.RF_QUAL 15 8 d.val
      let best := s.dev.bestLag d t'.n q
      let thr := 4 * s.dev.fld R.RF_QUAL 7 0 d.val
      (r.det = .qualifying → t'.decided = false → 129 + q ≤ t'.n →
        (rhoGe best.2.2 (thr + 1) = true → answers (exec (.qualifierDecision d) s) s fun t =>
          det t = .capturing ∧ c1 t R.RF_QPASS ∧
            trig t = some { t' with decided := true, tau := some best.1, qpeak := rhoPeak best.2.2, qant := best.2.1 }) ∧
        (rhoGe best.2.2 (thr + 1) = false → rhoGe best.2.2 (thr - 1) = false →
          answers (exec (.qualifierDecision d) s) s fun t =>
            det t = .waiting ∧ c1 t R.RF_QFAIL ∧ trig t = none ∧ (vget t.rad d).rearm = false)) ∧
      (t'.n < 129 + q → answers (exec (.qualifierDecision d) s) s fun t => t = s.dev) ∧
      (∀ tau, t'.tau = some tau → t'.fmt = none → tau + 136 ≤ t'.n → answers (exec (.formatDecision d) s) s fun t =>
        ∃ f, trig t = some { t' with fmt := some f, len := if fmtValid f then fmtLen f else 1 } ∧
          (fmtValid f = false → c1 t R.RF_FMTERR ∧ irq t 4) ∧ t.mem = s.dev.mem) ∧
      (∀ tau c, t'.tau = some tau → t'.capt = some c → s.dev.cdieOn = true →
        (c.sym < 7 * t'.len → tau - 8 + 512 * (c.sym / 7) + 72 * (c.sym % 7) + 72 ≤ t'.n → t'.fmt.isSome = true →
          answers (exec (.symbolProgress d) s) s fun t =>
            trig t = some { t' with capt := some { c with sym := c.sym + 1 } } ∧
              t.cell (s.dev.fld R.RX_PCELL 15 0 d.val) = (32 * c.seq + c.sym + 1) % 2 ^ 32) ∧
        (∀ f, t'.fmt = some f → tau - 8 + 512 * t'.len ≤ t'.n → answers (exec (.capturePublish d) s) s fun t =>
          t.capture d = none ∧ t.rg R.RX_WSEQ d.val = (c.seq + 1) % 2 ^ 32 ∧ c1 t R.RF_RECS ∧ irq t 0 ∧
            t.cell (s.dev.fld R.RX_CELL 15 0 d.val) = (c.seq + 1) % 2 ^ 32))) ∧
    (let free := s.dev.paHigh d = false ∧ 16 ≤ r.paN
     r.det = .waiting → answers (exec (.detectorRearm d) s) s fun t =>
      (r.rearm = true → free → det t = .armed ∧ trig t = none) ∧ (r.rearm = false ∨ ¬ free → t = s.dev)) ∧
    answers (exec (.rxclkCheck d a ppm) s) s (fun t =>
      (20 < ppm.natAbs → t.bt R.RF_STAT (20 + a.val) d.val = true ∧ irq t 6) ∧ (ppm.natAbs ≤ 20 → t = s.dev)) ∧
    (s.dev.accepts ini R.RCV_CTL d.val = true → answers (exec (.delivererEnable ini d v) s) s fun t =>
      t.bt R.RCV_CTL 31 d.val = true ∧ t.bt R.RCV_CTL 30 d.val = (bit v 30 == 1) ∧ t.fld R.RCV_CTL 3 0 d.val = bits v 3 0 ∧
        (s.dev.bt R.RCV_CTL 31 d.val = true → t.rad = s.dev.rad) ∧
        (s.dev.bt R.RCV_CTL 31 d.val = false → s.dev.radGal d = none → (vget t.rad d).rcvBad = false)) ∧
    (∀ k ms, (vget s.dev.tt d).radMarks = k :: ms →
      let seq := s.dev.rg R.RCV_DSEQ d.val
      let runs := s.dev.bt R.RCV_CTL 31 d.val = true ∧ r.rcvBad = false ∧ s.dev.bt R.RCV_STAT 31 d.val = false ∧
        (s.dev.radGal d).isSome = true ∧ s.dev.ioUp d 2 = true
      (¬ runs → answers (exec (.deadlineMarkDeliver d) s) s fun t =>
        (vget t.tt d).radMarks = ms ∧ t = { s.dev with tt := t.tt }) ∧
      (runs → s.dev.cdieOn = true → seq < 2 ^ 32 → s.dev.rg R.RX_WSEQ d.val = (seq + 1) % 2 ^ 32 →
        s.dev.recDl d seq ≤ k.f + 125000 → answers (exec (.deadlineMarkDeliver d) s) s fun t =>
          (vget t.tt d).radMarks = ms ∧ t.rg R.RCV_DSEQ d.val = (seq + 1) % 2 ^ 32 ∧
            ((s.dev.choosePath d seq).1 = 1 → c1 t R.RCV_LEARNED) ∧
            ((s.dev.choosePath d seq).1 = 2 → c1 t R.RCV_MISSING) ∧
            (s.dev.recDl d seq + 125000 < k.f → c1 t R.RCV_MARKLATE)))

/-- R366, R367: a transmission ramps up PA_LEAD grid points after G0, ramps down after its samples or at once at
an underrun, and at its end frees its descriptor and its antenna and counts as done or as an error. -/
def Obligations.FieldTransmit : Prop :=
  ∀ (d : Fin 2) (a : Fin 4) (x : Tx) (under : Bool) (s : State),
    s.dev.wf = true → s.dev.fitted d.val = true → vget (vget s.dev.rad d).tx a = some x →
    let tx := fun (t : Dev) => vget (vget t.rad d).tx a
    let c1 := fun (t : Dev) (q : RegDef) => t.rg q d.val = min (s.dev.rg q d.val + 1) (2 ^ 32 - 1)
    (x.up = none → answers (exec (.rampUpStart d a) s) s fun t =>
      tx t = some { x with up := some (x.g0 + s.dev.fld R.PA_LEAD 9 0 d.val * gpUnits) } ∧ t = { s.dev with rad := t.rad }) ∧
    (∀ u, x.up = some u → x.down = none → answers (exec (.rampDownStart d a under) s) s fun t =>
      let bad := under = true ∨ s.dev.txReadable x.addr (2016 * x.len) = false
      (bad → tx t = some { x with down := some s.dev.time.units, under := true } ∧ t.regs = s.dev.regs) ∧
        (¬ bad → tx t = some { x with down := some (u + 1024 * x.len * gpUnits), under := false }) ∧
        t.mem = s.dev.mem) ∧
    (∀ u w, x.up = some u → x.down = some w → x.k < 16 → answers (exec (.transmitEnd d a) s) s fun t =>
      tx t = none ∧ (vget t.rad d).paN = 0 ∧ t.bt R.TX_CTL 31 d.val x.k = false ∧ t.bt R.TX_CTL 30 d.val x.k = false ∧
        (x.under = false → c1 t R.RF_TXDONE ∧ t.bt R.RF_IRQ 1 d.val = true) ∧
        (x.under = true → c1 t R.RF_TXERR ∧ t.bt R.RF_IRQ 2 d.val = true))

/-- R316, R325: instructions of a host core in machine mode: the OP group of RV64IM, ADDI, LUI, AUIPC,
JALR, the conditional branches and FENCE, which waits while anything it must wait for is outstanding.
R316, R318, R323: traps of a host core in machine mode: ECALL, an illegal word, a misaligned load or store;
a refused load is an access fault, and a refused store raises nothing. -/
def Obligations.HostCores : Prop :=
  (∀ (c : Fin 4) (s : State), let u := s.dev.plicSample
      let h := u.hc c
      s.dev.wf = true → u.hostReady c 4 = true →
      (∀ (f7 f3 : Nat) (g : DWord → DWord → Int) (rd a b : Fin 32), (f7, f3, g) ∈ hostOp →
        answers (exec (.hostInstruction c (hostR f7 f3 rd a b)) s) s (fun t => u.onlyHost t c ∧ h.keeps (t.hc c) ∧
          (t.hc c).pc = h.pc + 4 ∧ h.wrote (t.hc c) rd.val (BitVec.ofInt 64 (g (h.rx a.val) (h.rx b.val))))) ∧
      (∀ (rd a : Fin 32) (imm : BitVec 12),
        answers (exec (.hostInstruction c (hostI 0x13 0 rd a imm)) s) s (fun t => u.onlyHost t c ∧ h.keeps (t.hc c) ∧
          (t.hc c).pc = h.pc + 4 ∧ h.wrote (t.hc c) rd.val (h.rx a.val + imm.signExtend 64)) ∧
        answers (exec (.hostInstruction c (hostI 0x67 0 rd a imm)) s) s (fun t => u.onlyHost t c ∧ h.keeps (t.hc c) ∧
          (t.hc c).pc.toNat = (h.rx a.val + imm.signExtend 64).toNat / 2 * 2 ∧ h.wrote (t.hc c) rd.val (h.pc + 4))) ∧
      (∀ (rd : Fin 32) (imm : BitVec 20),
        answers (exec (.hostInstruction c (BitVec.ofNat 32 (imm.toNat * 2 ^ 12 + rd.val * 2 ^ 7 + 0x37))) s) s
          (fun t => u.onlyHost t c ∧ h.keeps (t.hc c) ∧ (t.hc c).pc = h.pc + 4 ∧
            h.wrote (t.hc c) rd.val (BitVec.ofInt 64 (imm.toInt * 2 ^ 12))) ∧
        answers (exec (.hostInstruction c (BitVec.ofNat 32 (imm.toNat * 2 ^ 12 + rd.val * 2 ^ 7 + 0x17))) s) s
          (fun t => u.onlyHost t c ∧ h.keeps (t.hc c) ∧ (t.hc c).pc = h.pc + 4 ∧
            h.wrote (t.hc c) rd.val (h.pc + BitVec.ofInt 64 (imm.toInt * 2 ^ 12)))) ∧
      (∀ (f3 : Nat) (p : DWord → DWord → Bool) (a b : Fin 32),
        (f3, p) ∈ [(0, fun x y => x == y), (1, fun x y => x != y), (4, fun x y => decide (x.toInt < y.toInt)),
          (5, fun x y => decide (y.toInt ≤ x.toInt)), (6, fun x y => decide (x.toNat < y.toNat)),
          (7, fun x y => decide (y.toNat ≤ x.toNat))] →
        answers (exec (.hostInstruction c
            (BitVec.ofNat 32 (b.val * 2 ^ 20 + a.val * 2 ^ 15 + f3 * 2 ^ 12 + 16 * 2 ^ 7 + 0x63))) s) s
          (fun t => u.onlyHost t c ∧ h.keeps (t.hc c) ∧ (∀ r, (t.hc c).rx r = h.rx r) ∧
            (t.hc c).pc = if p (h.rx a.val) (h.rx b.val) then h.pc + 16 else h.pc + 4)) ∧
      answers (exec (.hostFence c) s) s fun t => u.onlyHost t c ∧ (∀ r, (t.hc c).rx r = h.rx r) ∧
        if SMap.get 0 s.dev.bus.outw c.val = 0 ∧ (∀ w ∈ s.dev.host.wb, w.core ≠ c.val)
          then h.keeps (t.hc c) ∧ (t.hc c).pc = h.pc + 4 else (t.hc c).pc = h.pc ∧ (t.hc c).c 0xB02 = h.c 0xB02) ∧
  (∀ (c : Fin 4) (s : State), let u := s.dev.plicSample
      let h := u.hc c
      s.dev.wf = true → u.hostReady c 4 = true →
      answers (exec (.hostInstruction c 0x73) s) s (fun t => u.onlyHost t c ∧ h.trappedM (t.hc c) 11 0) ∧
      answers (exec (.hostInstruction c 0) s) s (fun t => u.onlyHost t c ∧ h.trappedM (t.hc c) 2 0) ∧
      (∀ (f3 : Nat) (rd a : Fin 32) (imm : BitVec 12), f3 < 7 →
        let va := (h.rx a.val + imm.signExtend 64).toNat
        h.trigHit .r va = none →
        (va % 2 ^ (f3 % 4) ≠ 0 → answers (exec (.hostInstruction c (hostI 0x03 f3 rd a imm)) s) s fun t =>
          u.onlyHost t c ∧ h.trappedM (t.hc c) 4 va) ∧
        (va % 2 ^ (f3 % 4) = 0 → va < 2 ^ 40 → h.pmpOk .m .r va (2 ^ (f3 % 4)) = true → u.hostLined va = false →
          dmiOf va = none → (u.refusal c.val va (2 ^ (f3 % 4)) .rd).isSome = true →
          answers (exec (.hostInstruction c (hostI 0x03 f3 rd a imm)) s) s fun t => h.trappedM (t.hc c) 5 va)) ∧
      ∀ (f3 : Nat) (a b : Fin 32) (imm : BitVec 12), f3 < 4 →
        let va := (h.rx a.val + imm.signExtend 64).toNat
        h.trigHit .w va = none →
        (va % 2 ^ f3 ≠ 0 → answers (exec (.hostInstruction c (hostS f3 a b imm)) s) s fun t =>
          u.onlyHost t c ∧ h.trappedM (t.hc c) 6 va) ∧
        (va % 2 ^ f3 = 0 → va < 2 ^ 40 → h.pmpOk .m .w va (2 ^ f3) = true → u.hostLined va = false →
          hostRelease va = false → dmiOf va = none → (u.refusal c.val va (2 ^ f3) .wr).isSome = true →
          answers (exec (.hostInstruction c (hostS f3 a b imm)) s) s fun t =>
            h.keeps (t.hc c) ∧ (t.hc c).pc = h.pc + 4 ∧ t.mem = s.dev.mem))

/-- R320: CBO.CLEAN, CBO.FLUSH and CBO.INVAL in machine mode on a block of a cached region and on one of a region
that is not cached.
R322: L2_FLUSH sets BUSY and marks the lines that are present; when it is done, BUSY falls, those lines are gone
and dirty data are in memory, and lines that came later stay. -/
def Obligations.HostCaches : Prop :=
  (∀ (c : Fin 4) (r : Fin 32) (s : State), let u := s.dev.plicSample
      let h := u.hc c
      let a := (h.rx r.val).toNat
      let b := a / 64
      s.dev.wf = true → u.hostReady c 4 = true → a < 2 ^ 40 → h.pmpOk .m .r a 1 = true →
      (u.hostCacheable a = false → ∀ i, i = .cboClean c r ∨ i = .cboFlush c r ∨ i = .cboInval c r →
        answers (exec i s) s fun t => (t.hc c).pc = h.pc + 4 ∧ (∀ n, (t.hc c).rx n = h.rx n) ∧
          t.host.cache = s.dev.host.cache ∧ t.host.wb = s.dev.host.wb ∧ t.mem = s.dev.mem) ∧
      (u.hostLined a = true → ∀ l, s.dev.line b = some l → l.err = 0 →
        let put := fun (t : Dev) => t.host.wb = if l.dirty then s.dev.host.wb ++ [⟨c.val, 64 * b, l.data, l.poison⟩]
          else s.dev.host.wb
        let rest := fun (t : Dev) => (t.hc c).pc = h.pc + 4 ∧ (∀ n, (t.hc c).rx n = h.rx n) ∧ t.mem = s.dev.mem ∧
          ∀ k, k ≠ b → t.line k = s.dev.line k
        answers (exec (.cboClean c r) s) s (fun t => put t ∧ rest t ∧ t.line b = some { l with dirty := false }) ∧
        answers (exec (.cboFlush c r) s) s (fun t => put t ∧ rest t ∧ t.line b = none) ∧
        answers (exec (.cboInval c r) s) s (fun t =>
          t.host.wb = s.dev.host.wb ∧ rest t ∧ t.line b = none))) ∧
  (∀ (ini v : Nat) (s : State), s.dev.wf = true →
      (s.dev.accepts ini R.L2_FLUSH = true → answers (exec (.l2Flush ini v) s) s fun t =>
        t.bt R.L2_STAT 31 = true ∧ t.host.cache = s.dev.host.cache ∧ t.mem = s.dev.mem ∧
          t.host.flushing = if s.dev.bt R.L2_STAT 31 then s.dev.host.flushing else s.dev.host.cache.map (·.1)) ∧
      (s.dev.bt R.L2_STAT 31 = true → answers (exec .l2FlushDone s) s fun t =>
        t.bt R.L2_STAT 31 = false ∧ t.host.flushing = [] ∧ t.host.core = s.dev.host.core ∧
          (∀ b, t.line b = if b ∈ s.dev.host.flushing then none else s.dev.line b) ∧
          ∀ b l, s.dev.host.flushing = [b] → s.dev.line b = some l → l.err = 0 → 0x400 ≤ b → l.data.length = 64 →
            s.dev.refusal 4 (64 * b) 8 .wr = none →
            t.rdBytes (64 * b) 64 = (if l.dirty then l.data else s.dev.rdBytes (64 * b) 64) ∧
              ∀ a, a < 64 * b ∨ 64 * b + 64 ≤ a → t.byte a = s.dev.byte a) ∧
      (s.dev.bt R.L2_STAT 31 = false → answers (exec .l2FlushDone s) s fun t => t = s.dev))

/-- R327, R328: a claim returns the pending, enabled source of the highest priority above the threshold, the lowest
ID among equals, and takes it in service; a completion ends the service, and a source that is still asserted is
pending again. -/
def Obligations.InterruptController : Prop :=
  ∀ (ini v : Nat) (x : Fin 8) (s : State), s.dev.wf = true →
    (s.dev.readable ini R.PLIC_CLAIM 0 x.val = true → answers (exec (.plicClaim ini x) s) s fun t =>
      let u := s.dev.plicSample
      (∀ j, 0 < j → j < 1024 → (u.plicPend j = true ↔
        s.dev.plicPend j = true ∨ (s.dev.islUp 6 = true ∧ plicListed j = true ∧ s.dev.plicSrc j = true ∧ j ∉ s.dev.host.claimed))) ∧
      ∃ q, q < 1024 ∧ t.returned ini q ∧
        (q = 0 → (∀ j, 0 < j → j < 1024 → u.plicReady x.val j = false) ∧ t.host = s.dev.host) ∧
        (q ≠ 0 → u.plicReady x.val q = true ∧ (∀ j, 0 < j → j < 1024 → u.plicReady x.val j = true →
            s.dev.rg R.PLIC_PRI 0 j ≤ s.dev.rg R.PLIC_PRI 0 q ∧
              (s.dev.rg R.PLIC_PRI 0 j = s.dev.rg R.PLIC_PRI 0 q → q ≤ j)) ∧
          (∀ j, j ∈ t.host.claimed ↔ j = q ∨ j ∈ s.dev.host.claimed)) ∧
        ∀ j, 0 < j → j < 1024 → t.plicPend j = (u.plicPend j && j != q)) ∧
    (s.dev.accepts ini R.PLIC_CLAIM 0 x.val = true → v < 2 ^ 32 → answers (exec (.plicComplete ini x v) s) s fun t =>
      let on := v < 1024 ∧ s.dev.bt R.PLIC_EN (v % 32) 0 x.val (v / 32) = true
      (on → (∀ j, j ∈ t.host.claimed ↔ j ≠ v ∧ j ∈ s.dev.host.claimed) ∧
        t.plicPend v = (s.dev.plicPend v || (s.dev.islUp 6 && plicListed v && s.dev.plicSrc v))) ∧
      (¬ on → t.host = s.dev.host ∧ t.regs = s.dev.regs))

/-- R331 to R333: MTIME, MSIP, SETSSIP and HOST_DBELL take a write, and a timer interrupt that is enabled wakes a
host core. -/
def Obligations.HostTimerAndBells : Prop :=
  ∀ (ini v : Nat) (c : Fin 4) (s : State), s.dev.wf = true →
    (s.dev.accepts ini R.MTIME = true → answers (exec (.mtimeWrite ini v) s) s fun t =>
      t.rg R.MTIME = v % 2 ^ 64 ∧ t.mtip c = decide (s.dev.rg R.MTIMECMP 0 c.val ≤ v % 2 ^ 64) ∧
        t = { s.dev with regs := t.regs, bus := t.bus }) ∧
    (s.dev.accepts ini R.MSIP 0 c.val = true → answers (exec (.msipWrite ini c v) s) s fun t =>
      t.bt R.MSIP 0 0 c.val = v.testBit 0 ∧ (∀ i : Fin 4, i ≠ c → t.rg R.MSIP 0 i.val = s.dev.rg R.MSIP 0 i.val) ∧
        t = { s.dev with regs := t.regs, bus := t.bus }) ∧
    (s.dev.accepts ini R.SETSSIP 0 c.val = true → answers (exec (.setssip ini c v) s) s fun t =>
      (∀ b, bit ((t.hc c).c 0x344) b = if b = 1 then 1 else bit ((s.dev.hc c).c 0x344) b) ∧
        (∀ i, i ≠ c → t.hc i = s.dev.hc i) ∧ (t.hc c).pc = (s.dev.hc c).pc ∧ (t.hc c).x = (s.dev.hc c).x ∧
        t.regs = s.dev.regs) ∧
    (s.dev.accepts ini R.HOST_DBELL = true → answers (exec (.hostDbell ini v) s) s fun t =>
      (∀ b < 16, t.bt R.HOST_DBSTAT b = (s.dev.bt R.HOST_DBSTAT b || v.testBit b)) ∧
        t = { s.dev with regs := t.regs, bus := t.bus }) ∧
    answers (exec (.mtimeCompare c) s) s fun t =>
      let wakes := s.dev.rg R.MTIMECMP 0 c.val ≤ s.dev.rg R.MTIME ∧ bit ((s.dev.hc c).c 0x304) 7 = 1
      (wakes → t = s.dev.modHc c fun h => { h with wfi := false }) ∧ (¬ wakes → t = s.dev)

/-- R334, R521, R523 to R525: operations of the host cores' debug module, accesses of SYSBUS and the update of the
boundary register; with DBGLOCK set, no operation of the debug module and no access of SYSBUS is made. -/
def Obligations.TestPort : Prop :=
  ∀ (op a v : Nat) (s : State),
    let dbg := fun (t : Dev) (r : Resp) => SMap.get ⟨0, true, true⟩ t.bus.resp 0x40 = r
    (s.dev.dbgLock = true ∨ s.dev.islUp 6 = false → answers (exec (.dmiAccess op a v) s) s fun t =>
      dbg t ⟨0, true, false⟩ ∧ t = { s.dev with bus := t.bus }) ∧
    (s.dev.dbgLock = false → s.dev.islUp 6 = true → s.dev.wf = true →
      (op ≠ 1 → op ≠ 2 → answers (exec (.dmiAccess op a v) s) s fun t => t = s.dev) ∧
      (a % 128 = 0x10 → answers (exec (.dmiAccess 1 a v) s) s fun t =>
        dbg t ⟨s.dev.dm 0x10, false, false⟩ ∧ t = { s.dev with bus := t.bus }) ∧
      (a % 128 = 4 → s.dev.dmActive = true → bit (s.dev.dm 0x18) 0 = 0 →
        answers (exec (.dmiAccess 2 a v) s) s (fun t => t.dm 4 = v % 2 ^ 32 ∧ t.host.core = s.dev.host.core) ∧
        answers (exec (.dmiAccess 1 a v) s) s (fun t =>
          dbg t ⟨s.dev.dm 4, false, false⟩ ∧ t = { s.dev with bus := t.bus })) ∧
      (a % 128 = 0x10 → bit v 0 = 1 → bit v 1 = 0 → bit v 29 = 0 → bit (s.dev.dm 0x10) 1 = 0 →
        bit (s.dev.dm 0x10) 29 = 0 →
        let c : Fin 4 := Fin.ofNat 4 (bits v 17 16)
        let h := s.dev.hc c
        answers (exec (.dmiAccess 2 a v) s) s fun t =>
          let k := t.hc c
          (∀ i, i ≠ c → t.hc i = s.dev.hc i) ∧ k.x = h.x ∧ k.f = h.f ∧ t.mem = s.dev.mem ∧
          (bit v 31 = 1 → h.run = .running → k.run = .halted ∧ k.c 0x7B1 = h.pc.toNat ∧
            bits (k.c 0x7B0) 8 6 = 3 ∧ bits (k.c 0x7B0) 1 0 = h.priv.num) ∧
          (bit v 31 = 0 → bit v 30 = 1 → h.run = .halted → k.run = .running ∧ k.pc = BitVec.ofNat 64 (h.c 0x7B1) ∧
            k.priv = privOf (h.c 0x7B0 % 4)) ∧
          (bit v 31 = 0 → bit v 30 = 0 → k = h))) ∧
    (∀ (o : Fin 4), let b := a % 2 ^ 40
      (o = 0 → answers (exec (.sysbusAccess o a v) s) s fun t => t = s.dev) ∧
      (o ≠ 0 → s.dev.dbgLock = true → answers (exec (.sysbusAccess o a v) s) s fun t =>
        t.test.stat = 3 ∧ t.test.addr = b ∧ t = { s.dev with test := t.test }) ∧
      (o = 1 → s.dev.dbgLock = false → answers (exec (.sysbusAccess o a v) s) s fun t =>
        t.test.addr = b ∧ (t.test.stat = if (s.dev.refusal 0x3F b 4 .rd).isSome then 2 else 0) ∧
          (s.dev.refusal 0x3F b 4 .rd = none → regionOf b = some .atrium → s.dev.clean b 4 = true →
            t.test.data = s.dev.rdN b 4 ∧ t.mem = s.dev.mem)) ∧
      (o = 2 → s.dev.dbgLock = false → memAddr b = true → s.dev.clean b 4 = true → s.dev.wf = true → 0x10000 ≤ b →
        answers (exec (.sysbusAccess o a v) s) s fun t =>
          t.test.addr = b ∧ t.test.data = v % 2 ^ 32 ∧
          (s.dev.refusal 0x3F b 4 .wr = none → t.test.stat = 0 ∧ t.rdN b 4 = v % 2 ^ 32) ∧
          ((s.dev.refusal 0x3F b 4 .wr).isSome = true → t.test.stat = 2 ∧ t.mem = s.dev.mem))) ∧
    ∀ (d : Fin 2) (cells : List Bool), s.dev.fitted d.val = true →
      answers (exec (.boundaryScanUpdate d a cells) s) s fun t =>
        t.test.ir = a % 32 ∧ t.test.cells = (if a % 32 ≤ 1 then cells else s.dev.test.cells) ∧
          t = { s.dev with test := { s.dev.test with ir := t.test.ir, cells := t.test.cells } }

/-- R308, R311 to R314: a request is queued or dropped; the controller takes the oldest of the foremost class and
grants or refuses it; a release ends a work. -/
def Obligations.Admission : Prop :=
  ∀ (ini v : Nat) (s : State), s.dev.wf = true →
    (s.dev.accepts ini R.ADM_REQ = true → answers (exec (.admissionRequest ini v) s) s fun t =>
      let a := v % 2 ^ 40
      let good := s.dev.hub.admq.length < 8 ∧ a % 64 = 0 ∧ 0x40000000 ≤ a ∧ a + 128 ≤ 0x43000000
      (good → t.hub.admq = s.dev.hub.admq ++ [a] ∧ t.regs = s.dev.regs ∧ t.mem = s.dev.mem) ∧
      (¬ good → t.hub = s.dev.hub ∧ t.bt R.ADM_STAT 30 = true ∧
        t.rg R.ADM_DROPS = min (s.dev.rg R.ADM_DROPS + 1) (2 ^ 32 - 1) ∧ t.mem = s.dev.mem)) ∧
    (s.dev.ldg.stage = .idle → s.dev.hub.admq = [] → answers (exec .admissionEvaluate s) s fun t => t = s.dev) ∧
    (∀ (pre post : List Nat) (a : Nat),
      s.dev.ldg.stage = .idle → s.dev.hub.admq = pre ++ a :: post →
      (∀ b ∈ pre, s.dev.admRank a < s.dev.admRank b) → (∀ b ∈ post, s.dev.admRank a ≤ s.dev.admRank b) →
      inAtrium a 128 = true → s.dev.clean a (s.dev.manifest a).bytes = true → s.dev.ringEn 48 = false →
      s.dev.hub.popWaits = [] → s.dev.hub.waits = [] →
      let m := s.dev.manifest a
      let r := s.dev.reasons m
      answers (exec .admissionEvaluate s) s fun t =>
        t.hub.admq = pre ++ post ∧
        (r ≠ 0 → t.rg R.ADM_REFUSALS = min (s.dev.rg R.ADM_REFUSALS + 1) (2 ^ 32 - 1) ∧
          t.rdN (a + 0x40) 4 = 2 ^ 31 + r ∧ t.hub.works = s.dev.hub.works ∧
          ∀ b, b < a + 0x40 ∨ a + 0x44 ≤ b → t.byte b = s.dev.byte b) ∧
        (r = 0 → t.rg R.ADM_GRANTS = min (s.dev.rg R.ADM_GRANTS + 1) (2 ^ 32 - 1) ∧
          t.rdN (a + 0x40) 4 = 0xC0000000 ∧ ∃ gs w, s.dev.chosen m = some gs ∧ gs.length = m.ngal ∧
            t.hub.works = s.dev.hub.works ++ [w] ∧ w.manifest = a ∧ w.cls = m.cls ∧ w.gals = gs.map (·.val) ∧
            1 ≤ w.id ∧ w.id ≤ 64 ∧ (∀ x ∈ s.dev.hub.works, x.id ≠ w.id) ∧
            (∀ n, 1 ≤ n → n < w.id → ∃ x ∈ s.dev.hub.works, x.id = n) ∧ t.rdN (a + 0x44) 1 = w.id ∧
            (∀ g ∈ gs, t.rg R.GAL_WORK 0 g.val = w.id) ∧
            ∀ k, w.cellBase ≤ k → k < w.cellBase + w.nCells → t.cell k = 0)) ∧
    (s.dev.accepts ini R.ADM_REL = true →
      ((∀ w ∈ s.dev.hub.works, w.id ≠ v % 128) → answers (exec (.workRelease ini v) s) s fun t =>
        t.bt R.ADM_STAT 29 = true ∧ t.hub = s.dev.hub ∧ t.mem = s.dev.mem) ∧
      ∀ w, s.dev.hub.works.find? (·.id == v % 128) = some w → (∀ r ∈ w.rings, r < 1024) → w.nBuf ≤ 16 →
        answers (exec (.workRelease ini v) s) s fun t =>
          t.hub.works = s.dev.hub.works.filter (·.id != w.id) ∧
          t.rg R.ADM_RELEASES = min (s.dev.rg R.ADM_RELEASES + 1) (2 ^ 32 - 1) ∧
          (∀ r ∈ w.rings, t.ringEn r = false ∧ t.fld R.RING_CFG 15 8 0 r = 0) ∧
          (∀ g : Fin 6, g.val ∈ w.gals → t.rg R.GAL_WORK 0 g.val = 0) ∧
          ∀ x ∈ t.hub.waits, ¬ (w.cellBase ≤ x.cell ∧ x.cell < w.cellBase + w.nCells))

/-- The block takes the command at the front of its queue: a step is that command's effect with the rest of the
queue. With nothing waiting a cycle passes (the model's choice, log entry 39). -/
def Obligations.StepRunsFront : Prop :=
  ∀ (c : Instr) (cs : List Instr) (s : State),
    step { s with pending := c :: cs } = exec c { s with pending := cs } ∧
      step { s with pending := [] } = .next { s with pending := [], dev := s.dev.tick }

/-- R8, R66, R78, R136, R312, R322, R331: what holds after reset: no command waits, no register but RST_CAUSE and
CAL_STAT differs from its reset value, the cores have not started, and the state is canonical. That memory reads 0
outside the ROM is the model's choice (log entry 5). -/
def Obligations.ResetState : Prop :=
  let s := State.reset
  s.pending = [] ∧ s.dev.wf = true ∧ (∀ a, 0x10000 ≤ a → s.dev.byte a = 0) ∧
  (∀ c : Fin 8, (vget s.dev.core c).run = .reset ∧ (vget s.dev.core c).status = 5) ∧
  (∀ c : Fin 4, (s.dev.hc c).run = .reset ∧ (s.dev.hc c).priv = .m) ∧
  (∀ d : Fin 2, s.dev.rg R.RST_CAUSE d.val = 0x80000001 ∧ s.dev.rg R.CAL_STAT d.val = 0x80000000) ∧
  (∀ (r : RegDef) (k i j : Nat), (∀ d : Fin 2, r.addr k i j ≠ R.RST_CAUSE.addr d.val 0 0 ∧
      r.addr k i j ≠ R.CAL_STAT.addr d.val 0 0) → s.dev.rg r k i j = r.rst .m4b k i j) ∧
  s.dev.rg R.LDG_CTL = 0x180008 ∧ s.dev.rg R.ADM_RATECAP = 0x10000 ∧ s.dev.rg R.L2_STAT = 0xFB ∧
  (∀ c : Fin 4, s.dev.rg R.MTIMECMP 0 c.val = 2 ^ 64 - 1) ∧ s.dev.rg R.CRST_REL = 0

/-- No step refuses a command: it answers a next state with the front of the queue taken off, but for a command of a
unit of I/O die 1 where that die is not fitted (R24). -/
def Obligations.NoCommandStops : Prop :=
  ∀ s : State, (∃ t, step s = .next t ∧ t.pending = s.pending.tail) ∨
    (step s = .fault .unfitted ∧ s.dev.fitted 1 = false ∧ s.pending ≠ [])

/-- Every step keeps the canonical form of memory and of the other sparse maps, from every state that has it. -/
def Obligations.CanonicalForm : Prop :=
  ∀ s t : State, s.dev.wf = true → step s = .next t → t.dev.wf = true
end

