-- ==== Sys2Proof/Laws/Bus.lean ====
section
/-!
SUPPORT. What an access on the bus does, once: it is refused and logged, or it reaches memory, a sync cell or a
register; and what a command that writes a whole register does.
-/

namespace Sys2Proof.Machine

@[simp] theorem busResp_fst (s : Dev) (ini : Nat) (r : Resp) : (s.busResp ini r).1 = r := rfl

@[simp] theorem busResp_regs (s : Dev) (ini : Nat) (r : Resp) : (s.busResp ini r).2.regs = s.regs := rfl

@[simp] theorem busResp_mem (s : Dev) (ini : Nat) (r : Resp) : (s.busResp ini r).2.mem = s.mem := rfl

/-- A refused write is logged and answers an error (R41). -/
theorem busWrite_refused {s : Dev} {ini a n v : Nat} {c : Cause} (h : s.refusal ini a n .wr = some c) :
    busWrite ini a n v s = s.busRefuse ini a n .wr c := by
  unfold busWrite bus dmBus
  simp only
  split
  · simp [Dev.write0, h]
  · simp [h]

/-- A refused read is logged and answers an error (R41). -/
theorem busRead_refused {s : Dev} {ini a n : Nat} {c : Cause} (h : s.refusal ini a n .rd = some c) :
    busRead ini a n s = s.busRefuse ini a n .rd c := by
  unfold busRead bus dmBus
  simp only
  split
  · simp [Dev.read0, h]
  · simp [h]

/-- A write to memory: the errors it meets, then its bytes. -/
theorem busWrite_mem {s : Dev} {ini a n v : Nat} {r : Region} (hd : dmiOf a = none)
    (h : s.refusal ini a n .wr = none) (hr : regionOf a = some r) (hm : r.isMem = true) :
    busWrite ini a n v s = ((s.meet ini a (if n < 8 then n else 0)).wrN a n v).busResp ini ⟨0, false, false⟩ := by
  unfold busWrite bus dmBus
  simp only [hd]
  unfold Dev.write0
  simp only [h, hr]
  cases r <;> first | rfl | simp [Region.isMem] at hm

/-- A read of memory: the errors it meets, then what stands there. -/
theorem busRead_mem {s : Dev} {ini a n : Nat} {r : Region} (hd : dmiOf a = none)
    (h : s.refusal ini a n .rd = none) (hr : regionOf a = some r) (hm : r.isMem = true) :
    busRead ini a n s = (let t := (s.meet ini a n).flashServe a n
      t.busResp ini ⟨t.rdN a n, false, t.poisoned a n⟩) := by
  unfold busRead bus dmBus
  simp only [hd]
  unfold Dev.read0
  simp only [h, hr]
  cases r <;> first | rfl | simp [Region.isMem] at hm

/-- An accepted write of a whole register takes that register's write. -/
theorem regCmd_of {s : Dev} {r : RegDef} {ini v k i : Nat} {g : Region} {x : RegAt} (hd : dmiOf (r.addr k i 0) = none)
    (h : s.refusal ini (r.addr k i 0) (r.w / 8) .wr = none) (hg : regionOf (r.addr k i 0) = some g)
    (hm : g.isMem = false) (hc : g ≠ .cells) (hx : regAt (r.addr k i 0) = some x) (hw : ¬ (x.r.w = 64 ∧ r.w / 8 = 4)) :
    regCmd r ini v k i s = ((s.regWrite ini x.r x.k x.i x.j v).busResp ini ⟨0, false, false⟩).2 := by
  have hww : s.wordWrite ini (r.addr k i 0) (r.w / 8) v = some (s.regWrite ini x.r x.k x.i x.j v) := by
    unfold Dev.wordWrite
    simp only [hx, if_neg hw]
  unfold regCmd busWrite bus dmBus
  simp only [hd]
  unfold Dev.write0
  simp only [h, hg, hww, hm]
  cases g <;> rfl

end Sys2Proof.Machine
end

