-- ==== Sys2Proof/Laws/Insn.lean ====
section
/-!
SUPPORT. What the frame of an instruction does, once: a ready instruction runs its meaning, and a
committed one leaves its core, its gallery and nothing else changed.
-/

namespace Sys2Proof.Machine

theorem vget_vset_same {α : Type} {n : Nat} (v : Vector α n) (i : Fin n) (x : α) :
    vget (vset v i x) i = x := by
  simp [vget, vset]

theorem vget_vset_ne {α : Type} {n : Nat} (v : Vector α n) (i j : Fin n) (x : α) (h : j ≠ i) :
    vget (vset v i x) j = vget v j := by
  have : i.val ≠ j.val := fun e => h (Fin.ext e.symm)
  simp [vget, vset, this]

@[simp] theorem vget_vmod_same {α : Type} {n : Nat} (v : Vector α n) (i : Fin n) (f : α → α) :
    vget (vmod v i f) i = f (vget v i) := by
  simp [vmod, vget]

theorem vget_vmod_ne {α : Type} {n : Nat} (v : Vector α n) (i j : Fin n) (f : α → α) (h : j ≠ i) :
    vget (vmod v i f) j = vget v j := by
  have : i.val ≠ j.val := fun e => h (Fin.ext e.symm)
  simp [vmod, vget, this]

/-- A ready instruction whose target is aligned runs its meaning. -/
theorem insn_of_ready {s : Dev} {c : Fin 8} {k : Form} {f : Dev → CoreSt → Ins} {mis : CoreSt → Option Nat}
    (h : s.ready c k = true) (hm : mis (vget s.core c) = none) :
    s.insn c k f mis = s.finish c (f s (vget s.core c)) := by
  unfold Dev.ready Dev.readyWith Dev.calm at h
  simp only [Bool.and_eq_true, Bool.not_eq_true', beq_iff_eq, Option.isNone_iff_eq_none] at h
  obtain ⟨⟨⟨⟨⟨⟨⟨⟨⟨_, hr⟩, hs⟩, hl⟩, hres⟩, hh⟩, hf⟩, hb⟩, hx⟩, _⟩ := h
  have hset : s.settle c = s := by unfold Dev.settle; simp [hr, hs]
  unfold Dev.insn
  simp [hset, hr, hs, hl, hh, hf, hb, hx, hm]

/-- The core of a ready instruction exists, so its command is not stopped. -/
theorem onCore_of_ready {s : State} {c : Fin 8} {k : Form} {f : Dev → Dev} (h : s.dev.ready c k = true) :
    onCore c f s = .next { s with dev := f s.dev } := by
  unfold Dev.ready Dev.readyWith Dev.calm at h
  simp only [Bool.and_eq_true, Bool.not_eq_true'] at h
  obtain ⟨⟨⟨⟨⟨⟨⟨⟨⟨h, _⟩, _⟩, _⟩, _⟩, _⟩, _⟩, _⟩, _⟩, _⟩ := h
  unfold onCore ok
  split
  · rename_i hc
    simp_all
  · rfl

/-- What readiness says of the core. -/
theorem ready_facts {s : Dev} {c : Fin 8} {k : Form} (h : s.ready c k = true) :
    (vget s.core c).resumed = false ∧ s.epFull c = false ∧ (vget s.core c).load = none ∧ (vget s.core c).stall = .none := by
  unfold Dev.ready Dev.readyWith Dev.calm at h
  simp only [Bool.and_eq_true, Bool.not_eq_true', beq_iff_eq, Option.isNone_iff_eq_none] at h
  tauto

@[simp] theorem epInstr_core (s : Dev) (c : Fin 8) : (s.epInstr c).core = s.core := by
  unfold Dev.epInstr; split <;> (try split) <;> rfl

/-- The core after an instruction whose own change is `g` and whose path is `mv`. -/
def CoreSt.done (mv : CoreSt → CoreSt) (x : CoreSt) : CoreSt :=
  let x := mv x.endShadow
  { x with
    instret := (x.instret + 1) % 2 ^ 64, stall := .none, load := none, mustRun := false
    intPoint := false }

/-- A committed instruction of a ready core: its core is `CoreSt.done`, nothing else changes. -/
theorem insn_commit {s : Dev} {c : Fin 8} {k : Form} {f : Dev → CoreSt → Ins}
    (h : s.ready c k = true) (g : CoreSt → CoreSt) (mv : CoreSt → CoreSt)
    (hf : f s (vget s.core c) = .commit (s.modCore c g) mv)
    (hres : (mv (g (vget s.core c)).endShadow).resumed = false) :
    s.onlyCore (s.insn c k f) c ∧
      vget (s.insn c k f).core c = CoreSt.done mv (g (vget s.core c)) := by
  obtain ⟨hr, hfull, hl, hst⟩ := ready_facts h
  rw [insn_of_ready h rfl, hf]
  simp only [Dev.finish, hfull, Bool.false_eq_true, if_false]
  have key : ∀ t : Dev, vget t.core c = g (vget s.core c) →
      t.commit c mv = t.modCore c fun x => CoreSt.done mv x := by
    intro t ht
    unfold Dev.commit Dev.stepEnd Dev.modCore CoreSt.done
    simp [ht, hres]
  rw [key]
  · split
    · rename_i he
      refine ⟨⟨?_, ?_, ?_⟩, ?_⟩
      · unfold Dev.modCore Dev.epInstr; split <;> (try split) <;> rfl
      · intro i hi
        simp only [Dev.modCore, epInstr_core, vget_vmod_ne _ _ _ _ hi]
      · intro i
        unfold Dev.inEpoch Dev.coreEp at *
        unfold Dev.epInstr Dev.modCore
        split
        · rename_i g' hg
          simp only [hg, Dev.ep] at *
          simp at he
          simp [he, Dev.modGal]
          split
          · rename_i h2
            subst h2; simp
          · rename_i h2
            rw [vget_vmod_ne]
            exact fun e => h2 e.symm
        · rename_i hg
          simp [hg]
      · simp [Dev.modCore, epInstr_core]
    · rename_i he
      refine ⟨⟨rfl, ?_, ?_⟩, ?_⟩
      · intro i hi; simp only [Dev.modCore, vget_vmod_ne _ _ _ _ hi]
      · intro i; simp [he, Dev.modCore]
      · simp [Dev.modCore]
  · split
    · simp [Dev.modCore, epInstr_core]
    · simp [Dev.modCore]

/-- An instruction whose word or place raises `e` takes that exception, with its own address as BADADDR. -/
theorem insn_of_readyWith {s : Dev} {c : Fin 8} {k : Form} {e : Exc} {f : Dev → CoreSt → Ins}
    (h : s.readyWith c k (some e) = true) : s.insn c k f = s.raise c e (vget s.core c).pc.toNat := by
  unfold Dev.readyWith Dev.calm at h
  simp only [Bool.and_eq_true, Bool.not_eq_true', beq_iff_eq, Option.isNone_iff_eq_none] at h
  obtain ⟨⟨⟨⟨⟨⟨⟨⟨⟨_, hr⟩, hs⟩, hl⟩, hres⟩, hh⟩, hf⟩, hb⟩, hx⟩, _⟩ := h
  have hset : s.settle c = s := by unfold Dev.settle; simp [hr, hs]
  unfold Dev.insn
  simp [hset, hr, hs, hl, hh, hf, hb, hx]

/-- Outside an epoch an exception enters the core's handler (R142, R150). -/
theorem raise_plain {s : Dev} {c : Fin 8} (e : Exc) (bad : Nat) (h : s.coreEp c = false)
    (hs : (vget s.core c).slot = none) (hm : (vget s.core c).shadow = none) :
    s.raise c e bad = s.enter c (vget s.core c).pc.toNat e.code bad false := by
  unfold Dev.raise
  simp only [hs, hm]
  unfold Dev.coreEp at h
  split
  · simp [b2n]
  · rename_i g hg
    simp [hg] at h
    simp [h, b2n]

end Sys2Proof.Machine
end

