-- ==== Sys2Proof/Laws/Irq.lean ====
section
/-!
SUPPORT. What sampling the interrupt sources does: it changes pending bits alone, and nothing where every source
is quiet.
-/

namespace Sys2Proof.Machine

/-- A fold that leaves its state alone at every element. -/
theorem foldl_fixed {σ α : Type} (f : σ → α → σ) (s : σ) (l : List α) (h : ∀ a ∈ l, f s a = s) : l.foldl f s = s := by
  induction l with
  | nil => rfl
  | cons a l ih =>
    rw [List.foldl_cons, h a (by simp)]
    exact ih fun b hb => h b (List.mem_cons_of_mem a hb)

/-- A fold keeps what every step keeps. -/
theorem foldl_keeps {σ α β : Type} (g : σ → β) (f : σ → α → σ) (l : List α) (h : ∀ s, ∀ a ∈ l, g (f s a) = g s) :
    ∀ s, g (l.foldl f s) = g s := by
  induction l with
  | nil => intro _; rfl
  | cons a l ih =>
    intro s
    rw [List.foldl_cons, ih (fun s b hb => h s b (List.mem_cons_of_mem a hb)), h s a (by simp)]

/-- With every source quiet a sample changes nothing. -/
theorem plicSample_quiet (s : Dev)
    (h : ((List.range 1024).all fun id => !(plicListed id && s.plicSrc id && !(id ∈ s.host.claimed))) = true) :
    s.plicSample = s := by
  unfold Dev.plicSample
  split
  · refine foldl_fixed _ s _ fun id hid => ?_
    have := List.all_eq_true.mp h id hid
    simp only [Bool.not_eq_true'] at this
    rw [if_neg (by rw [this]; decide)]
  · rfl

/-- A sample changes registers alone. -/
theorem plicSample_frame (s : Dev) : s.plicSample = { s with regs := s.plicSample.regs } := by
  unfold Dev.plicSample
  split
  · have key : ∀ (l : List Nat) (t : Dev), t = { s with regs := t.regs } →
        l.foldl (fun s id => if plicListed id && s.plicSrc id && !(id ∈ s.host.claimed) then
          s.setB R.PLIC_PEND (id % 32) true 0 (id / 32) else s) t =
        { s with regs := (l.foldl (fun s id => if plicListed id && s.plicSrc id && !(id ∈ s.host.claimed) then
          s.setB R.PLIC_PEND (id % 32) true 0 (id / 32) else s) t).regs } := by
      intro l
      induction l with
      | nil => intro t ht; exact ht
      | cons a l ih =>
        intro t ht
        rw [List.foldl_cons]
        apply ih
        split
        · rw [ht]; rfl
        · exact ht
    exact key _ s rfl
  · rfl

end Sys2Proof.Machine
end

