-- ==== Sys2Proof/Laws/Maps.lean ====
section
/-!
SUPPORT. What the operations of a sparse map do, that each keeps the canonical form, that every operation on
memory keeps `Memory.wf`, and byte order.
-/

namespace Sys2Proof.Machine

/-! ### Sparse maps -/

variable {α : Type}

theorem SMap.rising_weaken (m : SMap α) : ∀ (b : Option Nat) (k : Nat), (∀ x, b = some x → x ≤ k) →
    SMap.rising (some k) m = true → SMap.rising b m = true := by
  intro b k hb h
  cases m with
  | nil => rfl
  | cons p m =>
    simp only [SMap.rising, Bool.and_eq_true, decide_eq_true_eq] at h ⊢
    refine ⟨?_, h.2⟩
    cases b with
    | none => rfl
    | some x => simpa using lt_of_le_of_lt (hb x rfl) h.1

theorem SMap.rising_none {m : SMap α} {b : Option Nat} (h : SMap.rising b m = true) :
    SMap.rising none m = true := by
  cases b with
  | none => exact h
  | some k => exact SMap.rising_weaken m none k (by simp) h

/-- Below every key there is nothing. -/
theorem SMap.get_of_rising (d : α) {m : SMap α} : ∀ {k a : Nat}, SMap.rising (some k) m = true → a ≤ k →
    SMap.get d m a = d := by
  intro k a h ha
  cases m with
  | nil => rfl
  | cons p m =>
    simp only [SMap.rising, Bool.and_eq_true, decide_eq_true_eq] at h
    simp [SMap.get, lt_of_le_of_lt ha h.1]

theorem SMap.get_insert (d : α) (m : SMap α) (a b : Nat) (x : α) :
    SMap.get d (SMap.insert m a x) b = if b = a then x else SMap.get d m b := by
  induction m with
  | nil => simp only [SMap.insert, SMap.get]; split_ifs <;> (first | rfl | omega)
  | cons p m ih =>
    obtain ⟨k, v⟩ := p
    simp only [SMap.insert]
    split_ifs with h1 h2 h3 h3 h3 <;> simp only [SMap.get, ih] <;> split_ifs <;> (first | rfl | omega)

theorem SMap.get_erase (d : α) (m : SMap α) (a b : Nat) (h : SMap.rising none m = true) :
    SMap.get d (SMap.erase m a) b = if b = a then d else SMap.get d m b := by
  induction m with
  | nil => simp [SMap.erase, SMap.get]
  | cons p m ih =>
    obtain ⟨k, v⟩ := p
    have hr : SMap.rising (some k) m = true := by simpa [SMap.rising] using h
    simp only [SMap.erase]
    split_ifs with h1 h2 h3 h3 h3 <;> try simp only [SMap.get, ih (SMap.rising_none hr)]
    all_goals try subst_vars
    all_goals try split_ifs
    all_goals first
      | rfl
      | omega
      | exact SMap.get_of_rising d hr (by omega)

theorem SMap.get_set [DecidableEq α] (d : α) (m : SMap α) (a b : Nat) (x : α) (h : SMap.rising none m = true) :
    SMap.get d (SMap.set d m a x) b = if b = a then x else SMap.get d m b := by
  unfold SMap.set
  split_ifs with h1 h2 h2
  · rw [SMap.get_erase d m a b h]; simp [h1, h2]
  · rw [SMap.get_erase d m a b h]; simp [h2]
  · rw [SMap.get_insert]; simp [h2]
  · rw [SMap.get_insert]; simp [h2]

theorem SMap.rising_insert (m : SMap α) (a : Nat) (x : α) : ∀ b : Option Nat, (∀ k, b = some k → k < a) →
    SMap.rising b m = true → SMap.rising b (SMap.insert m a x) = true := by
  induction m with
  | nil =>
    intro b hb _
    cases b with
    | none => rfl
    | some k => simpa [SMap.insert, SMap.rising] using hb k rfl
  | cons p m ih =>
    obtain ⟨k, v⟩ := p
    intro b hb h
    simp only [SMap.rising, Bool.and_eq_true] at h
    simp only [SMap.insert]
    split_ifs with h1 h2
    · cases b with
      | none => simpa [SMap.rising, h1] using h.2
      | some y => simpa [SMap.rising, h1, hb y rfl] using h.2
    · subst h2
      cases b with
      | none => simpa [SMap.rising] using h.2
      | some y => simpa [SMap.rising, hb y rfl] using h.2
    · simp only [SMap.rising, Bool.and_eq_true]
      exact ⟨h.1, ih (some k) (by intro y hy; cases hy; omega) h.2⟩

theorem SMap.rising_erase (m : SMap α) (a : Nat) : ∀ b : Option Nat, SMap.rising b m = true →
    SMap.rising b (SMap.erase m a) = true := by
  induction m with
  | nil => intro b _; cases b <;> rfl
  | cons p m ih =>
    obtain ⟨k, v⟩ := p
    intro b h
    simp only [SMap.erase]
    split_ifs with h1 h2
    · exact h
    · simp only [SMap.rising, Bool.and_eq_true] at h
      refine SMap.rising_weaken m b k ?_ h.2
      intro y hy; subst hy; have := h.1; simp at this; omega
    · simp only [SMap.rising, Bool.and_eq_true] at h ⊢
      exact ⟨h.1, ih (some k) h.2⟩

theorem SMap.rising_set [DecidableEq α] (d : α) (m : SMap α) (a : Nat) (x : α) (h : SMap.rising none m = true) :
    SMap.rising none (SMap.set d m a x) = true := by
  unfold SMap.set
  split_ifs
  · exact SMap.rising_erase m a none h
  · exact SMap.rising_insert m a x none (by simp) h

theorem SMap.rising_filter (m : SMap α) (f : Nat × α → Bool) : ∀ b : Option Nat, SMap.rising b m = true →
    SMap.rising b (m.filter f) = true := by
  induction m with
  | nil => intro b _; cases b <;> rfl
  | cons p m ih =>
    obtain ⟨k, v⟩ := p
    intro b h
    simp only [SMap.rising, Bool.and_eq_true] at h
    rw [List.filter_cons]
    split_ifs
    · simp only [SMap.rising, Bool.and_eq_true]; exact ⟨h.1, ih (some k) h.2⟩
    · refine ih b (SMap.rising_weaken m b k ?_ h.2)
      intro y hy; subst hy; have := h.1; simp at this; omega

theorem SMap.get_filter (d : α) (m : SMap α) (f : Nat → Bool) (a : Nat) (h : SMap.rising none m = true) :
    SMap.get d (m.filter fun p => f p.1) a = if f a then SMap.get d m a else d := by
  induction m with
  | nil => simp [SMap.get]
  | cons p m ih =>
    obtain ⟨k, v⟩ := p
    have hr : SMap.rising (some k) m = true := by simpa [SMap.rising] using h
    have hf : ∀ b, b ≤ k → SMap.get d (m.filter fun p => f p.1) b = d := fun b hb =>
      SMap.get_of_rising d (SMap.rising_filter m _ (some k) hr) hb
    rw [List.filter_cons]
    rcases lt_trichotomy a k with h1 | h1 | h1
    · by_cases hk : f k <;> simp [hk, SMap.get, h1, hf a (by omega)]
    · subst h1; by_cases hk : f a <;> simp [hk, SMap.get, hf a (by omega)]
    · by_cases hk : f k <;> simp [hk, SMap.get, ih (SMap.rising_none hr), show ¬ a < k by omega, show a ≠ k by omega]

theorem SMap.get_clear (d : α) (m : SMap α) (lo hi a : Nat) (h : SMap.rising none m = true) :
    SMap.get d (SMap.clear m lo hi) a = if a < lo ∨ hi ≤ a then SMap.get d m a else d := by
  unfold SMap.clear
  rw [SMap.get_filter d m (fun k => decide (k < lo) || decide (hi ≤ k)) a h]
  simp

/-! ### The canonical form -/

theorem SMap.mem_insert {m : SMap α} {a : Nat} {x : α} {p : Nat × α} (h : p ∈ SMap.insert m a x) :
    p = (a, x) ∨ p ∈ m := by
  induction m with
  | nil => simpa [SMap.insert] using h
  | cons q m ih =>
    obtain ⟨k, v⟩ := q
    simp only [SMap.insert] at h
    split_ifs at h
    · simpa using h
    · simp only [List.mem_cons] at h ⊢; tauto
    · simp only [List.mem_cons] at h ⊢; rcases h with h | h
      · tauto
      · have := ih h; tauto

theorem SMap.mem_erase {m : SMap α} {a : Nat} {p : Nat × α} (h : p ∈ SMap.erase m a) : p ∈ m := by
  induction m with
  | nil => simp [SMap.erase] at h
  | cons q m ih =>
    obtain ⟨k, v⟩ := q
    simp only [SMap.erase] at h
    split_ifs at h
    · exact h
    · exact List.mem_cons_of_mem _ h
    · simp only [List.mem_cons] at h ⊢; rcases h with h | h
      · exact .inl h
      · exact .inr (ih h)

theorem SMap.canon_set [DecidableEq α] (d : α) (m : SMap α) (a : Nat) (x : α) (h : SMap.canon d m = true) :
    SMap.canon d (SMap.set d m a x) = true := by
  unfold SMap.canon at h ⊢
  simp only [Bool.and_eq_true, List.all_eq_true, decide_eq_true_eq] at h ⊢
  refine ⟨SMap.rising_set d m a x h.1, fun p hp => ?_⟩
  unfold SMap.set at hp
  split_ifs at hp with hx
  · exact h.2 p (SMap.mem_erase hp)
  · rcases SMap.mem_insert hp with rfl | hp
    · exact hx
    · exact h.2 p hp

theorem SMap.canon_clear [DecidableEq α] (d : α) (m : SMap α) (lo hi : Nat) (h : SMap.canon d m = true) :
    SMap.canon d (SMap.clear m lo hi) = true := by
  unfold SMap.canon SMap.clear at *
  simp only [Bool.and_eq_true, List.all_eq_true, decide_eq_true_eq] at h ⊢
  exact ⟨SMap.rising_filter m _ none h.1, fun p hp => h.2 p (List.mem_of_mem_filter hp)⟩

theorem SMap.canon_rising [DecidableEq α] {d : α} {m : SMap α} (h : SMap.canon d m = true) :
    SMap.rising none m = true := by
  unfold SMap.canon at h; simp only [Bool.and_eq_true] at h; exact h.1

/-! ### Memory -/

theorem memWrite_wf (l : List Byte) : ∀ (m : List Host.Cell) (a : Nat), Memory.wf m = true →
    Memory.wf (memWrite m a l) = true := by
  induction l with
  | nil => intro m a h; exact h
  | cons b l ih => intro m a h; exact ih _ _ (SMap.canon_set 0 m a b h)

/-- Bytes outside those written read as before, and those written read as given. -/
theorem get_memWrite (l : List Byte) : ∀ (m : List Host.Cell) (a k : Nat), SMap.rising none m = true →
    SMap.get 0 (memWrite m a l) k = if a ≤ k then (l[k - a]?).getD (SMap.get 0 m k) else SMap.get 0 m k := by
  induction l with
  | nil => intro m a k _; simp [memWrite]
  | cons b l ih =>
    intro m a k h
    rw [memWrite, ih _ _ _ (SMap.rising_set 0 m a b h), SMap.get_set 0 m a k b h]
    rcases lt_trichotomy k a with h1 | h1 | h1
    · simp [show ¬ a + 1 ≤ k by omega, show ¬ a ≤ k by omega, show k ≠ a by omega]
    · subst h1; simp
    · obtain ⟨j, rfl⟩ : ∃ j, k = a + 1 + j := ⟨k - a - 1, by omega⟩
      simp [show a + 1 + j - a = j + 1 by omega, show a ≤ a + 1 + j by omega, show a + 1 + j ≠ a by omega]

theorem setByte_wf (s : Dev) (a : Nat) (b : Byte) (h : Memory.wf s.mem = true) :
    Memory.wf (s.setByte a b).mem = true := SMap.canon_set 0 s.mem a b h

theorem wrBytes_wf (s : Dev) (a : Nat) (l : List Byte) (h : Memory.wf s.mem = true) :
    Memory.wf (s.wrBytes a l).mem = true := memWrite_wf l s.mem a h

theorem wrN_wf (s : Dev) (a n v : Nat) (h : Memory.wf s.mem = true) : Memory.wf (s.wrN a n v).mem = true :=
  wrBytes_wf s a _ h

theorem zeroMem_wf (s : Dev) (lo hi : Nat) (h : Memory.wf s.mem = true) : Memory.wf (s.zeroMem lo hi).mem = true :=
  SMap.canon_clear 0 s.mem lo hi h

/-- What a write of bytes does to one byte of the address space. -/
theorem wrBytes_byte (s : Dev) (a k : Nat) (l : List Byte) (h : Memory.wf s.mem = true) (hk : 0x10000 ≤ k) :
    (s.wrBytes a l).byte k = if a ≤ k then (l[k - a]?).getD (s.byte k) else s.byte k := by
  simp only [Dev.byte, show ¬ k < 0x10000 by omega, if_false]
  exact get_memWrite l s.mem a k (SMap.canon_rising h)

/-- What zeroing a range does to one byte of the address space. -/
theorem zeroMem_byte (s : Dev) (lo hi k : Nat) (h : Memory.wf s.mem = true) (hk : 0x10000 ≤ k) :
    (s.zeroMem lo hi).byte k = if k < lo ∨ hi ≤ k then s.byte k else 0 := by
  simp only [Dev.byte, show ¬ k < 0x10000 by omega, if_false]
  exact SMap.get_clear 0 s.mem lo hi k (SMap.canon_rising h)

/-! ### Byte order -/

@[simp] theorem leBytes_length (n : Nat) : ∀ v, (leBytes n v).length = n := by
  induction n with
  | zero => intro _; rfl
  | succ n ih => intro v; simp [leBytes, ih]

theorem leNat_lt (l : List Byte) : leNat l < 256 ^ l.length := by
  induction l with
  | nil => simp [leNat]
  | cons b l ih =>
    have hb := b.isLt
    simp only [leNat, List.length_cons, pow_succ]
    omega

theorem leNat_leBytes (n : Nat) : ∀ v, leNat (leBytes n v) = v % 256 ^ n := by
  induction n with
  | zero => intro v; simp [leBytes, leNat, Nat.mod_one]
  | succ n ih =>
    intro v
    simp only [leBytes, leNat, ih, BitVec.toNat_ofNat]
    rw [pow_succ 256, Nat.mul_comm (256 ^ n), Nat.mod_mul]

theorem leBytes_leNat (l : List Byte) : leBytes l.length (leNat l) = l := by
  induction l with
  | nil => rfl
  | cons b l ih =>
    have hb := b.isLt
    have h1 : (b.toNat + 256 * leNat l) / 256 = leNat l := by omega
    have h2 : BitVec.ofNat 8 (b.toNat + 256 * leNat l) = b := by
      apply BitVec.eq_of_toNat_eq; simp only [BitVec.toNat_ofNat]; omega
    simp only [leNat, List.length_cons, leBytes, h1, h2, ih]

theorem rdBytes_length (s : Dev) (n : Nat) : ∀ a, (s.rdBytes a n).length = n := by
  induction n with
  | zero => intro _; rfl
  | succ n ih => intro a; simp [Dev.rdBytes, ih]

theorem rdBytes_congr (s t : Dev) (n : Nat) : ∀ a, (∀ k, a ≤ k → k < a + n → t.byte k = s.byte k) →
    t.rdBytes a n = s.rdBytes a n := by
  induction n with
  | zero => intro _ _; rfl
  | succ n ih =>
    intro a h
    simp only [Dev.rdBytes]
    rw [h a (by omega) (by omega), ih (a + 1) (fun k h1 h2 => h k (by omega) (by omega))]

/-- Bytes just written read back. -/
theorem rdBytes_wrBytes (s : Dev) (a : Nat) (l : List Byte) (h : Memory.wf s.mem = true) (ha : 0x10000 ≤ a) :
    (s.wrBytes a l).rdBytes a l.length = l := by
  have key : ∀ (n o : Nat), n + o = l.length → (s.wrBytes a l).rdBytes (a + o) n = l.drop o := by
    intro n
    induction n with
    | zero => intro o ho; simp [Dev.rdBytes, List.drop_eq_nil_of_le (show l.length ≤ o by omega)]
    | succ n ih =>
      intro o ho
      have hlt : o < l.length := by omega
      rw [Dev.rdBytes, wrBytes_byte s a _ l h (by omega), show a + o + 1 = a + (o + 1) by omega, ih (o + 1) (by omega)]
      simp only [show a ≤ a + o by omega, if_true, show a + o - a = o by omega, List.getElem?_eq_getElem hlt,
        Option.getD_some]
      exact (List.drop_eq_getElem_cons hlt).symm
  simpa using key l.length 0 (by omega)

/-- A value just written reads back. -/
theorem rdN_wrN (s : Dev) (a n v : Nat) (h : Memory.wf s.mem = true) (ha : 0x10000 ≤ a) :
    (s.wrN a n v).rdN a n = v % 256 ^ n := by
  have := rdBytes_wrBytes s a (leBytes n v) h ha
  rw [leBytes_length] at this
  rw [Dev.rdN, Dev.wrN, this, leNat_leBytes]

end Sys2Proof.Machine
end

