-- ==== Sys2Proof/Laws/State.lean ====
section
/-!
SUPPORT. What each named update changes of the device, a lemma a field, and what the registers and parts read after
it. No later proof unfolds a record update.
-/

namespace Sys2Proof.Machine

/-! ### wr -/

@[simp] theorem Dev.wr_asm (s : Dev) (r : RegDef) (v : Nat) (k i j : Nat) : (s.wr r v k i j).asm = s.asm := rfl
@[simp] theorem Dev.wr_free (s : Dev) (r : RegDef) (v : Nat) (k i j : Nat) : (s.wr r v k i j).free = s.free := rfl
@[simp] theorem Dev.wr_mem (s : Dev) (r : RegDef) (v : Nat) (k i j : Nat) : (s.wr r v k i j).mem = s.mem := rfl
@[simp] theorem Dev.wr_poison (s : Dev) (r : RegDef) (v : Nat) (k i j : Nat) :
    (s.wr r v k i j).poison = s.poison := rfl
@[simp] theorem Dev.wr_ecc (s : Dev) (r : RegDef) (v : Nat) (k i j : Nat) : (s.wr r v k i j).ecc = s.ecc := rfl
@[simp] theorem Dev.wr_bus (s : Dev) (r : RegDef) (v : Nat) (k i j : Nat) : (s.wr r v k i j).bus = s.bus := rfl
@[simp] theorem Dev.wr_isl (s : Dev) (r : RegDef) (v : Nat) (k i j : Nat) : (s.wr r v k i j).isl = s.isl := rfl
@[simp] theorem Dev.wr_ioIsl (s : Dev) (r : RegDef) (v : Nat) (k i j : Nat) : (s.wr r v k i j).ioIsl = s.ioIsl := rfl
@[simp] theorem Dev.wr_pwr (s : Dev) (r : RegDef) (v : Nat) (k i j : Nat) : (s.wr r v k i j).pwr = s.pwr := rfl
@[simp] theorem Dev.wr_ldg (s : Dev) (r : RegDef) (v : Nat) (k i j : Nat) : (s.wr r v k i j).ldg = s.ldg := rfl
@[simp] theorem Dev.wr_die (s : Dev) (r : RegDef) (v : Nat) (k i j : Nat) : (s.wr r v k i j).die = s.die := rfl
@[simp] theorem Dev.wr_core (s : Dev) (r : RegDef) (v : Nat) (k i j : Nat) : (s.wr r v k i j).core = s.core := rfl
@[simp] theorem Dev.wr_gal (s : Dev) (r : RegDef) (v : Nat) (k i j : Nat) : (s.wr r v k i j).gal = s.gal := rfl
@[simp] theorem Dev.wr_hub (s : Dev) (r : RegDef) (v : Nat) (k i j : Nat) : (s.wr r v k i j).hub = s.hub := rfl
@[simp] theorem Dev.wr_time (s : Dev) (r : RegDef) (v : Nat) (k i j : Nat) : (s.wr r v k i j).time = s.time := rfl
@[simp] theorem Dev.wr_tt (s : Dev) (r : RegDef) (v : Nat) (k i j : Nat) : (s.wr r v k i j).tt = s.tt := rfl
@[simp] theorem Dev.wr_rad (s : Dev) (r : RegDef) (v : Nat) (k i j : Nat) : (s.wr r v k i j).rad = s.rad := rfl
@[simp] theorem Dev.wr_wdogWarn (s : Dev) (r : RegDef) (v : Nat) (k i j : Nat) :
    (s.wr r v k i j).wdogWarn = s.wdogWarn := rfl
@[simp] theorem Dev.wr_host (s : Dev) (r : RegDef) (v : Nat) (k i j : Nat) : (s.wr r v k i j).host = s.host := rfl
@[simp] theorem Dev.wr_mtr (s : Dev) (r : RegDef) (v : Nat) (k i j : Nat) : (s.wr r v k i j).mtr = s.mtr := rfl
@[simp] theorem Dev.wr_aco (s : Dev) (r : RegDef) (v : Nat) (k i j : Nat) : (s.wr r v k i j).aco = s.aco := rfl
@[simp] theorem Dev.wr_trk (s : Dev) (r : RegDef) (v : Nat) (k i j : Nat) : (s.wr r v k i j).trk = s.trk := rfl
@[simp] theorem Dev.wr_ser (s : Dev) (r : RegDef) (v : Nat) (k i j : Nat) : (s.wr r v k i j).ser = s.ser := rfl
@[simp] theorem Dev.wr_test (s : Dev) (r : RegDef) (v : Nat) (k i j : Nat) : (s.wr r v k i j).test = s.test := rfl

/-! ### setF -/

@[simp] theorem Dev.setF_asm (s : Dev) (r : RegDef) (hi lo v : Nat) (k i j : Nat) :
    (s.setF r hi lo v k i j).asm = s.asm := rfl
@[simp] theorem Dev.setF_free (s : Dev) (r : RegDef) (hi lo v : Nat) (k i j : Nat) :
    (s.setF r hi lo v k i j).free = s.free := rfl
@[simp] theorem Dev.setF_mem (s : Dev) (r : RegDef) (hi lo v : Nat) (k i j : Nat) :
    (s.setF r hi lo v k i j).mem = s.mem := rfl
@[simp] theorem Dev.setF_poison (s : Dev) (r : RegDef) (hi lo v : Nat) (k i j : Nat) :
    (s.setF r hi lo v k i j).poison = s.poison := rfl
@[simp] theorem Dev.setF_ecc (s : Dev) (r : RegDef) (hi lo v : Nat) (k i j : Nat) :
    (s.setF r hi lo v k i j).ecc = s.ecc := rfl
@[simp] theorem Dev.setF_bus (s : Dev) (r : RegDef) (hi lo v : Nat) (k i j : Nat) :
    (s.setF r hi lo v k i j).bus = s.bus := rfl
@[simp] theorem Dev.setF_isl (s : Dev) (r : RegDef) (hi lo v : Nat) (k i j : Nat) :
    (s.setF r hi lo v k i j).isl = s.isl := rfl
@[simp] theorem Dev.setF_ioIsl (s : Dev) (r : RegDef) (hi lo v : Nat) (k i j : Nat) :
    (s.setF r hi lo v k i j).ioIsl = s.ioIsl := rfl
@[simp] theorem Dev.setF_pwr (s : Dev) (r : RegDef) (hi lo v : Nat) (k i j : Nat) :
    (s.setF r hi lo v k i j).pwr = s.pwr := rfl
@[simp] theorem Dev.setF_ldg (s : Dev) (r : RegDef) (hi lo v : Nat) (k i j : Nat) :
    (s.setF r hi lo v k i j).ldg = s.ldg := rfl
@[simp] theorem Dev.setF_die (s : Dev) (r : RegDef) (hi lo v : Nat) (k i j : Nat) :
    (s.setF r hi lo v k i j).die = s.die := rfl
@[simp] theorem Dev.setF_core (s : Dev) (r : RegDef) (hi lo v : Nat) (k i j : Nat) :
    (s.setF r hi lo v k i j).core = s.core := rfl
@[simp] theorem Dev.setF_gal (s : Dev) (r : RegDef) (hi lo v : Nat) (k i j : Nat) :
    (s.setF r hi lo v k i j).gal = s.gal := rfl
@[simp] theorem Dev.setF_hub (s : Dev) (r : RegDef) (hi lo v : Nat) (k i j : Nat) :
    (s.setF r hi lo v k i j).hub = s.hub := rfl
@[simp] theorem Dev.setF_time (s : Dev) (r : RegDef) (hi lo v : Nat) (k i j : Nat) :
    (s.setF r hi lo v k i j).time = s.time := rfl
@[simp] theorem Dev.setF_tt (s : Dev) (r : RegDef) (hi lo v : Nat) (k i j : Nat) :
    (s.setF r hi lo v k i j).tt = s.tt := rfl
@[simp] theorem Dev.setF_rad (s : Dev) (r : RegDef) (hi lo v : Nat) (k i j : Nat) :
    (s.setF r hi lo v k i j).rad = s.rad := rfl
@[simp] theorem Dev.setF_wdogWarn (s : Dev) (r : RegDef) (hi lo v : Nat) (k i j : Nat) :
    (s.setF r hi lo v k i j).wdogWarn = s.wdogWarn := rfl
@[simp] theorem Dev.setF_host (s : Dev) (r : RegDef) (hi lo v : Nat) (k i j : Nat) :
    (s.setF r hi lo v k i j).host = s.host := rfl
@[simp] theorem Dev.setF_mtr (s : Dev) (r : RegDef) (hi lo v : Nat) (k i j : Nat) :
    (s.setF r hi lo v k i j).mtr = s.mtr := rfl
@[simp] theorem Dev.setF_aco (s : Dev) (r : RegDef) (hi lo v : Nat) (k i j : Nat) :
    (s.setF r hi lo v k i j).aco = s.aco := rfl
@[simp] theorem Dev.setF_trk (s : Dev) (r : RegDef) (hi lo v : Nat) (k i j : Nat) :
    (s.setF r hi lo v k i j).trk = s.trk := rfl
@[simp] theorem Dev.setF_ser (s : Dev) (r : RegDef) (hi lo v : Nat) (k i j : Nat) :
    (s.setF r hi lo v k i j).ser = s.ser := rfl
@[simp] theorem Dev.setF_test (s : Dev) (r : RegDef) (hi lo v : Nat) (k i j : Nat) :
    (s.setF r hi lo v k i j).test = s.test := rfl

/-! ### setB -/

@[simp] theorem Dev.setB_asm (s : Dev) (r : RegDef) (n : Nat) (v : Bool) (k i j : Nat) :
    (s.setB r n v k i j).asm = s.asm := rfl
@[simp] theorem Dev.setB_free (s : Dev) (r : RegDef) (n : Nat) (v : Bool) (k i j : Nat) :
    (s.setB r n v k i j).free = s.free := rfl
@[simp] theorem Dev.setB_mem (s : Dev) (r : RegDef) (n : Nat) (v : Bool) (k i j : Nat) :
    (s.setB r n v k i j).mem = s.mem := rfl
@[simp] theorem Dev.setB_poison (s : Dev) (r : RegDef) (n : Nat) (v : Bool) (k i j : Nat) :
    (s.setB r n v k i j).poison = s.poison := rfl
@[simp] theorem Dev.setB_ecc (s : Dev) (r : RegDef) (n : Nat) (v : Bool) (k i j : Nat) :
    (s.setB r n v k i j).ecc = s.ecc := rfl
@[simp] theorem Dev.setB_bus (s : Dev) (r : RegDef) (n : Nat) (v : Bool) (k i j : Nat) :
    (s.setB r n v k i j).bus = s.bus := rfl
@[simp] theorem Dev.setB_isl (s : Dev) (r : RegDef) (n : Nat) (v : Bool) (k i j : Nat) :
    (s.setB r n v k i j).isl = s.isl := rfl
@[simp] theorem Dev.setB_ioIsl (s : Dev) (r : RegDef) (n : Nat) (v : Bool) (k i j : Nat) :
    (s.setB r n v k i j).ioIsl = s.ioIsl := rfl
@[simp] theorem Dev.setB_pwr (s : Dev) (r : RegDef) (n : Nat) (v : Bool) (k i j : Nat) :
    (s.setB r n v k i j).pwr = s.pwr := rfl
@[simp] theorem Dev.setB_ldg (s : Dev) (r : RegDef) (n : Nat) (v : Bool) (k i j : Nat) :
    (s.setB r n v k i j).ldg = s.ldg := rfl
@[simp] theorem Dev.setB_die (s : Dev) (r : RegDef) (n : Nat) (v : Bool) (k i j : Nat) :
    (s.setB r n v k i j).die = s.die := rfl
@[simp] theorem Dev.setB_core (s : Dev) (r : RegDef) (n : Nat) (v : Bool) (k i j : Nat) :
    (s.setB r n v k i j).core = s.core := rfl
@[simp] theorem Dev.setB_gal (s : Dev) (r : RegDef) (n : Nat) (v : Bool) (k i j : Nat) :
    (s.setB r n v k i j).gal = s.gal := rfl
@[simp] theorem Dev.setB_hub (s : Dev) (r : RegDef) (n : Nat) (v : Bool) (k i j : Nat) :
    (s.setB r n v k i j).hub = s.hub := rfl
@[simp] theorem Dev.setB_time (s : Dev) (r : RegDef) (n : Nat) (v : Bool) (k i j : Nat) :
    (s.setB r n v k i j).time = s.time := rfl
@[simp] theorem Dev.setB_tt (s : Dev) (r : RegDef) (n : Nat) (v : Bool) (k i j : Nat) :
    (s.setB r n v k i j).tt = s.tt := rfl
@[simp] theorem Dev.setB_rad (s : Dev) (r : RegDef) (n : Nat) (v : Bool) (k i j : Nat) :
    (s.setB r n v k i j).rad = s.rad := rfl
@[simp] theorem Dev.setB_wdogWarn (s : Dev) (r : RegDef) (n : Nat) (v : Bool) (k i j : Nat) :
    (s.setB r n v k i j).wdogWarn = s.wdogWarn := rfl
@[simp] theorem Dev.setB_host (s : Dev) (r : RegDef) (n : Nat) (v : Bool) (k i j : Nat) :
    (s.setB r n v k i j).host = s.host := rfl
@[simp] theorem Dev.setB_mtr (s : Dev) (r : RegDef) (n : Nat) (v : Bool) (k i j : Nat) :
    (s.setB r n v k i j).mtr = s.mtr := rfl
@[simp] theorem Dev.setB_aco (s : Dev) (r : RegDef) (n : Nat) (v : Bool) (k i j : Nat) :
    (s.setB r n v k i j).aco = s.aco := rfl
@[simp] theorem Dev.setB_trk (s : Dev) (r : RegDef) (n : Nat) (v : Bool) (k i j : Nat) :
    (s.setB r n v k i j).trk = s.trk := rfl
@[simp] theorem Dev.setB_ser (s : Dev) (r : RegDef) (n : Nat) (v : Bool) (k i j : Nat) :
    (s.setB r n v k i j).ser = s.ser := rfl
@[simp] theorem Dev.setB_test (s : Dev) (r : RegDef) (n : Nat) (v : Bool) (k i j : Nat) :
    (s.setB r n v k i j).test = s.test := rfl

/-! ### orR -/

@[simp] theorem Dev.orR_asm (s : Dev) (r : RegDef) (m : Nat) (k i j : Nat) : (s.orR r m k i j).asm = s.asm := rfl
@[simp] theorem Dev.orR_free (s : Dev) (r : RegDef) (m : Nat) (k i j : Nat) : (s.orR r m k i j).free = s.free := rfl
@[simp] theorem Dev.orR_mem (s : Dev) (r : RegDef) (m : Nat) (k i j : Nat) : (s.orR r m k i j).mem = s.mem := rfl
@[simp] theorem Dev.orR_poison (s : Dev) (r : RegDef) (m : Nat) (k i j : Nat) :
    (s.orR r m k i j).poison = s.poison := rfl
@[simp] theorem Dev.orR_ecc (s : Dev) (r : RegDef) (m : Nat) (k i j : Nat) : (s.orR r m k i j).ecc = s.ecc := rfl
@[simp] theorem Dev.orR_bus (s : Dev) (r : RegDef) (m : Nat) (k i j : Nat) : (s.orR r m k i j).bus = s.bus := rfl
@[simp] theorem Dev.orR_isl (s : Dev) (r : RegDef) (m : Nat) (k i j : Nat) : (s.orR r m k i j).isl = s.isl := rfl
@[simp] theorem Dev.orR_ioIsl (s : Dev) (r : RegDef) (m : Nat) (k i j : Nat) :
    (s.orR r m k i j).ioIsl = s.ioIsl := rfl
@[simp] theorem Dev.orR_pwr (s : Dev) (r : RegDef) (m : Nat) (k i j : Nat) : (s.orR r m k i j).pwr = s.pwr := rfl
@[simp] theorem Dev.orR_ldg (s : Dev) (r : RegDef) (m : Nat) (k i j : Nat) : (s.orR r m k i j).ldg = s.ldg := rfl
@[simp] theorem Dev.orR_die (s : Dev) (r : RegDef) (m : Nat) (k i j : Nat) : (s.orR r m k i j).die = s.die := rfl
@[simp] theorem Dev.orR_core (s : Dev) (r : RegDef) (m : Nat) (k i j : Nat) : (s.orR r m k i j).core = s.core := rfl
@[simp] theorem Dev.orR_gal (s : Dev) (r : RegDef) (m : Nat) (k i j : Nat) : (s.orR r m k i j).gal = s.gal := rfl
@[simp] theorem Dev.orR_hub (s : Dev) (r : RegDef) (m : Nat) (k i j : Nat) : (s.orR r m k i j).hub = s.hub := rfl
@[simp] theorem Dev.orR_time (s : Dev) (r : RegDef) (m : Nat) (k i j : Nat) : (s.orR r m k i j).time = s.time := rfl
@[simp] theorem Dev.orR_tt (s : Dev) (r : RegDef) (m : Nat) (k i j : Nat) : (s.orR r m k i j).tt = s.tt := rfl
@[simp] theorem Dev.orR_rad (s : Dev) (r : RegDef) (m : Nat) (k i j : Nat) : (s.orR r m k i j).rad = s.rad := rfl
@[simp] theorem Dev.orR_wdogWarn (s : Dev) (r : RegDef) (m : Nat) (k i j : Nat) :
    (s.orR r m k i j).wdogWarn = s.wdogWarn := rfl
@[simp] theorem Dev.orR_host (s : Dev) (r : RegDef) (m : Nat) (k i j : Nat) : (s.orR r m k i j).host = s.host := rfl
@[simp] theorem Dev.orR_mtr (s : Dev) (r : RegDef) (m : Nat) (k i j : Nat) : (s.orR r m k i j).mtr = s.mtr := rfl
@[simp] theorem Dev.orR_aco (s : Dev) (r : RegDef) (m : Nat) (k i j : Nat) : (s.orR r m k i j).aco = s.aco := rfl
@[simp] theorem Dev.orR_trk (s : Dev) (r : RegDef) (m : Nat) (k i j : Nat) : (s.orR r m k i j).trk = s.trk := rfl
@[simp] theorem Dev.orR_ser (s : Dev) (r : RegDef) (m : Nat) (k i j : Nat) : (s.orR r m k i j).ser = s.ser := rfl
@[simp] theorem Dev.orR_test (s : Dev) (r : RegDef) (m : Nat) (k i j : Nat) : (s.orR r m k i j).test = s.test := rfl

/-! ### count -/

@[simp] theorem Dev.count_asm (s : Dev) (r : RegDef) (n : Nat) (k i j : Nat) : (s.count r n k i j).asm = s.asm := rfl
@[simp] theorem Dev.count_free (s : Dev) (r : RegDef) (n : Nat) (k i j : Nat) :
    (s.count r n k i j).free = s.free := rfl
@[simp] theorem Dev.count_mem (s : Dev) (r : RegDef) (n : Nat) (k i j : Nat) : (s.count r n k i j).mem = s.mem := rfl
@[simp] theorem Dev.count_poison (s : Dev) (r : RegDef) (n : Nat) (k i j : Nat) :
    (s.count r n k i j).poison = s.poison := rfl
@[simp] theorem Dev.count_ecc (s : Dev) (r : RegDef) (n : Nat) (k i j : Nat) : (s.count r n k i j).ecc = s.ecc := rfl
@[simp] theorem Dev.count_bus (s : Dev) (r : RegDef) (n : Nat) (k i j : Nat) : (s.count r n k i j).bus = s.bus := rfl
@[simp] theorem Dev.count_isl (s : Dev) (r : RegDef) (n : Nat) (k i j : Nat) : (s.count r n k i j).isl = s.isl := rfl
@[simp] theorem Dev.count_ioIsl (s : Dev) (r : RegDef) (n : Nat) (k i j : Nat) :
    (s.count r n k i j).ioIsl = s.ioIsl := rfl
@[simp] theorem Dev.count_pwr (s : Dev) (r : RegDef) (n : Nat) (k i j : Nat) : (s.count r n k i j).pwr = s.pwr := rfl
@[simp] theorem Dev.count_ldg (s : Dev) (r : RegDef) (n : Nat) (k i j : Nat) : (s.count r n k i j).ldg = s.ldg := rfl
@[simp] theorem Dev.count_die (s : Dev) (r : RegDef) (n : Nat) (k i j : Nat) : (s.count r n k i j).die = s.die := rfl
@[simp] theorem Dev.count_core (s : Dev) (r : RegDef) (n : Nat) (k i j : Nat) :
    (s.count r n k i j).core = s.core := rfl
@[simp] theorem Dev.count_gal (s : Dev) (r : RegDef) (n : Nat) (k i j : Nat) : (s.count r n k i j).gal = s.gal := rfl
@[simp] theorem Dev.count_hub (s : Dev) (r : RegDef) (n : Nat) (k i j : Nat) : (s.count r n k i j).hub = s.hub := rfl
@[simp] theorem Dev.count_time (s : Dev) (r : RegDef) (n : Nat) (k i j : Nat) :
    (s.count r n k i j).time = s.time := rfl
@[simp] theorem Dev.count_tt (s : Dev) (r : RegDef) (n : Nat) (k i j : Nat) : (s.count r n k i j).tt = s.tt := rfl
@[simp] theorem Dev.count_rad (s : Dev) (r : RegDef) (n : Nat) (k i j : Nat) : (s.count r n k i j).rad = s.rad := rfl
@[simp] theorem Dev.count_wdogWarn (s : Dev) (r : RegDef) (n : Nat) (k i j : Nat) :
    (s.count r n k i j).wdogWarn = s.wdogWarn := rfl
@[simp] theorem Dev.count_host (s : Dev) (r : RegDef) (n : Nat) (k i j : Nat) :
    (s.count r n k i j).host = s.host := rfl
@[simp] theorem Dev.count_mtr (s : Dev) (r : RegDef) (n : Nat) (k i j : Nat) : (s.count r n k i j).mtr = s.mtr := rfl
@[simp] theorem Dev.count_aco (s : Dev) (r : RegDef) (n : Nat) (k i j : Nat) : (s.count r n k i j).aco = s.aco := rfl
@[simp] theorem Dev.count_trk (s : Dev) (r : RegDef) (n : Nat) (k i j : Nat) : (s.count r n k i j).trk = s.trk := rfl
@[simp] theorem Dev.count_ser (s : Dev) (r : RegDef) (n : Nat) (k i j : Nat) : (s.count r n k i j).ser = s.ser := rfl
@[simp] theorem Dev.count_test (s : Dev) (r : RegDef) (n : Nat) (k i j : Nat) :
    (s.count r n k i j).test = s.test := rfl

/-! ### plainWrite -/

@[simp] theorem Dev.plainWrite_asm (s : Dev) (r : RegDef) (v : Nat) (k i j : Nat) :
    (s.plainWrite r v k i j).asm = s.asm := rfl
@[simp] theorem Dev.plainWrite_free (s : Dev) (r : RegDef) (v : Nat) (k i j : Nat) :
    (s.plainWrite r v k i j).free = s.free := rfl
@[simp] theorem Dev.plainWrite_mem (s : Dev) (r : RegDef) (v : Nat) (k i j : Nat) :
    (s.plainWrite r v k i j).mem = s.mem := rfl
@[simp] theorem Dev.plainWrite_poison (s : Dev) (r : RegDef) (v : Nat) (k i j : Nat) :
    (s.plainWrite r v k i j).poison = s.poison := rfl
@[simp] theorem Dev.plainWrite_ecc (s : Dev) (r : RegDef) (v : Nat) (k i j : Nat) :
    (s.plainWrite r v k i j).ecc = s.ecc := rfl
@[simp] theorem Dev.plainWrite_bus (s : Dev) (r : RegDef) (v : Nat) (k i j : Nat) :
    (s.plainWrite r v k i j).bus = s.bus := rfl
@[simp] theorem Dev.plainWrite_isl (s : Dev) (r : RegDef) (v : Nat) (k i j : Nat) :
    (s.plainWrite r v k i j).isl = s.isl := rfl
@[simp] theorem Dev.plainWrite_ioIsl (s : Dev) (r : RegDef) (v : Nat) (k i j : Nat) :
    (s.plainWrite r v k i j).ioIsl = s.ioIsl := rfl
@[simp] theorem Dev.plainWrite_pwr (s : Dev) (r : RegDef) (v : Nat) (k i j : Nat) :
    (s.plainWrite r v k i j).pwr = s.pwr := rfl
@[simp] theorem Dev.plainWrite_ldg (s : Dev) (r : RegDef) (v : Nat) (k i j : Nat) :
    (s.plainWrite r v k i j).ldg = s.ldg := rfl
@[simp] theorem Dev.plainWrite_die (s : Dev) (r : RegDef) (v : Nat) (k i j : Nat) :
    (s.plainWrite r v k i j).die = s.die := rfl
@[simp] theorem Dev.plainWrite_core (s : Dev) (r : RegDef) (v : Nat) (k i j : Nat) :
    (s.plainWrite r v k i j).core = s.core := rfl
@[simp] theorem Dev.plainWrite_gal (s : Dev) (r : RegDef) (v : Nat) (k i j : Nat) :
    (s.plainWrite r v k i j).gal = s.gal := rfl
@[simp] theorem Dev.plainWrite_hub (s : Dev) (r : RegDef) (v : Nat) (k i j : Nat) :
    (s.plainWrite r v k i j).hub = s.hub := rfl
@[simp] theorem Dev.plainWrite_time (s : Dev) (r : RegDef) (v : Nat) (k i j : Nat) :
    (s.plainWrite r v k i j).time = s.time := rfl
@[simp] theorem Dev.plainWrite_tt (s : Dev) (r : RegDef) (v : Nat) (k i j : Nat) :
    (s.plainWrite r v k i j).tt = s.tt := rfl
@[simp] theorem Dev.plainWrite_rad (s : Dev) (r : RegDef) (v : Nat) (k i j : Nat) :
    (s.plainWrite r v k i j).rad = s.rad := rfl
@[simp] theorem Dev.plainWrite_wdogWarn (s : Dev) (r : RegDef) (v : Nat) (k i j : Nat) :
    (s.plainWrite r v k i j).wdogWarn = s.wdogWarn := rfl
@[simp] theorem Dev.plainWrite_host (s : Dev) (r : RegDef) (v : Nat) (k i j : Nat) :
    (s.plainWrite r v k i j).host = s.host := rfl
@[simp] theorem Dev.plainWrite_mtr (s : Dev) (r : RegDef) (v : Nat) (k i j : Nat) :
    (s.plainWrite r v k i j).mtr = s.mtr := rfl
@[simp] theorem Dev.plainWrite_aco (s : Dev) (r : RegDef) (v : Nat) (k i j : Nat) :
    (s.plainWrite r v k i j).aco = s.aco := rfl
@[simp] theorem Dev.plainWrite_trk (s : Dev) (r : RegDef) (v : Nat) (k i j : Nat) :
    (s.plainWrite r v k i j).trk = s.trk := rfl
@[simp] theorem Dev.plainWrite_ser (s : Dev) (r : RegDef) (v : Nat) (k i j : Nat) :
    (s.plainWrite r v k i j).ser = s.ser := rfl
@[simp] theorem Dev.plainWrite_test (s : Dev) (r : RegDef) (v : Nat) (k i j : Nat) :
    (s.plainWrite r v k i j).test = s.test := rfl

/-! ### rstR -/

@[simp] theorem Dev.rstR_asm (s : Dev) (r : RegDef) (k i j : Nat) : (s.rstR r k i j).asm = s.asm := rfl
@[simp] theorem Dev.rstR_free (s : Dev) (r : RegDef) (k i j : Nat) : (s.rstR r k i j).free = s.free := rfl
@[simp] theorem Dev.rstR_mem (s : Dev) (r : RegDef) (k i j : Nat) : (s.rstR r k i j).mem = s.mem := rfl
@[simp] theorem Dev.rstR_poison (s : Dev) (r : RegDef) (k i j : Nat) : (s.rstR r k i j).poison = s.poison := rfl
@[simp] theorem Dev.rstR_ecc (s : Dev) (r : RegDef) (k i j : Nat) : (s.rstR r k i j).ecc = s.ecc := rfl
@[simp] theorem Dev.rstR_bus (s : Dev) (r : RegDef) (k i j : Nat) : (s.rstR r k i j).bus = s.bus := rfl
@[simp] theorem Dev.rstR_isl (s : Dev) (r : RegDef) (k i j : Nat) : (s.rstR r k i j).isl = s.isl := rfl
@[simp] theorem Dev.rstR_ioIsl (s : Dev) (r : RegDef) (k i j : Nat) : (s.rstR r k i j).ioIsl = s.ioIsl := rfl
@[simp] theorem Dev.rstR_pwr (s : Dev) (r : RegDef) (k i j : Nat) : (s.rstR r k i j).pwr = s.pwr := rfl
@[simp] theorem Dev.rstR_ldg (s : Dev) (r : RegDef) (k i j : Nat) : (s.rstR r k i j).ldg = s.ldg := rfl
@[simp] theorem Dev.rstR_die (s : Dev) (r : RegDef) (k i j : Nat) : (s.rstR r k i j).die = s.die := rfl
@[simp] theorem Dev.rstR_core (s : Dev) (r : RegDef) (k i j : Nat) : (s.rstR r k i j).core = s.core := rfl
@[simp] theorem Dev.rstR_gal (s : Dev) (r : RegDef) (k i j : Nat) : (s.rstR r k i j).gal = s.gal := rfl
@[simp] theorem Dev.rstR_hub (s : Dev) (r : RegDef) (k i j : Nat) : (s.rstR r k i j).hub = s.hub := rfl
@[simp] theorem Dev.rstR_time (s : Dev) (r : RegDef) (k i j : Nat) : (s.rstR r k i j).time = s.time := rfl
@[simp] theorem Dev.rstR_tt (s : Dev) (r : RegDef) (k i j : Nat) : (s.rstR r k i j).tt = s.tt := rfl
@[simp] theorem Dev.rstR_rad (s : Dev) (r : RegDef) (k i j : Nat) : (s.rstR r k i j).rad = s.rad := rfl
@[simp] theorem Dev.rstR_wdogWarn (s : Dev) (r : RegDef) (k i j : Nat) : (s.rstR r k i j).wdogWarn = s.wdogWarn := rfl
@[simp] theorem Dev.rstR_host (s : Dev) (r : RegDef) (k i j : Nat) : (s.rstR r k i j).host = s.host := rfl
@[simp] theorem Dev.rstR_mtr (s : Dev) (r : RegDef) (k i j : Nat) : (s.rstR r k i j).mtr = s.mtr := rfl
@[simp] theorem Dev.rstR_aco (s : Dev) (r : RegDef) (k i j : Nat) : (s.rstR r k i j).aco = s.aco := rfl
@[simp] theorem Dev.rstR_trk (s : Dev) (r : RegDef) (k i j : Nat) : (s.rstR r k i j).trk = s.trk := rfl
@[simp] theorem Dev.rstR_ser (s : Dev) (r : RegDef) (k i j : Nat) : (s.rstR r k i j).ser = s.ser := rfl
@[simp] theorem Dev.rstR_test (s : Dev) (r : RegDef) (k i j : Nat) : (s.rstR r k i j).test = s.test := rfl

/-! ### rstRange -/

@[simp] theorem Dev.rstRange_asm (s : Dev) (lo hi : Nat) : (s.rstRange lo hi).asm = s.asm := rfl
@[simp] theorem Dev.rstRange_free (s : Dev) (lo hi : Nat) : (s.rstRange lo hi).free = s.free := rfl
@[simp] theorem Dev.rstRange_mem (s : Dev) (lo hi : Nat) : (s.rstRange lo hi).mem = s.mem := rfl
@[simp] theorem Dev.rstRange_poison (s : Dev) (lo hi : Nat) : (s.rstRange lo hi).poison = s.poison := rfl
@[simp] theorem Dev.rstRange_ecc (s : Dev) (lo hi : Nat) : (s.rstRange lo hi).ecc = s.ecc := rfl
@[simp] theorem Dev.rstRange_bus (s : Dev) (lo hi : Nat) : (s.rstRange lo hi).bus = s.bus := rfl
@[simp] theorem Dev.rstRange_isl (s : Dev) (lo hi : Nat) : (s.rstRange lo hi).isl = s.isl := rfl
@[simp] theorem Dev.rstRange_ioIsl (s : Dev) (lo hi : Nat) : (s.rstRange lo hi).ioIsl = s.ioIsl := rfl
@[simp] theorem Dev.rstRange_pwr (s : Dev) (lo hi : Nat) : (s.rstRange lo hi).pwr = s.pwr := rfl
@[simp] theorem Dev.rstRange_ldg (s : Dev) (lo hi : Nat) : (s.rstRange lo hi).ldg = s.ldg := rfl
@[simp] theorem Dev.rstRange_die (s : Dev) (lo hi : Nat) : (s.rstRange lo hi).die = s.die := rfl
@[simp] theorem Dev.rstRange_core (s : Dev) (lo hi : Nat) : (s.rstRange lo hi).core = s.core := rfl
@[simp] theorem Dev.rstRange_gal (s : Dev) (lo hi : Nat) : (s.rstRange lo hi).gal = s.gal := rfl
@[simp] theorem Dev.rstRange_hub (s : Dev) (lo hi : Nat) : (s.rstRange lo hi).hub = s.hub := rfl
@[simp] theorem Dev.rstRange_time (s : Dev) (lo hi : Nat) : (s.rstRange lo hi).time = s.time := rfl
@[simp] theorem Dev.rstRange_tt (s : Dev) (lo hi : Nat) : (s.rstRange lo hi).tt = s.tt := rfl
@[simp] theorem Dev.rstRange_rad (s : Dev) (lo hi : Nat) : (s.rstRange lo hi).rad = s.rad := rfl
@[simp] theorem Dev.rstRange_wdogWarn (s : Dev) (lo hi : Nat) : (s.rstRange lo hi).wdogWarn = s.wdogWarn := rfl
@[simp] theorem Dev.rstRange_host (s : Dev) (lo hi : Nat) : (s.rstRange lo hi).host = s.host := rfl
@[simp] theorem Dev.rstRange_mtr (s : Dev) (lo hi : Nat) : (s.rstRange lo hi).mtr = s.mtr := rfl
@[simp] theorem Dev.rstRange_aco (s : Dev) (lo hi : Nat) : (s.rstRange lo hi).aco = s.aco := rfl
@[simp] theorem Dev.rstRange_trk (s : Dev) (lo hi : Nat) : (s.rstRange lo hi).trk = s.trk := rfl
@[simp] theorem Dev.rstRange_ser (s : Dev) (lo hi : Nat) : (s.rstRange lo hi).ser = s.ser := rfl
@[simp] theorem Dev.rstRange_test (s : Dev) (lo hi : Nat) : (s.rstRange lo hi).test = s.test := rfl

/-! ### setByte -/

@[simp] theorem Dev.setByte_asm (s : Dev) (a : Nat) (x : Byte) : (s.setByte a x).asm = s.asm := rfl
@[simp] theorem Dev.setByte_free (s : Dev) (a : Nat) (x : Byte) : (s.setByte a x).free = s.free := rfl
@[simp] theorem Dev.setByte_regs (s : Dev) (a : Nat) (x : Byte) : (s.setByte a x).regs = s.regs := rfl
@[simp] theorem Dev.setByte_poison (s : Dev) (a : Nat) (x : Byte) : (s.setByte a x).poison = s.poison := rfl
@[simp] theorem Dev.setByte_ecc (s : Dev) (a : Nat) (x : Byte) : (s.setByte a x).ecc = s.ecc := rfl
@[simp] theorem Dev.setByte_bus (s : Dev) (a : Nat) (x : Byte) : (s.setByte a x).bus = s.bus := rfl
@[simp] theorem Dev.setByte_isl (s : Dev) (a : Nat) (x : Byte) : (s.setByte a x).isl = s.isl := rfl
@[simp] theorem Dev.setByte_ioIsl (s : Dev) (a : Nat) (x : Byte) : (s.setByte a x).ioIsl = s.ioIsl := rfl
@[simp] theorem Dev.setByte_pwr (s : Dev) (a : Nat) (x : Byte) : (s.setByte a x).pwr = s.pwr := rfl
@[simp] theorem Dev.setByte_ldg (s : Dev) (a : Nat) (x : Byte) : (s.setByte a x).ldg = s.ldg := rfl
@[simp] theorem Dev.setByte_die (s : Dev) (a : Nat) (x : Byte) : (s.setByte a x).die = s.die := rfl
@[simp] theorem Dev.setByte_core (s : Dev) (a : Nat) (x : Byte) : (s.setByte a x).core = s.core := rfl
@[simp] theorem Dev.setByte_gal (s : Dev) (a : Nat) (x : Byte) : (s.setByte a x).gal = s.gal := rfl
@[simp] theorem Dev.setByte_hub (s : Dev) (a : Nat) (x : Byte) : (s.setByte a x).hub = s.hub := rfl
@[simp] theorem Dev.setByte_time (s : Dev) (a : Nat) (x : Byte) : (s.setByte a x).time = s.time := rfl
@[simp] theorem Dev.setByte_tt (s : Dev) (a : Nat) (x : Byte) : (s.setByte a x).tt = s.tt := rfl
@[simp] theorem Dev.setByte_rad (s : Dev) (a : Nat) (x : Byte) : (s.setByte a x).rad = s.rad := rfl
@[simp] theorem Dev.setByte_wdogWarn (s : Dev) (a : Nat) (x : Byte) : (s.setByte a x).wdogWarn = s.wdogWarn := rfl
@[simp] theorem Dev.setByte_host (s : Dev) (a : Nat) (x : Byte) : (s.setByte a x).host = s.host := rfl
@[simp] theorem Dev.setByte_mtr (s : Dev) (a : Nat) (x : Byte) : (s.setByte a x).mtr = s.mtr := rfl
@[simp] theorem Dev.setByte_aco (s : Dev) (a : Nat) (x : Byte) : (s.setByte a x).aco = s.aco := rfl
@[simp] theorem Dev.setByte_trk (s : Dev) (a : Nat) (x : Byte) : (s.setByte a x).trk = s.trk := rfl
@[simp] theorem Dev.setByte_ser (s : Dev) (a : Nat) (x : Byte) : (s.setByte a x).ser = s.ser := rfl
@[simp] theorem Dev.setByte_test (s : Dev) (a : Nat) (x : Byte) : (s.setByte a x).test = s.test := rfl

/-! ### wrBytes -/

@[simp] theorem Dev.wrBytes_asm (s : Dev) (a : Nat) (l : List Byte) : (s.wrBytes a l).asm = s.asm := rfl
@[simp] theorem Dev.wrBytes_free (s : Dev) (a : Nat) (l : List Byte) : (s.wrBytes a l).free = s.free := rfl
@[simp] theorem Dev.wrBytes_regs (s : Dev) (a : Nat) (l : List Byte) : (s.wrBytes a l).regs = s.regs := rfl
@[simp] theorem Dev.wrBytes_bus (s : Dev) (a : Nat) (l : List Byte) : (s.wrBytes a l).bus = s.bus := rfl
@[simp] theorem Dev.wrBytes_isl (s : Dev) (a : Nat) (l : List Byte) : (s.wrBytes a l).isl = s.isl := rfl
@[simp] theorem Dev.wrBytes_ioIsl (s : Dev) (a : Nat) (l : List Byte) : (s.wrBytes a l).ioIsl = s.ioIsl := rfl
@[simp] theorem Dev.wrBytes_pwr (s : Dev) (a : Nat) (l : List Byte) : (s.wrBytes a l).pwr = s.pwr := rfl
@[simp] theorem Dev.wrBytes_ldg (s : Dev) (a : Nat) (l : List Byte) : (s.wrBytes a l).ldg = s.ldg := rfl
@[simp] theorem Dev.wrBytes_die (s : Dev) (a : Nat) (l : List Byte) : (s.wrBytes a l).die = s.die := rfl
@[simp] theorem Dev.wrBytes_core (s : Dev) (a : Nat) (l : List Byte) : (s.wrBytes a l).core = s.core := rfl
@[simp] theorem Dev.wrBytes_gal (s : Dev) (a : Nat) (l : List Byte) : (s.wrBytes a l).gal = s.gal := rfl
@[simp] theorem Dev.wrBytes_hub (s : Dev) (a : Nat) (l : List Byte) : (s.wrBytes a l).hub = s.hub := rfl
@[simp] theorem Dev.wrBytes_time (s : Dev) (a : Nat) (l : List Byte) : (s.wrBytes a l).time = s.time := rfl
@[simp] theorem Dev.wrBytes_tt (s : Dev) (a : Nat) (l : List Byte) : (s.wrBytes a l).tt = s.tt := rfl
@[simp] theorem Dev.wrBytes_rad (s : Dev) (a : Nat) (l : List Byte) : (s.wrBytes a l).rad = s.rad := rfl
@[simp] theorem Dev.wrBytes_wdogWarn (s : Dev) (a : Nat) (l : List Byte) :
    (s.wrBytes a l).wdogWarn = s.wdogWarn := rfl
@[simp] theorem Dev.wrBytes_host (s : Dev) (a : Nat) (l : List Byte) : (s.wrBytes a l).host = s.host := rfl
@[simp] theorem Dev.wrBytes_mtr (s : Dev) (a : Nat) (l : List Byte) : (s.wrBytes a l).mtr = s.mtr := rfl
@[simp] theorem Dev.wrBytes_aco (s : Dev) (a : Nat) (l : List Byte) : (s.wrBytes a l).aco = s.aco := rfl
@[simp] theorem Dev.wrBytes_trk (s : Dev) (a : Nat) (l : List Byte) : (s.wrBytes a l).trk = s.trk := rfl
@[simp] theorem Dev.wrBytes_ser (s : Dev) (a : Nat) (l : List Byte) : (s.wrBytes a l).ser = s.ser := rfl
@[simp] theorem Dev.wrBytes_test (s : Dev) (a : Nat) (l : List Byte) : (s.wrBytes a l).test = s.test := rfl

/-! ### wrN -/

@[simp] theorem Dev.wrN_asm (s : Dev) (a n v : Nat) : (s.wrN a n v).asm = s.asm := rfl
@[simp] theorem Dev.wrN_free (s : Dev) (a n v : Nat) : (s.wrN a n v).free = s.free := rfl
@[simp] theorem Dev.wrN_regs (s : Dev) (a n v : Nat) : (s.wrN a n v).regs = s.regs := rfl
@[simp] theorem Dev.wrN_bus (s : Dev) (a n v : Nat) : (s.wrN a n v).bus = s.bus := rfl
@[simp] theorem Dev.wrN_isl (s : Dev) (a n v : Nat) : (s.wrN a n v).isl = s.isl := rfl
@[simp] theorem Dev.wrN_ioIsl (s : Dev) (a n v : Nat) : (s.wrN a n v).ioIsl = s.ioIsl := rfl
@[simp] theorem Dev.wrN_pwr (s : Dev) (a n v : Nat) : (s.wrN a n v).pwr = s.pwr := rfl
@[simp] theorem Dev.wrN_ldg (s : Dev) (a n v : Nat) : (s.wrN a n v).ldg = s.ldg := rfl
@[simp] theorem Dev.wrN_die (s : Dev) (a n v : Nat) : (s.wrN a n v).die = s.die := rfl
@[simp] theorem Dev.wrN_core (s : Dev) (a n v : Nat) : (s.wrN a n v).core = s.core := rfl
@[simp] theorem Dev.wrN_gal (s : Dev) (a n v : Nat) : (s.wrN a n v).gal = s.gal := rfl
@[simp] theorem Dev.wrN_hub (s : Dev) (a n v : Nat) : (s.wrN a n v).hub = s.hub := rfl
@[simp] theorem Dev.wrN_time (s : Dev) (a n v : Nat) : (s.wrN a n v).time = s.time := rfl
@[simp] theorem Dev.wrN_tt (s : Dev) (a n v : Nat) : (s.wrN a n v).tt = s.tt := rfl
@[simp] theorem Dev.wrN_rad (s : Dev) (a n v : Nat) : (s.wrN a n v).rad = s.rad := rfl
@[simp] theorem Dev.wrN_wdogWarn (s : Dev) (a n v : Nat) : (s.wrN a n v).wdogWarn = s.wdogWarn := rfl
@[simp] theorem Dev.wrN_host (s : Dev) (a n v : Nat) : (s.wrN a n v).host = s.host := rfl
@[simp] theorem Dev.wrN_mtr (s : Dev) (a n v : Nat) : (s.wrN a n v).mtr = s.mtr := rfl
@[simp] theorem Dev.wrN_aco (s : Dev) (a n v : Nat) : (s.wrN a n v).aco = s.aco := rfl
@[simp] theorem Dev.wrN_trk (s : Dev) (a n v : Nat) : (s.wrN a n v).trk = s.trk := rfl
@[simp] theorem Dev.wrN_ser (s : Dev) (a n v : Nat) : (s.wrN a n v).ser = s.ser := rfl
@[simp] theorem Dev.wrN_test (s : Dev) (a n v : Nat) : (s.wrN a n v).test = s.test := rfl

/-! ### zeroMem -/

@[simp] theorem Dev.zeroMem_asm (s : Dev) (lo hi : Nat) : (s.zeroMem lo hi).asm = s.asm := rfl
@[simp] theorem Dev.zeroMem_free (s : Dev) (lo hi : Nat) : (s.zeroMem lo hi).free = s.free := rfl
@[simp] theorem Dev.zeroMem_regs (s : Dev) (lo hi : Nat) : (s.zeroMem lo hi).regs = s.regs := rfl
@[simp] theorem Dev.zeroMem_bus (s : Dev) (lo hi : Nat) : (s.zeroMem lo hi).bus = s.bus := rfl
@[simp] theorem Dev.zeroMem_isl (s : Dev) (lo hi : Nat) : (s.zeroMem lo hi).isl = s.isl := rfl
@[simp] theorem Dev.zeroMem_ioIsl (s : Dev) (lo hi : Nat) : (s.zeroMem lo hi).ioIsl = s.ioIsl := rfl
@[simp] theorem Dev.zeroMem_pwr (s : Dev) (lo hi : Nat) : (s.zeroMem lo hi).pwr = s.pwr := rfl
@[simp] theorem Dev.zeroMem_ldg (s : Dev) (lo hi : Nat) : (s.zeroMem lo hi).ldg = s.ldg := rfl
@[simp] theorem Dev.zeroMem_die (s : Dev) (lo hi : Nat) : (s.zeroMem lo hi).die = s.die := rfl
@[simp] theorem Dev.zeroMem_core (s : Dev) (lo hi : Nat) : (s.zeroMem lo hi).core = s.core := rfl
@[simp] theorem Dev.zeroMem_gal (s : Dev) (lo hi : Nat) : (s.zeroMem lo hi).gal = s.gal := rfl
@[simp] theorem Dev.zeroMem_hub (s : Dev) (lo hi : Nat) : (s.zeroMem lo hi).hub = s.hub := rfl
@[simp] theorem Dev.zeroMem_time (s : Dev) (lo hi : Nat) : (s.zeroMem lo hi).time = s.time := rfl
@[simp] theorem Dev.zeroMem_tt (s : Dev) (lo hi : Nat) : (s.zeroMem lo hi).tt = s.tt := rfl
@[simp] theorem Dev.zeroMem_rad (s : Dev) (lo hi : Nat) : (s.zeroMem lo hi).rad = s.rad := rfl
@[simp] theorem Dev.zeroMem_wdogWarn (s : Dev) (lo hi : Nat) : (s.zeroMem lo hi).wdogWarn = s.wdogWarn := rfl
@[simp] theorem Dev.zeroMem_host (s : Dev) (lo hi : Nat) : (s.zeroMem lo hi).host = s.host := rfl
@[simp] theorem Dev.zeroMem_mtr (s : Dev) (lo hi : Nat) : (s.zeroMem lo hi).mtr = s.mtr := rfl
@[simp] theorem Dev.zeroMem_aco (s : Dev) (lo hi : Nat) : (s.zeroMem lo hi).aco = s.aco := rfl
@[simp] theorem Dev.zeroMem_trk (s : Dev) (lo hi : Nat) : (s.zeroMem lo hi).trk = s.trk := rfl
@[simp] theorem Dev.zeroMem_ser (s : Dev) (lo hi : Nat) : (s.zeroMem lo hi).ser = s.ser := rfl
@[simp] theorem Dev.zeroMem_test (s : Dev) (lo hi : Nat) : (s.zeroMem lo hi).test = s.test := rfl

/-! ### setPoison -/

@[simp] theorem Dev.setPoison_asm (s : Dev) (a n : Nat) : (s.setPoison a n).asm = s.asm := rfl
@[simp] theorem Dev.setPoison_free (s : Dev) (a n : Nat) : (s.setPoison a n).free = s.free := rfl
@[simp] theorem Dev.setPoison_regs (s : Dev) (a n : Nat) : (s.setPoison a n).regs = s.regs := rfl
@[simp] theorem Dev.setPoison_mem (s : Dev) (a n : Nat) : (s.setPoison a n).mem = s.mem := rfl
@[simp] theorem Dev.setPoison_ecc (s : Dev) (a n : Nat) : (s.setPoison a n).ecc = s.ecc := rfl
@[simp] theorem Dev.setPoison_bus (s : Dev) (a n : Nat) : (s.setPoison a n).bus = s.bus := rfl
@[simp] theorem Dev.setPoison_isl (s : Dev) (a n : Nat) : (s.setPoison a n).isl = s.isl := rfl
@[simp] theorem Dev.setPoison_ioIsl (s : Dev) (a n : Nat) : (s.setPoison a n).ioIsl = s.ioIsl := rfl
@[simp] theorem Dev.setPoison_pwr (s : Dev) (a n : Nat) : (s.setPoison a n).pwr = s.pwr := rfl
@[simp] theorem Dev.setPoison_ldg (s : Dev) (a n : Nat) : (s.setPoison a n).ldg = s.ldg := rfl
@[simp] theorem Dev.setPoison_die (s : Dev) (a n : Nat) : (s.setPoison a n).die = s.die := rfl
@[simp] theorem Dev.setPoison_core (s : Dev) (a n : Nat) : (s.setPoison a n).core = s.core := rfl
@[simp] theorem Dev.setPoison_gal (s : Dev) (a n : Nat) : (s.setPoison a n).gal = s.gal := rfl
@[simp] theorem Dev.setPoison_hub (s : Dev) (a n : Nat) : (s.setPoison a n).hub = s.hub := rfl
@[simp] theorem Dev.setPoison_time (s : Dev) (a n : Nat) : (s.setPoison a n).time = s.time := rfl
@[simp] theorem Dev.setPoison_tt (s : Dev) (a n : Nat) : (s.setPoison a n).tt = s.tt := rfl
@[simp] theorem Dev.setPoison_rad (s : Dev) (a n : Nat) : (s.setPoison a n).rad = s.rad := rfl
@[simp] theorem Dev.setPoison_wdogWarn (s : Dev) (a n : Nat) : (s.setPoison a n).wdogWarn = s.wdogWarn := rfl
@[simp] theorem Dev.setPoison_host (s : Dev) (a n : Nat) : (s.setPoison a n).host = s.host := rfl
@[simp] theorem Dev.setPoison_mtr (s : Dev) (a n : Nat) : (s.setPoison a n).mtr = s.mtr := rfl
@[simp] theorem Dev.setPoison_aco (s : Dev) (a n : Nat) : (s.setPoison a n).aco = s.aco := rfl
@[simp] theorem Dev.setPoison_trk (s : Dev) (a n : Nat) : (s.setPoison a n).trk = s.trk := rfl
@[simp] theorem Dev.setPoison_ser (s : Dev) (a n : Nat) : (s.setPoison a n).ser = s.ser := rfl
@[simp] theorem Dev.setPoison_test (s : Dev) (a n : Nat) : (s.setPoison a n).test = s.test := rfl

/-! ### wipePoison -/

@[simp] theorem Dev.wipePoison_asm (s : Dev) (a n : Nat) : (s.wipePoison a n).asm = s.asm := rfl
@[simp] theorem Dev.wipePoison_free (s : Dev) (a n : Nat) : (s.wipePoison a n).free = s.free := rfl
@[simp] theorem Dev.wipePoison_regs (s : Dev) (a n : Nat) : (s.wipePoison a n).regs = s.regs := rfl
@[simp] theorem Dev.wipePoison_mem (s : Dev) (a n : Nat) : (s.wipePoison a n).mem = s.mem := rfl
@[simp] theorem Dev.wipePoison_ecc (s : Dev) (a n : Nat) : (s.wipePoison a n).ecc = s.ecc := rfl
@[simp] theorem Dev.wipePoison_bus (s : Dev) (a n : Nat) : (s.wipePoison a n).bus = s.bus := rfl
@[simp] theorem Dev.wipePoison_isl (s : Dev) (a n : Nat) : (s.wipePoison a n).isl = s.isl := rfl
@[simp] theorem Dev.wipePoison_ioIsl (s : Dev) (a n : Nat) : (s.wipePoison a n).ioIsl = s.ioIsl := rfl
@[simp] theorem Dev.wipePoison_pwr (s : Dev) (a n : Nat) : (s.wipePoison a n).pwr = s.pwr := rfl
@[simp] theorem Dev.wipePoison_ldg (s : Dev) (a n : Nat) : (s.wipePoison a n).ldg = s.ldg := rfl
@[simp] theorem Dev.wipePoison_die (s : Dev) (a n : Nat) : (s.wipePoison a n).die = s.die := rfl
@[simp] theorem Dev.wipePoison_core (s : Dev) (a n : Nat) : (s.wipePoison a n).core = s.core := rfl
@[simp] theorem Dev.wipePoison_gal (s : Dev) (a n : Nat) : (s.wipePoison a n).gal = s.gal := rfl
@[simp] theorem Dev.wipePoison_hub (s : Dev) (a n : Nat) : (s.wipePoison a n).hub = s.hub := rfl
@[simp] theorem Dev.wipePoison_time (s : Dev) (a n : Nat) : (s.wipePoison a n).time = s.time := rfl
@[simp] theorem Dev.wipePoison_tt (s : Dev) (a n : Nat) : (s.wipePoison a n).tt = s.tt := rfl
@[simp] theorem Dev.wipePoison_rad (s : Dev) (a n : Nat) : (s.wipePoison a n).rad = s.rad := rfl
@[simp] theorem Dev.wipePoison_wdogWarn (s : Dev) (a n : Nat) : (s.wipePoison a n).wdogWarn = s.wdogWarn := rfl
@[simp] theorem Dev.wipePoison_host (s : Dev) (a n : Nat) : (s.wipePoison a n).host = s.host := rfl
@[simp] theorem Dev.wipePoison_mtr (s : Dev) (a n : Nat) : (s.wipePoison a n).mtr = s.mtr := rfl
@[simp] theorem Dev.wipePoison_aco (s : Dev) (a n : Nat) : (s.wipePoison a n).aco = s.aco := rfl
@[simp] theorem Dev.wipePoison_trk (s : Dev) (a n : Nat) : (s.wipePoison a n).trk = s.trk := rfl
@[simp] theorem Dev.wipePoison_ser (s : Dev) (a n : Nat) : (s.wipePoison a n).ser = s.ser := rfl
@[simp] theorem Dev.wipePoison_test (s : Dev) (a n : Nat) : (s.wipePoison a n).test = s.test := rfl

/-! ### eccWipe -/

@[simp] theorem Dev.eccWipe_asm (s : Dev) (a n : Nat) : (s.eccWipe a n).asm = s.asm := rfl
@[simp] theorem Dev.eccWipe_free (s : Dev) (a n : Nat) : (s.eccWipe a n).free = s.free := rfl
@[simp] theorem Dev.eccWipe_regs (s : Dev) (a n : Nat) : (s.eccWipe a n).regs = s.regs := rfl
@[simp] theorem Dev.eccWipe_mem (s : Dev) (a n : Nat) : (s.eccWipe a n).mem = s.mem := rfl
@[simp] theorem Dev.eccWipe_poison (s : Dev) (a n : Nat) : (s.eccWipe a n).poison = s.poison := rfl
@[simp] theorem Dev.eccWipe_bus (s : Dev) (a n : Nat) : (s.eccWipe a n).bus = s.bus := rfl
@[simp] theorem Dev.eccWipe_isl (s : Dev) (a n : Nat) : (s.eccWipe a n).isl = s.isl := rfl
@[simp] theorem Dev.eccWipe_ioIsl (s : Dev) (a n : Nat) : (s.eccWipe a n).ioIsl = s.ioIsl := rfl
@[simp] theorem Dev.eccWipe_pwr (s : Dev) (a n : Nat) : (s.eccWipe a n).pwr = s.pwr := rfl
@[simp] theorem Dev.eccWipe_ldg (s : Dev) (a n : Nat) : (s.eccWipe a n).ldg = s.ldg := rfl
@[simp] theorem Dev.eccWipe_die (s : Dev) (a n : Nat) : (s.eccWipe a n).die = s.die := rfl
@[simp] theorem Dev.eccWipe_core (s : Dev) (a n : Nat) : (s.eccWipe a n).core = s.core := rfl
@[simp] theorem Dev.eccWipe_gal (s : Dev) (a n : Nat) : (s.eccWipe a n).gal = s.gal := rfl
@[simp] theorem Dev.eccWipe_hub (s : Dev) (a n : Nat) : (s.eccWipe a n).hub = s.hub := rfl
@[simp] theorem Dev.eccWipe_time (s : Dev) (a n : Nat) : (s.eccWipe a n).time = s.time := rfl
@[simp] theorem Dev.eccWipe_tt (s : Dev) (a n : Nat) : (s.eccWipe a n).tt = s.tt := rfl
@[simp] theorem Dev.eccWipe_rad (s : Dev) (a n : Nat) : (s.eccWipe a n).rad = s.rad := rfl
@[simp] theorem Dev.eccWipe_wdogWarn (s : Dev) (a n : Nat) : (s.eccWipe a n).wdogWarn = s.wdogWarn := rfl
@[simp] theorem Dev.eccWipe_host (s : Dev) (a n : Nat) : (s.eccWipe a n).host = s.host := rfl
@[simp] theorem Dev.eccWipe_mtr (s : Dev) (a n : Nat) : (s.eccWipe a n).mtr = s.mtr := rfl
@[simp] theorem Dev.eccWipe_aco (s : Dev) (a n : Nat) : (s.eccWipe a n).aco = s.aco := rfl
@[simp] theorem Dev.eccWipe_trk (s : Dev) (a n : Nat) : (s.eccWipe a n).trk = s.trk := rfl
@[simp] theorem Dev.eccWipe_ser (s : Dev) (a n : Nat) : (s.eccWipe a n).ser = s.ser := rfl
@[simp] theorem Dev.eccWipe_test (s : Dev) (a n : Nat) : (s.eccWipe a n).test = s.test := rfl

/-! ### modGal -/

@[simp] theorem Dev.modGal_asm (s : Dev) (g : Fin 6) (f : GalSt → GalSt) : (s.modGal g f).asm = s.asm := rfl
@[simp] theorem Dev.modGal_free (s : Dev) (g : Fin 6) (f : GalSt → GalSt) : (s.modGal g f).free = s.free := rfl
@[simp] theorem Dev.modGal_regs (s : Dev) (g : Fin 6) (f : GalSt → GalSt) : (s.modGal g f).regs = s.regs := rfl
@[simp] theorem Dev.modGal_mem (s : Dev) (g : Fin 6) (f : GalSt → GalSt) : (s.modGal g f).mem = s.mem := rfl
@[simp] theorem Dev.modGal_poison (s : Dev) (g : Fin 6) (f : GalSt → GalSt) : (s.modGal g f).poison = s.poison := rfl
@[simp] theorem Dev.modGal_ecc (s : Dev) (g : Fin 6) (f : GalSt → GalSt) : (s.modGal g f).ecc = s.ecc := rfl
@[simp] theorem Dev.modGal_bus (s : Dev) (g : Fin 6) (f : GalSt → GalSt) : (s.modGal g f).bus = s.bus := rfl
@[simp] theorem Dev.modGal_isl (s : Dev) (g : Fin 6) (f : GalSt → GalSt) : (s.modGal g f).isl = s.isl := rfl
@[simp] theorem Dev.modGal_ioIsl (s : Dev) (g : Fin 6) (f : GalSt → GalSt) : (s.modGal g f).ioIsl = s.ioIsl := rfl
@[simp] theorem Dev.modGal_pwr (s : Dev) (g : Fin 6) (f : GalSt → GalSt) : (s.modGal g f).pwr = s.pwr := rfl
@[simp] theorem Dev.modGal_ldg (s : Dev) (g : Fin 6) (f : GalSt → GalSt) : (s.modGal g f).ldg = s.ldg := rfl
@[simp] theorem Dev.modGal_die (s : Dev) (g : Fin 6) (f : GalSt → GalSt) : (s.modGal g f).die = s.die := rfl
@[simp] theorem Dev.modGal_core (s : Dev) (g : Fin 6) (f : GalSt → GalSt) : (s.modGal g f).core = s.core := rfl
@[simp] theorem Dev.modGal_hub (s : Dev) (g : Fin 6) (f : GalSt → GalSt) : (s.modGal g f).hub = s.hub := rfl
@[simp] theorem Dev.modGal_time (s : Dev) (g : Fin 6) (f : GalSt → GalSt) : (s.modGal g f).time = s.time := rfl
@[simp] theorem Dev.modGal_tt (s : Dev) (g : Fin 6) (f : GalSt → GalSt) : (s.modGal g f).tt = s.tt := rfl
@[simp] theorem Dev.modGal_rad (s : Dev) (g : Fin 6) (f : GalSt → GalSt) : (s.modGal g f).rad = s.rad := rfl
@[simp] theorem Dev.modGal_wdogWarn (s : Dev) (g : Fin 6) (f : GalSt → GalSt) :
    (s.modGal g f).wdogWarn = s.wdogWarn := rfl
@[simp] theorem Dev.modGal_host (s : Dev) (g : Fin 6) (f : GalSt → GalSt) : (s.modGal g f).host = s.host := rfl
@[simp] theorem Dev.modGal_mtr (s : Dev) (g : Fin 6) (f : GalSt → GalSt) : (s.modGal g f).mtr = s.mtr := rfl
@[simp] theorem Dev.modGal_aco (s : Dev) (g : Fin 6) (f : GalSt → GalSt) : (s.modGal g f).aco = s.aco := rfl
@[simp] theorem Dev.modGal_trk (s : Dev) (g : Fin 6) (f : GalSt → GalSt) : (s.modGal g f).trk = s.trk := rfl
@[simp] theorem Dev.modGal_ser (s : Dev) (g : Fin 6) (f : GalSt → GalSt) : (s.modGal g f).ser = s.ser := rfl
@[simp] theorem Dev.modGal_test (s : Dev) (g : Fin 6) (f : GalSt → GalSt) : (s.modGal g f).test = s.test := rfl

/-! ### modCore -/

@[simp] theorem Dev.modCore_asm (s : Dev) (c : Fin 8) (f : CoreSt → CoreSt) : (s.modCore c f).asm = s.asm := rfl
@[simp] theorem Dev.modCore_free (s : Dev) (c : Fin 8) (f : CoreSt → CoreSt) : (s.modCore c f).free = s.free := rfl
@[simp] theorem Dev.modCore_regs (s : Dev) (c : Fin 8) (f : CoreSt → CoreSt) : (s.modCore c f).regs = s.regs := rfl
@[simp] theorem Dev.modCore_mem (s : Dev) (c : Fin 8) (f : CoreSt → CoreSt) : (s.modCore c f).mem = s.mem := rfl
@[simp] theorem Dev.modCore_poison (s : Dev) (c : Fin 8) (f : CoreSt → CoreSt) :
    (s.modCore c f).poison = s.poison := rfl
@[simp] theorem Dev.modCore_ecc (s : Dev) (c : Fin 8) (f : CoreSt → CoreSt) : (s.modCore c f).ecc = s.ecc := rfl
@[simp] theorem Dev.modCore_bus (s : Dev) (c : Fin 8) (f : CoreSt → CoreSt) : (s.modCore c f).bus = s.bus := rfl
@[simp] theorem Dev.modCore_isl (s : Dev) (c : Fin 8) (f : CoreSt → CoreSt) : (s.modCore c f).isl = s.isl := rfl
@[simp] theorem Dev.modCore_ioIsl (s : Dev) (c : Fin 8) (f : CoreSt → CoreSt) : (s.modCore c f).ioIsl = s.ioIsl := rfl
@[simp] theorem Dev.modCore_pwr (s : Dev) (c : Fin 8) (f : CoreSt → CoreSt) : (s.modCore c f).pwr = s.pwr := rfl
@[simp] theorem Dev.modCore_ldg (s : Dev) (c : Fin 8) (f : CoreSt → CoreSt) : (s.modCore c f).ldg = s.ldg := rfl
@[simp] theorem Dev.modCore_die (s : Dev) (c : Fin 8) (f : CoreSt → CoreSt) : (s.modCore c f).die = s.die := rfl
@[simp] theorem Dev.modCore_gal (s : Dev) (c : Fin 8) (f : CoreSt → CoreSt) : (s.modCore c f).gal = s.gal := rfl
@[simp] theorem Dev.modCore_hub (s : Dev) (c : Fin 8) (f : CoreSt → CoreSt) : (s.modCore c f).hub = s.hub := rfl
@[simp] theorem Dev.modCore_time (s : Dev) (c : Fin 8) (f : CoreSt → CoreSt) : (s.modCore c f).time = s.time := rfl
@[simp] theorem Dev.modCore_tt (s : Dev) (c : Fin 8) (f : CoreSt → CoreSt) : (s.modCore c f).tt = s.tt := rfl
@[simp] theorem Dev.modCore_rad (s : Dev) (c : Fin 8) (f : CoreSt → CoreSt) : (s.modCore c f).rad = s.rad := rfl
@[simp] theorem Dev.modCore_wdogWarn (s : Dev) (c : Fin 8) (f : CoreSt → CoreSt) :
    (s.modCore c f).wdogWarn = s.wdogWarn := rfl
@[simp] theorem Dev.modCore_host (s : Dev) (c : Fin 8) (f : CoreSt → CoreSt) : (s.modCore c f).host = s.host := rfl
@[simp] theorem Dev.modCore_mtr (s : Dev) (c : Fin 8) (f : CoreSt → CoreSt) : (s.modCore c f).mtr = s.mtr := rfl
@[simp] theorem Dev.modCore_aco (s : Dev) (c : Fin 8) (f : CoreSt → CoreSt) : (s.modCore c f).aco = s.aco := rfl
@[simp] theorem Dev.modCore_trk (s : Dev) (c : Fin 8) (f : CoreSt → CoreSt) : (s.modCore c f).trk = s.trk := rfl
@[simp] theorem Dev.modCore_ser (s : Dev) (c : Fin 8) (f : CoreSt → CoreSt) : (s.modCore c f).ser = s.ser := rfl
@[simp] theorem Dev.modCore_test (s : Dev) (c : Fin 8) (f : CoreSt → CoreSt) : (s.modCore c f).test = s.test := rfl

/-! ### modDie -/

@[simp] theorem Dev.modDie_asm (s : Dev) (d : Fin 2) (f : DieSt → DieSt) : (s.modDie d f).asm = s.asm := rfl
@[simp] theorem Dev.modDie_free (s : Dev) (d : Fin 2) (f : DieSt → DieSt) : (s.modDie d f).free = s.free := rfl
@[simp] theorem Dev.modDie_regs (s : Dev) (d : Fin 2) (f : DieSt → DieSt) : (s.modDie d f).regs = s.regs := rfl
@[simp] theorem Dev.modDie_mem (s : Dev) (d : Fin 2) (f : DieSt → DieSt) : (s.modDie d f).mem = s.mem := rfl
@[simp] theorem Dev.modDie_poison (s : Dev) (d : Fin 2) (f : DieSt → DieSt) : (s.modDie d f).poison = s.poison := rfl
@[simp] theorem Dev.modDie_ecc (s : Dev) (d : Fin 2) (f : DieSt → DieSt) : (s.modDie d f).ecc = s.ecc := rfl
@[simp] theorem Dev.modDie_bus (s : Dev) (d : Fin 2) (f : DieSt → DieSt) : (s.modDie d f).bus = s.bus := rfl
@[simp] theorem Dev.modDie_isl (s : Dev) (d : Fin 2) (f : DieSt → DieSt) : (s.modDie d f).isl = s.isl := rfl
@[simp] theorem Dev.modDie_ioIsl (s : Dev) (d : Fin 2) (f : DieSt → DieSt) : (s.modDie d f).ioIsl = s.ioIsl := rfl
@[simp] theorem Dev.modDie_pwr (s : Dev) (d : Fin 2) (f : DieSt → DieSt) : (s.modDie d f).pwr = s.pwr := rfl
@[simp] theorem Dev.modDie_ldg (s : Dev) (d : Fin 2) (f : DieSt → DieSt) : (s.modDie d f).ldg = s.ldg := rfl
@[simp] theorem Dev.modDie_core (s : Dev) (d : Fin 2) (f : DieSt → DieSt) : (s.modDie d f).core = s.core := rfl
@[simp] theorem Dev.modDie_gal (s : Dev) (d : Fin 2) (f : DieSt → DieSt) : (s.modDie d f).gal = s.gal := rfl
@[simp] theorem Dev.modDie_hub (s : Dev) (d : Fin 2) (f : DieSt → DieSt) : (s.modDie d f).hub = s.hub := rfl
@[simp] theorem Dev.modDie_time (s : Dev) (d : Fin 2) (f : DieSt → DieSt) : (s.modDie d f).time = s.time := rfl
@[simp] theorem Dev.modDie_tt (s : Dev) (d : Fin 2) (f : DieSt → DieSt) : (s.modDie d f).tt = s.tt := rfl
@[simp] theorem Dev.modDie_rad (s : Dev) (d : Fin 2) (f : DieSt → DieSt) : (s.modDie d f).rad = s.rad := rfl
@[simp] theorem Dev.modDie_wdogWarn (s : Dev) (d : Fin 2) (f : DieSt → DieSt) :
    (s.modDie d f).wdogWarn = s.wdogWarn := rfl
@[simp] theorem Dev.modDie_host (s : Dev) (d : Fin 2) (f : DieSt → DieSt) : (s.modDie d f).host = s.host := rfl
@[simp] theorem Dev.modDie_mtr (s : Dev) (d : Fin 2) (f : DieSt → DieSt) : (s.modDie d f).mtr = s.mtr := rfl
@[simp] theorem Dev.modDie_aco (s : Dev) (d : Fin 2) (f : DieSt → DieSt) : (s.modDie d f).aco = s.aco := rfl
@[simp] theorem Dev.modDie_trk (s : Dev) (d : Fin 2) (f : DieSt → DieSt) : (s.modDie d f).trk = s.trk := rfl
@[simp] theorem Dev.modDie_ser (s : Dev) (d : Fin 2) (f : DieSt → DieSt) : (s.modDie d f).ser = s.ser := rfl
@[simp] theorem Dev.modDie_test (s : Dev) (d : Fin 2) (f : DieSt → DieSt) : (s.modDie d f).test = s.test := rfl

/-! ### modHub -/

@[simp] theorem Dev.modHub_asm (s : Dev) (f : HubSt → HubSt) : (s.modHub f).asm = s.asm := rfl
@[simp] theorem Dev.modHub_free (s : Dev) (f : HubSt → HubSt) : (s.modHub f).free = s.free := rfl
@[simp] theorem Dev.modHub_regs (s : Dev) (f : HubSt → HubSt) : (s.modHub f).regs = s.regs := rfl
@[simp] theorem Dev.modHub_mem (s : Dev) (f : HubSt → HubSt) : (s.modHub f).mem = s.mem := rfl
@[simp] theorem Dev.modHub_poison (s : Dev) (f : HubSt → HubSt) : (s.modHub f).poison = s.poison := rfl
@[simp] theorem Dev.modHub_ecc (s : Dev) (f : HubSt → HubSt) : (s.modHub f).ecc = s.ecc := rfl
@[simp] theorem Dev.modHub_bus (s : Dev) (f : HubSt → HubSt) : (s.modHub f).bus = s.bus := rfl
@[simp] theorem Dev.modHub_isl (s : Dev) (f : HubSt → HubSt) : (s.modHub f).isl = s.isl := rfl
@[simp] theorem Dev.modHub_ioIsl (s : Dev) (f : HubSt → HubSt) : (s.modHub f).ioIsl = s.ioIsl := rfl
@[simp] theorem Dev.modHub_pwr (s : Dev) (f : HubSt → HubSt) : (s.modHub f).pwr = s.pwr := rfl
@[simp] theorem Dev.modHub_ldg (s : Dev) (f : HubSt → HubSt) : (s.modHub f).ldg = s.ldg := rfl
@[simp] theorem Dev.modHub_die (s : Dev) (f : HubSt → HubSt) : (s.modHub f).die = s.die := rfl
@[simp] theorem Dev.modHub_core (s : Dev) (f : HubSt → HubSt) : (s.modHub f).core = s.core := rfl
@[simp] theorem Dev.modHub_gal (s : Dev) (f : HubSt → HubSt) : (s.modHub f).gal = s.gal := rfl
@[simp] theorem Dev.modHub_time (s : Dev) (f : HubSt → HubSt) : (s.modHub f).time = s.time := rfl
@[simp] theorem Dev.modHub_tt (s : Dev) (f : HubSt → HubSt) : (s.modHub f).tt = s.tt := rfl
@[simp] theorem Dev.modHub_rad (s : Dev) (f : HubSt → HubSt) : (s.modHub f).rad = s.rad := rfl
@[simp] theorem Dev.modHub_wdogWarn (s : Dev) (f : HubSt → HubSt) : (s.modHub f).wdogWarn = s.wdogWarn := rfl
@[simp] theorem Dev.modHub_host (s : Dev) (f : HubSt → HubSt) : (s.modHub f).host = s.host := rfl
@[simp] theorem Dev.modHub_mtr (s : Dev) (f : HubSt → HubSt) : (s.modHub f).mtr = s.mtr := rfl
@[simp] theorem Dev.modHub_aco (s : Dev) (f : HubSt → HubSt) : (s.modHub f).aco = s.aco := rfl
@[simp] theorem Dev.modHub_trk (s : Dev) (f : HubSt → HubSt) : (s.modHub f).trk = s.trk := rfl
@[simp] theorem Dev.modHub_ser (s : Dev) (f : HubSt → HubSt) : (s.modHub f).ser = s.ser := rfl
@[simp] theorem Dev.modHub_test (s : Dev) (f : HubSt → HubSt) : (s.modHub f).test = s.test := rfl

/-! ### modHost -/

@[simp] theorem Dev.modHost_asm (s : Dev) (f : HostSt → HostSt) : (s.modHost f).asm = s.asm := rfl
@[simp] theorem Dev.modHost_free (s : Dev) (f : HostSt → HostSt) : (s.modHost f).free = s.free := rfl
@[simp] theorem Dev.modHost_regs (s : Dev) (f : HostSt → HostSt) : (s.modHost f).regs = s.regs := rfl
@[simp] theorem Dev.modHost_mem (s : Dev) (f : HostSt → HostSt) : (s.modHost f).mem = s.mem := rfl
@[simp] theorem Dev.modHost_poison (s : Dev) (f : HostSt → HostSt) : (s.modHost f).poison = s.poison := rfl
@[simp] theorem Dev.modHost_ecc (s : Dev) (f : HostSt → HostSt) : (s.modHost f).ecc = s.ecc := rfl
@[simp] theorem Dev.modHost_bus (s : Dev) (f : HostSt → HostSt) : (s.modHost f).bus = s.bus := rfl
@[simp] theorem Dev.modHost_isl (s : Dev) (f : HostSt → HostSt) : (s.modHost f).isl = s.isl := rfl
@[simp] theorem Dev.modHost_ioIsl (s : Dev) (f : HostSt → HostSt) : (s.modHost f).ioIsl = s.ioIsl := rfl
@[simp] theorem Dev.modHost_pwr (s : Dev) (f : HostSt → HostSt) : (s.modHost f).pwr = s.pwr := rfl
@[simp] theorem Dev.modHost_ldg (s : Dev) (f : HostSt → HostSt) : (s.modHost f).ldg = s.ldg := rfl
@[simp] theorem Dev.modHost_die (s : Dev) (f : HostSt → HostSt) : (s.modHost f).die = s.die := rfl
@[simp] theorem Dev.modHost_core (s : Dev) (f : HostSt → HostSt) : (s.modHost f).core = s.core := rfl
@[simp] theorem Dev.modHost_gal (s : Dev) (f : HostSt → HostSt) : (s.modHost f).gal = s.gal := rfl
@[simp] theorem Dev.modHost_hub (s : Dev) (f : HostSt → HostSt) : (s.modHost f).hub = s.hub := rfl
@[simp] theorem Dev.modHost_time (s : Dev) (f : HostSt → HostSt) : (s.modHost f).time = s.time := rfl
@[simp] theorem Dev.modHost_tt (s : Dev) (f : HostSt → HostSt) : (s.modHost f).tt = s.tt := rfl
@[simp] theorem Dev.modHost_rad (s : Dev) (f : HostSt → HostSt) : (s.modHost f).rad = s.rad := rfl
@[simp] theorem Dev.modHost_wdogWarn (s : Dev) (f : HostSt → HostSt) : (s.modHost f).wdogWarn = s.wdogWarn := rfl
@[simp] theorem Dev.modHost_mtr (s : Dev) (f : HostSt → HostSt) : (s.modHost f).mtr = s.mtr := rfl
@[simp] theorem Dev.modHost_aco (s : Dev) (f : HostSt → HostSt) : (s.modHost f).aco = s.aco := rfl
@[simp] theorem Dev.modHost_trk (s : Dev) (f : HostSt → HostSt) : (s.modHost f).trk = s.trk := rfl
@[simp] theorem Dev.modHost_ser (s : Dev) (f : HostSt → HostSt) : (s.modHost f).ser = s.ser := rfl
@[simp] theorem Dev.modHost_test (s : Dev) (f : HostSt → HostSt) : (s.modHost f).test = s.test := rfl

/-! ### modHc -/

@[simp] theorem Dev.modHc_asm (s : Dev) (c : Fin 4) (f : HostCore → HostCore) : (s.modHc c f).asm = s.asm := rfl
@[simp] theorem Dev.modHc_free (s : Dev) (c : Fin 4) (f : HostCore → HostCore) : (s.modHc c f).free = s.free := rfl
@[simp] theorem Dev.modHc_regs (s : Dev) (c : Fin 4) (f : HostCore → HostCore) : (s.modHc c f).regs = s.regs := rfl
@[simp] theorem Dev.modHc_mem (s : Dev) (c : Fin 4) (f : HostCore → HostCore) : (s.modHc c f).mem = s.mem := rfl
@[simp] theorem Dev.modHc_poison (s : Dev) (c : Fin 4) (f : HostCore → HostCore) :
    (s.modHc c f).poison = s.poison := rfl
@[simp] theorem Dev.modHc_ecc (s : Dev) (c : Fin 4) (f : HostCore → HostCore) : (s.modHc c f).ecc = s.ecc := rfl
@[simp] theorem Dev.modHc_bus (s : Dev) (c : Fin 4) (f : HostCore → HostCore) : (s.modHc c f).bus = s.bus := rfl
@[simp] theorem Dev.modHc_isl (s : Dev) (c : Fin 4) (f : HostCore → HostCore) : (s.modHc c f).isl = s.isl := rfl
@[simp] theorem Dev.modHc_ioIsl (s : Dev) (c : Fin 4) (f : HostCore → HostCore) : (s.modHc c f).ioIsl = s.ioIsl := rfl
@[simp] theorem Dev.modHc_pwr (s : Dev) (c : Fin 4) (f : HostCore → HostCore) : (s.modHc c f).pwr = s.pwr := rfl
@[simp] theorem Dev.modHc_ldg (s : Dev) (c : Fin 4) (f : HostCore → HostCore) : (s.modHc c f).ldg = s.ldg := rfl
@[simp] theorem Dev.modHc_die (s : Dev) (c : Fin 4) (f : HostCore → HostCore) : (s.modHc c f).die = s.die := rfl
@[simp] theorem Dev.modHc_core (s : Dev) (c : Fin 4) (f : HostCore → HostCore) : (s.modHc c f).core = s.core := rfl
@[simp] theorem Dev.modHc_gal (s : Dev) (c : Fin 4) (f : HostCore → HostCore) : (s.modHc c f).gal = s.gal := rfl
@[simp] theorem Dev.modHc_hub (s : Dev) (c : Fin 4) (f : HostCore → HostCore) : (s.modHc c f).hub = s.hub := rfl
@[simp] theorem Dev.modHc_time (s : Dev) (c : Fin 4) (f : HostCore → HostCore) : (s.modHc c f).time = s.time := rfl
@[simp] theorem Dev.modHc_tt (s : Dev) (c : Fin 4) (f : HostCore → HostCore) : (s.modHc c f).tt = s.tt := rfl
@[simp] theorem Dev.modHc_rad (s : Dev) (c : Fin 4) (f : HostCore → HostCore) : (s.modHc c f).rad = s.rad := rfl
@[simp] theorem Dev.modHc_wdogWarn (s : Dev) (c : Fin 4) (f : HostCore → HostCore) :
    (s.modHc c f).wdogWarn = s.wdogWarn := rfl
@[simp] theorem Dev.modHc_mtr (s : Dev) (c : Fin 4) (f : HostCore → HostCore) : (s.modHc c f).mtr = s.mtr := rfl
@[simp] theorem Dev.modHc_aco (s : Dev) (c : Fin 4) (f : HostCore → HostCore) : (s.modHc c f).aco = s.aco := rfl
@[simp] theorem Dev.modHc_trk (s : Dev) (c : Fin 4) (f : HostCore → HostCore) : (s.modHc c f).trk = s.trk := rfl
@[simp] theorem Dev.modHc_ser (s : Dev) (c : Fin 4) (f : HostCore → HostCore) : (s.modHc c f).ser = s.ser := rfl
@[simp] theorem Dev.modHc_test (s : Dev) (c : Fin 4) (f : HostCore → HostCore) : (s.modHc c f).test = s.test := rfl

/-! ### modPwr -/

@[simp] theorem Dev.modPwr_asm (s : Dev) (f : PowerSt → PowerSt) : (s.modPwr f).asm = s.asm := rfl
@[simp] theorem Dev.modPwr_free (s : Dev) (f : PowerSt → PowerSt) : (s.modPwr f).free = s.free := rfl
@[simp] theorem Dev.modPwr_regs (s : Dev) (f : PowerSt → PowerSt) : (s.modPwr f).regs = s.regs := rfl
@[simp] theorem Dev.modPwr_mem (s : Dev) (f : PowerSt → PowerSt) : (s.modPwr f).mem = s.mem := rfl
@[simp] theorem Dev.modPwr_poison (s : Dev) (f : PowerSt → PowerSt) : (s.modPwr f).poison = s.poison := rfl
@[simp] theorem Dev.modPwr_ecc (s : Dev) (f : PowerSt → PowerSt) : (s.modPwr f).ecc = s.ecc := rfl
@[simp] theorem Dev.modPwr_bus (s : Dev) (f : PowerSt → PowerSt) : (s.modPwr f).bus = s.bus := rfl
@[simp] theorem Dev.modPwr_isl (s : Dev) (f : PowerSt → PowerSt) : (s.modPwr f).isl = s.isl := rfl
@[simp] theorem Dev.modPwr_ioIsl (s : Dev) (f : PowerSt → PowerSt) : (s.modPwr f).ioIsl = s.ioIsl := rfl
@[simp] theorem Dev.modPwr_ldg (s : Dev) (f : PowerSt → PowerSt) : (s.modPwr f).ldg = s.ldg := rfl
@[simp] theorem Dev.modPwr_die (s : Dev) (f : PowerSt → PowerSt) : (s.modPwr f).die = s.die := rfl
@[simp] theorem Dev.modPwr_core (s : Dev) (f : PowerSt → PowerSt) : (s.modPwr f).core = s.core := rfl
@[simp] theorem Dev.modPwr_gal (s : Dev) (f : PowerSt → PowerSt) : (s.modPwr f).gal = s.gal := rfl
@[simp] theorem Dev.modPwr_hub (s : Dev) (f : PowerSt → PowerSt) : (s.modPwr f).hub = s.hub := rfl
@[simp] theorem Dev.modPwr_time (s : Dev) (f : PowerSt → PowerSt) : (s.modPwr f).time = s.time := rfl
@[simp] theorem Dev.modPwr_tt (s : Dev) (f : PowerSt → PowerSt) : (s.modPwr f).tt = s.tt := rfl
@[simp] theorem Dev.modPwr_rad (s : Dev) (f : PowerSt → PowerSt) : (s.modPwr f).rad = s.rad := rfl
@[simp] theorem Dev.modPwr_wdogWarn (s : Dev) (f : PowerSt → PowerSt) : (s.modPwr f).wdogWarn = s.wdogWarn := rfl
@[simp] theorem Dev.modPwr_host (s : Dev) (f : PowerSt → PowerSt) : (s.modPwr f).host = s.host := rfl
@[simp] theorem Dev.modPwr_mtr (s : Dev) (f : PowerSt → PowerSt) : (s.modPwr f).mtr = s.mtr := rfl
@[simp] theorem Dev.modPwr_aco (s : Dev) (f : PowerSt → PowerSt) : (s.modPwr f).aco = s.aco := rfl
@[simp] theorem Dev.modPwr_trk (s : Dev) (f : PowerSt → PowerSt) : (s.modPwr f).trk = s.trk := rfl
@[simp] theorem Dev.modPwr_ser (s : Dev) (f : PowerSt → PowerSt) : (s.modPwr f).ser = s.ser := rfl
@[simp] theorem Dev.modPwr_test (s : Dev) (f : PowerSt → PowerSt) : (s.modPwr f).test = s.test := rfl

/-! ### modLdg -/

@[simp] theorem Dev.modLdg_asm (s : Dev) (f : LedgerSt → LedgerSt) : (s.modLdg f).asm = s.asm := rfl
@[simp] theorem Dev.modLdg_free (s : Dev) (f : LedgerSt → LedgerSt) : (s.modLdg f).free = s.free := rfl
@[simp] theorem Dev.modLdg_regs (s : Dev) (f : LedgerSt → LedgerSt) : (s.modLdg f).regs = s.regs := rfl
@[simp] theorem Dev.modLdg_mem (s : Dev) (f : LedgerSt → LedgerSt) : (s.modLdg f).mem = s.mem := rfl
@[simp] theorem Dev.modLdg_poison (s : Dev) (f : LedgerSt → LedgerSt) : (s.modLdg f).poison = s.poison := rfl
@[simp] theorem Dev.modLdg_ecc (s : Dev) (f : LedgerSt → LedgerSt) : (s.modLdg f).ecc = s.ecc := rfl
@[simp] theorem Dev.modLdg_bus (s : Dev) (f : LedgerSt → LedgerSt) : (s.modLdg f).bus = s.bus := rfl
@[simp] theorem Dev.modLdg_isl (s : Dev) (f : LedgerSt → LedgerSt) : (s.modLdg f).isl = s.isl := rfl
@[simp] theorem Dev.modLdg_ioIsl (s : Dev) (f : LedgerSt → LedgerSt) : (s.modLdg f).ioIsl = s.ioIsl := rfl
@[simp] theorem Dev.modLdg_pwr (s : Dev) (f : LedgerSt → LedgerSt) : (s.modLdg f).pwr = s.pwr := rfl
@[simp] theorem Dev.modLdg_die (s : Dev) (f : LedgerSt → LedgerSt) : (s.modLdg f).die = s.die := rfl
@[simp] theorem Dev.modLdg_core (s : Dev) (f : LedgerSt → LedgerSt) : (s.modLdg f).core = s.core := rfl
@[simp] theorem Dev.modLdg_gal (s : Dev) (f : LedgerSt → LedgerSt) : (s.modLdg f).gal = s.gal := rfl
@[simp] theorem Dev.modLdg_hub (s : Dev) (f : LedgerSt → LedgerSt) : (s.modLdg f).hub = s.hub := rfl
@[simp] theorem Dev.modLdg_time (s : Dev) (f : LedgerSt → LedgerSt) : (s.modLdg f).time = s.time := rfl
@[simp] theorem Dev.modLdg_tt (s : Dev) (f : LedgerSt → LedgerSt) : (s.modLdg f).tt = s.tt := rfl
@[simp] theorem Dev.modLdg_rad (s : Dev) (f : LedgerSt → LedgerSt) : (s.modLdg f).rad = s.rad := rfl
@[simp] theorem Dev.modLdg_wdogWarn (s : Dev) (f : LedgerSt → LedgerSt) : (s.modLdg f).wdogWarn = s.wdogWarn := rfl
@[simp] theorem Dev.modLdg_host (s : Dev) (f : LedgerSt → LedgerSt) : (s.modLdg f).host = s.host := rfl
@[simp] theorem Dev.modLdg_mtr (s : Dev) (f : LedgerSt → LedgerSt) : (s.modLdg f).mtr = s.mtr := rfl
@[simp] theorem Dev.modLdg_aco (s : Dev) (f : LedgerSt → LedgerSt) : (s.modLdg f).aco = s.aco := rfl
@[simp] theorem Dev.modLdg_trk (s : Dev) (f : LedgerSt → LedgerSt) : (s.modLdg f).trk = s.trk := rfl
@[simp] theorem Dev.modLdg_ser (s : Dev) (f : LedgerSt → LedgerSt) : (s.modLdg f).ser = s.ser := rfl
@[simp] theorem Dev.modLdg_test (s : Dev) (f : LedgerSt → LedgerSt) : (s.modLdg f).test = s.test := rfl

/-! ### modTt -/

@[simp] theorem Dev.modTt_asm (s : Dev) (d : Fin 2) (f : TtSt → TtSt) : (s.modTt d f).asm = s.asm := rfl
@[simp] theorem Dev.modTt_free (s : Dev) (d : Fin 2) (f : TtSt → TtSt) : (s.modTt d f).free = s.free := rfl
@[simp] theorem Dev.modTt_regs (s : Dev) (d : Fin 2) (f : TtSt → TtSt) : (s.modTt d f).regs = s.regs := rfl
@[simp] theorem Dev.modTt_mem (s : Dev) (d : Fin 2) (f : TtSt → TtSt) : (s.modTt d f).mem = s.mem := rfl
@[simp] theorem Dev.modTt_poison (s : Dev) (d : Fin 2) (f : TtSt → TtSt) : (s.modTt d f).poison = s.poison := rfl
@[simp] theorem Dev.modTt_ecc (s : Dev) (d : Fin 2) (f : TtSt → TtSt) : (s.modTt d f).ecc = s.ecc := rfl
@[simp] theorem Dev.modTt_bus (s : Dev) (d : Fin 2) (f : TtSt → TtSt) : (s.modTt d f).bus = s.bus := rfl
@[simp] theorem Dev.modTt_isl (s : Dev) (d : Fin 2) (f : TtSt → TtSt) : (s.modTt d f).isl = s.isl := rfl
@[simp] theorem Dev.modTt_ioIsl (s : Dev) (d : Fin 2) (f : TtSt → TtSt) : (s.modTt d f).ioIsl = s.ioIsl := rfl
@[simp] theorem Dev.modTt_pwr (s : Dev) (d : Fin 2) (f : TtSt → TtSt) : (s.modTt d f).pwr = s.pwr := rfl
@[simp] theorem Dev.modTt_ldg (s : Dev) (d : Fin 2) (f : TtSt → TtSt) : (s.modTt d f).ldg = s.ldg := rfl
@[simp] theorem Dev.modTt_die (s : Dev) (d : Fin 2) (f : TtSt → TtSt) : (s.modTt d f).die = s.die := rfl
@[simp] theorem Dev.modTt_core (s : Dev) (d : Fin 2) (f : TtSt → TtSt) : (s.modTt d f).core = s.core := rfl
@[simp] theorem Dev.modTt_gal (s : Dev) (d : Fin 2) (f : TtSt → TtSt) : (s.modTt d f).gal = s.gal := rfl
@[simp] theorem Dev.modTt_hub (s : Dev) (d : Fin 2) (f : TtSt → TtSt) : (s.modTt d f).hub = s.hub := rfl
@[simp] theorem Dev.modTt_time (s : Dev) (d : Fin 2) (f : TtSt → TtSt) : (s.modTt d f).time = s.time := rfl
@[simp] theorem Dev.modTt_rad (s : Dev) (d : Fin 2) (f : TtSt → TtSt) : (s.modTt d f).rad = s.rad := rfl
@[simp] theorem Dev.modTt_wdogWarn (s : Dev) (d : Fin 2) (f : TtSt → TtSt) :
    (s.modTt d f).wdogWarn = s.wdogWarn := rfl
@[simp] theorem Dev.modTt_host (s : Dev) (d : Fin 2) (f : TtSt → TtSt) : (s.modTt d f).host = s.host := rfl
@[simp] theorem Dev.modTt_mtr (s : Dev) (d : Fin 2) (f : TtSt → TtSt) : (s.modTt d f).mtr = s.mtr := rfl
@[simp] theorem Dev.modTt_aco (s : Dev) (d : Fin 2) (f : TtSt → TtSt) : (s.modTt d f).aco = s.aco := rfl
@[simp] theorem Dev.modTt_trk (s : Dev) (d : Fin 2) (f : TtSt → TtSt) : (s.modTt d f).trk = s.trk := rfl
@[simp] theorem Dev.modTt_ser (s : Dev) (d : Fin 2) (f : TtSt → TtSt) : (s.modTt d f).ser = s.ser := rfl
@[simp] theorem Dev.modTt_test (s : Dev) (d : Fin 2) (f : TtSt → TtSt) : (s.modTt d f).test = s.test := rfl

/-! ### modRad -/

@[simp] theorem Dev.modRad_asm (s : Dev) (d : Fin 2) (f : RadioSt → RadioSt) : (s.modRad d f).asm = s.asm := rfl
@[simp] theorem Dev.modRad_free (s : Dev) (d : Fin 2) (f : RadioSt → RadioSt) : (s.modRad d f).free = s.free := rfl
@[simp] theorem Dev.modRad_regs (s : Dev) (d : Fin 2) (f : RadioSt → RadioSt) : (s.modRad d f).regs = s.regs := rfl
@[simp] theorem Dev.modRad_mem (s : Dev) (d : Fin 2) (f : RadioSt → RadioSt) : (s.modRad d f).mem = s.mem := rfl
@[simp] theorem Dev.modRad_poison (s : Dev) (d : Fin 2) (f : RadioSt → RadioSt) :
    (s.modRad d f).poison = s.poison := rfl
@[simp] theorem Dev.modRad_ecc (s : Dev) (d : Fin 2) (f : RadioSt → RadioSt) : (s.modRad d f).ecc = s.ecc := rfl
@[simp] theorem Dev.modRad_bus (s : Dev) (d : Fin 2) (f : RadioSt → RadioSt) : (s.modRad d f).bus = s.bus := rfl
@[simp] theorem Dev.modRad_isl (s : Dev) (d : Fin 2) (f : RadioSt → RadioSt) : (s.modRad d f).isl = s.isl := rfl
@[simp] theorem Dev.modRad_ioIsl (s : Dev) (d : Fin 2) (f : RadioSt → RadioSt) : (s.modRad d f).ioIsl = s.ioIsl := rfl
@[simp] theorem Dev.modRad_pwr (s : Dev) (d : Fin 2) (f : RadioSt → RadioSt) : (s.modRad d f).pwr = s.pwr := rfl
@[simp] theorem Dev.modRad_ldg (s : Dev) (d : Fin 2) (f : RadioSt → RadioSt) : (s.modRad d f).ldg = s.ldg := rfl
@[simp] theorem Dev.modRad_die (s : Dev) (d : Fin 2) (f : RadioSt → RadioSt) : (s.modRad d f).die = s.die := rfl
@[simp] theorem Dev.modRad_core (s : Dev) (d : Fin 2) (f : RadioSt → RadioSt) : (s.modRad d f).core = s.core := rfl
@[simp] theorem Dev.modRad_gal (s : Dev) (d : Fin 2) (f : RadioSt → RadioSt) : (s.modRad d f).gal = s.gal := rfl
@[simp] theorem Dev.modRad_hub (s : Dev) (d : Fin 2) (f : RadioSt → RadioSt) : (s.modRad d f).hub = s.hub := rfl
@[simp] theorem Dev.modRad_time (s : Dev) (d : Fin 2) (f : RadioSt → RadioSt) : (s.modRad d f).time = s.time := rfl
@[simp] theorem Dev.modRad_tt (s : Dev) (d : Fin 2) (f : RadioSt → RadioSt) : (s.modRad d f).tt = s.tt := rfl
@[simp] theorem Dev.modRad_wdogWarn (s : Dev) (d : Fin 2) (f : RadioSt → RadioSt) :
    (s.modRad d f).wdogWarn = s.wdogWarn := rfl
@[simp] theorem Dev.modRad_host (s : Dev) (d : Fin 2) (f : RadioSt → RadioSt) : (s.modRad d f).host = s.host := rfl
@[simp] theorem Dev.modRad_mtr (s : Dev) (d : Fin 2) (f : RadioSt → RadioSt) : (s.modRad d f).mtr = s.mtr := rfl
@[simp] theorem Dev.modRad_aco (s : Dev) (d : Fin 2) (f : RadioSt → RadioSt) : (s.modRad d f).aco = s.aco := rfl
@[simp] theorem Dev.modRad_trk (s : Dev) (d : Fin 2) (f : RadioSt → RadioSt) : (s.modRad d f).trk = s.trk := rfl
@[simp] theorem Dev.modRad_ser (s : Dev) (d : Fin 2) (f : RadioSt → RadioSt) : (s.modRad d f).ser = s.ser := rfl
@[simp] theorem Dev.modRad_test (s : Dev) (d : Fin 2) (f : RadioSt → RadioSt) : (s.modRad d f).test = s.test := rfl

/-! ### modMtr -/

@[simp] theorem Dev.modMtr_asm (s : Dev) (d : Fin 2) (f : MtrSt → MtrSt) : (s.modMtr d f).asm = s.asm := rfl
@[simp] theorem Dev.modMtr_free (s : Dev) (d : Fin 2) (f : MtrSt → MtrSt) : (s.modMtr d f).free = s.free := rfl
@[simp] theorem Dev.modMtr_regs (s : Dev) (d : Fin 2) (f : MtrSt → MtrSt) : (s.modMtr d f).regs = s.regs := rfl
@[simp] theorem Dev.modMtr_mem (s : Dev) (d : Fin 2) (f : MtrSt → MtrSt) : (s.modMtr d f).mem = s.mem := rfl
@[simp] theorem Dev.modMtr_poison (s : Dev) (d : Fin 2) (f : MtrSt → MtrSt) : (s.modMtr d f).poison = s.poison := rfl
@[simp] theorem Dev.modMtr_ecc (s : Dev) (d : Fin 2) (f : MtrSt → MtrSt) : (s.modMtr d f).ecc = s.ecc := rfl
@[simp] theorem Dev.modMtr_bus (s : Dev) (d : Fin 2) (f : MtrSt → MtrSt) : (s.modMtr d f).bus = s.bus := rfl
@[simp] theorem Dev.modMtr_isl (s : Dev) (d : Fin 2) (f : MtrSt → MtrSt) : (s.modMtr d f).isl = s.isl := rfl
@[simp] theorem Dev.modMtr_ioIsl (s : Dev) (d : Fin 2) (f : MtrSt → MtrSt) : (s.modMtr d f).ioIsl = s.ioIsl := rfl
@[simp] theorem Dev.modMtr_pwr (s : Dev) (d : Fin 2) (f : MtrSt → MtrSt) : (s.modMtr d f).pwr = s.pwr := rfl
@[simp] theorem Dev.modMtr_ldg (s : Dev) (d : Fin 2) (f : MtrSt → MtrSt) : (s.modMtr d f).ldg = s.ldg := rfl
@[simp] theorem Dev.modMtr_die (s : Dev) (d : Fin 2) (f : MtrSt → MtrSt) : (s.modMtr d f).die = s.die := rfl
@[simp] theorem Dev.modMtr_core (s : Dev) (d : Fin 2) (f : MtrSt → MtrSt) : (s.modMtr d f).core = s.core := rfl
@[simp] theorem Dev.modMtr_gal (s : Dev) (d : Fin 2) (f : MtrSt → MtrSt) : (s.modMtr d f).gal = s.gal := rfl
@[simp] theorem Dev.modMtr_hub (s : Dev) (d : Fin 2) (f : MtrSt → MtrSt) : (s.modMtr d f).hub = s.hub := rfl
@[simp] theorem Dev.modMtr_time (s : Dev) (d : Fin 2) (f : MtrSt → MtrSt) : (s.modMtr d f).time = s.time := rfl
@[simp] theorem Dev.modMtr_tt (s : Dev) (d : Fin 2) (f : MtrSt → MtrSt) : (s.modMtr d f).tt = s.tt := rfl
@[simp] theorem Dev.modMtr_rad (s : Dev) (d : Fin 2) (f : MtrSt → MtrSt) : (s.modMtr d f).rad = s.rad := rfl
@[simp] theorem Dev.modMtr_wdogWarn (s : Dev) (d : Fin 2) (f : MtrSt → MtrSt) :
    (s.modMtr d f).wdogWarn = s.wdogWarn := rfl
@[simp] theorem Dev.modMtr_host (s : Dev) (d : Fin 2) (f : MtrSt → MtrSt) : (s.modMtr d f).host = s.host := rfl
@[simp] theorem Dev.modMtr_aco (s : Dev) (d : Fin 2) (f : MtrSt → MtrSt) : (s.modMtr d f).aco = s.aco := rfl
@[simp] theorem Dev.modMtr_trk (s : Dev) (d : Fin 2) (f : MtrSt → MtrSt) : (s.modMtr d f).trk = s.trk := rfl
@[simp] theorem Dev.modMtr_ser (s : Dev) (d : Fin 2) (f : MtrSt → MtrSt) : (s.modMtr d f).ser = s.ser := rfl
@[simp] theorem Dev.modMtr_test (s : Dev) (d : Fin 2) (f : MtrSt → MtrSt) : (s.modMtr d f).test = s.test := rfl

/-! ### modAco -/

@[simp] theorem Dev.modAco_asm (s : Dev) (d : Fin 2) (f : AcoSt → AcoSt) : (s.modAco d f).asm = s.asm := rfl
@[simp] theorem Dev.modAco_free (s : Dev) (d : Fin 2) (f : AcoSt → AcoSt) : (s.modAco d f).free = s.free := rfl
@[simp] theorem Dev.modAco_regs (s : Dev) (d : Fin 2) (f : AcoSt → AcoSt) : (s.modAco d f).regs = s.regs := rfl
@[simp] theorem Dev.modAco_mem (s : Dev) (d : Fin 2) (f : AcoSt → AcoSt) : (s.modAco d f).mem = s.mem := rfl
@[simp] theorem Dev.modAco_poison (s : Dev) (d : Fin 2) (f : AcoSt → AcoSt) : (s.modAco d f).poison = s.poison := rfl
@[simp] theorem Dev.modAco_ecc (s : Dev) (d : Fin 2) (f : AcoSt → AcoSt) : (s.modAco d f).ecc = s.ecc := rfl
@[simp] theorem Dev.modAco_bus (s : Dev) (d : Fin 2) (f : AcoSt → AcoSt) : (s.modAco d f).bus = s.bus := rfl
@[simp] theorem Dev.modAco_isl (s : Dev) (d : Fin 2) (f : AcoSt → AcoSt) : (s.modAco d f).isl = s.isl := rfl
@[simp] theorem Dev.modAco_ioIsl (s : Dev) (d : Fin 2) (f : AcoSt → AcoSt) : (s.modAco d f).ioIsl = s.ioIsl := rfl
@[simp] theorem Dev.modAco_pwr (s : Dev) (d : Fin 2) (f : AcoSt → AcoSt) : (s.modAco d f).pwr = s.pwr := rfl
@[simp] theorem Dev.modAco_ldg (s : Dev) (d : Fin 2) (f : AcoSt → AcoSt) : (s.modAco d f).ldg = s.ldg := rfl
@[simp] theorem Dev.modAco_die (s : Dev) (d : Fin 2) (f : AcoSt → AcoSt) : (s.modAco d f).die = s.die := rfl
@[simp] theorem Dev.modAco_core (s : Dev) (d : Fin 2) (f : AcoSt → AcoSt) : (s.modAco d f).core = s.core := rfl
@[simp] theorem Dev.modAco_gal (s : Dev) (d : Fin 2) (f : AcoSt → AcoSt) : (s.modAco d f).gal = s.gal := rfl
@[simp] theorem Dev.modAco_hub (s : Dev) (d : Fin 2) (f : AcoSt → AcoSt) : (s.modAco d f).hub = s.hub := rfl
@[simp] theorem Dev.modAco_time (s : Dev) (d : Fin 2) (f : AcoSt → AcoSt) : (s.modAco d f).time = s.time := rfl
@[simp] theorem Dev.modAco_tt (s : Dev) (d : Fin 2) (f : AcoSt → AcoSt) : (s.modAco d f).tt = s.tt := rfl
@[simp] theorem Dev.modAco_rad (s : Dev) (d : Fin 2) (f : AcoSt → AcoSt) : (s.modAco d f).rad = s.rad := rfl
@[simp] theorem Dev.modAco_wdogWarn (s : Dev) (d : Fin 2) (f : AcoSt → AcoSt) :
    (s.modAco d f).wdogWarn = s.wdogWarn := rfl
@[simp] theorem Dev.modAco_host (s : Dev) (d : Fin 2) (f : AcoSt → AcoSt) : (s.modAco d f).host = s.host := rfl
@[simp] theorem Dev.modAco_mtr (s : Dev) (d : Fin 2) (f : AcoSt → AcoSt) : (s.modAco d f).mtr = s.mtr := rfl
@[simp] theorem Dev.modAco_trk (s : Dev) (d : Fin 2) (f : AcoSt → AcoSt) : (s.modAco d f).trk = s.trk := rfl
@[simp] theorem Dev.modAco_ser (s : Dev) (d : Fin 2) (f : AcoSt → AcoSt) : (s.modAco d f).ser = s.ser := rfl
@[simp] theorem Dev.modAco_test (s : Dev) (d : Fin 2) (f : AcoSt → AcoSt) : (s.modAco d f).test = s.test := rfl

/-! ### modTrk -/

@[simp] theorem Dev.modTrk_asm (s : Dev) (d : Fin 2) (f : TrunkSt → TrunkSt) : (s.modTrk d f).asm = s.asm := rfl
@[simp] theorem Dev.modTrk_free (s : Dev) (d : Fin 2) (f : TrunkSt → TrunkSt) : (s.modTrk d f).free = s.free := rfl
@[simp] theorem Dev.modTrk_regs (s : Dev) (d : Fin 2) (f : TrunkSt → TrunkSt) : (s.modTrk d f).regs = s.regs := rfl
@[simp] theorem Dev.modTrk_mem (s : Dev) (d : Fin 2) (f : TrunkSt → TrunkSt) : (s.modTrk d f).mem = s.mem := rfl
@[simp] theorem Dev.modTrk_poison (s : Dev) (d : Fin 2) (f : TrunkSt → TrunkSt) :
    (s.modTrk d f).poison = s.poison := rfl
@[simp] theorem Dev.modTrk_ecc (s : Dev) (d : Fin 2) (f : TrunkSt → TrunkSt) : (s.modTrk d f).ecc = s.ecc := rfl
@[simp] theorem Dev.modTrk_bus (s : Dev) (d : Fin 2) (f : TrunkSt → TrunkSt) : (s.modTrk d f).bus = s.bus := rfl
@[simp] theorem Dev.modTrk_isl (s : Dev) (d : Fin 2) (f : TrunkSt → TrunkSt) : (s.modTrk d f).isl = s.isl := rfl
@[simp] theorem Dev.modTrk_ioIsl (s : Dev) (d : Fin 2) (f : TrunkSt → TrunkSt) : (s.modTrk d f).ioIsl = s.ioIsl := rfl
@[simp] theorem Dev.modTrk_pwr (s : Dev) (d : Fin 2) (f : TrunkSt → TrunkSt) : (s.modTrk d f).pwr = s.pwr := rfl
@[simp] theorem Dev.modTrk_ldg (s : Dev) (d : Fin 2) (f : TrunkSt → TrunkSt) : (s.modTrk d f).ldg = s.ldg := rfl
@[simp] theorem Dev.modTrk_die (s : Dev) (d : Fin 2) (f : TrunkSt → TrunkSt) : (s.modTrk d f).die = s.die := rfl
@[simp] theorem Dev.modTrk_core (s : Dev) (d : Fin 2) (f : TrunkSt → TrunkSt) : (s.modTrk d f).core = s.core := rfl
@[simp] theorem Dev.modTrk_gal (s : Dev) (d : Fin 2) (f : TrunkSt → TrunkSt) : (s.modTrk d f).gal = s.gal := rfl
@[simp] theorem Dev.modTrk_hub (s : Dev) (d : Fin 2) (f : TrunkSt → TrunkSt) : (s.modTrk d f).hub = s.hub := rfl
@[simp] theorem Dev.modTrk_time (s : Dev) (d : Fin 2) (f : TrunkSt → TrunkSt) : (s.modTrk d f).time = s.time := rfl
@[simp] theorem Dev.modTrk_tt (s : Dev) (d : Fin 2) (f : TrunkSt → TrunkSt) : (s.modTrk d f).tt = s.tt := rfl
@[simp] theorem Dev.modTrk_rad (s : Dev) (d : Fin 2) (f : TrunkSt → TrunkSt) : (s.modTrk d f).rad = s.rad := rfl
@[simp] theorem Dev.modTrk_wdogWarn (s : Dev) (d : Fin 2) (f : TrunkSt → TrunkSt) :
    (s.modTrk d f).wdogWarn = s.wdogWarn := rfl
@[simp] theorem Dev.modTrk_host (s : Dev) (d : Fin 2) (f : TrunkSt → TrunkSt) : (s.modTrk d f).host = s.host := rfl
@[simp] theorem Dev.modTrk_mtr (s : Dev) (d : Fin 2) (f : TrunkSt → TrunkSt) : (s.modTrk d f).mtr = s.mtr := rfl
@[simp] theorem Dev.modTrk_aco (s : Dev) (d : Fin 2) (f : TrunkSt → TrunkSt) : (s.modTrk d f).aco = s.aco := rfl
@[simp] theorem Dev.modTrk_ser (s : Dev) (d : Fin 2) (f : TrunkSt → TrunkSt) : (s.modTrk d f).ser = s.ser := rfl
@[simp] theorem Dev.modTrk_test (s : Dev) (d : Fin 2) (f : TrunkSt → TrunkSt) : (s.modTrk d f).test = s.test := rfl

/-! ### modSer -/

@[simp] theorem Dev.modSer_asm (s : Dev) (d : Fin 2) (f : SerSt → SerSt) : (s.modSer d f).asm = s.asm := rfl
@[simp] theorem Dev.modSer_free (s : Dev) (d : Fin 2) (f : SerSt → SerSt) : (s.modSer d f).free = s.free := rfl
@[simp] theorem Dev.modSer_regs (s : Dev) (d : Fin 2) (f : SerSt → SerSt) : (s.modSer d f).regs = s.regs := rfl
@[simp] theorem Dev.modSer_mem (s : Dev) (d : Fin 2) (f : SerSt → SerSt) : (s.modSer d f).mem = s.mem := rfl
@[simp] theorem Dev.modSer_poison (s : Dev) (d : Fin 2) (f : SerSt → SerSt) : (s.modSer d f).poison = s.poison := rfl
@[simp] theorem Dev.modSer_ecc (s : Dev) (d : Fin 2) (f : SerSt → SerSt) : (s.modSer d f).ecc = s.ecc := rfl
@[simp] theorem Dev.modSer_bus (s : Dev) (d : Fin 2) (f : SerSt → SerSt) : (s.modSer d f).bus = s.bus := rfl
@[simp] theorem Dev.modSer_isl (s : Dev) (d : Fin 2) (f : SerSt → SerSt) : (s.modSer d f).isl = s.isl := rfl
@[simp] theorem Dev.modSer_ioIsl (s : Dev) (d : Fin 2) (f : SerSt → SerSt) : (s.modSer d f).ioIsl = s.ioIsl := rfl
@[simp] theorem Dev.modSer_pwr (s : Dev) (d : Fin 2) (f : SerSt → SerSt) : (s.modSer d f).pwr = s.pwr := rfl
@[simp] theorem Dev.modSer_ldg (s : Dev) (d : Fin 2) (f : SerSt → SerSt) : (s.modSer d f).ldg = s.ldg := rfl
@[simp] theorem Dev.modSer_die (s : Dev) (d : Fin 2) (f : SerSt → SerSt) : (s.modSer d f).die = s.die := rfl
@[simp] theorem Dev.modSer_core (s : Dev) (d : Fin 2) (f : SerSt → SerSt) : (s.modSer d f).core = s.core := rfl
@[simp] theorem Dev.modSer_gal (s : Dev) (d : Fin 2) (f : SerSt → SerSt) : (s.modSer d f).gal = s.gal := rfl
@[simp] theorem Dev.modSer_hub (s : Dev) (d : Fin 2) (f : SerSt → SerSt) : (s.modSer d f).hub = s.hub := rfl
@[simp] theorem Dev.modSer_time (s : Dev) (d : Fin 2) (f : SerSt → SerSt) : (s.modSer d f).time = s.time := rfl
@[simp] theorem Dev.modSer_tt (s : Dev) (d : Fin 2) (f : SerSt → SerSt) : (s.modSer d f).tt = s.tt := rfl
@[simp] theorem Dev.modSer_rad (s : Dev) (d : Fin 2) (f : SerSt → SerSt) : (s.modSer d f).rad = s.rad := rfl
@[simp] theorem Dev.modSer_wdogWarn (s : Dev) (d : Fin 2) (f : SerSt → SerSt) :
    (s.modSer d f).wdogWarn = s.wdogWarn := rfl
@[simp] theorem Dev.modSer_host (s : Dev) (d : Fin 2) (f : SerSt → SerSt) : (s.modSer d f).host = s.host := rfl
@[simp] theorem Dev.modSer_mtr (s : Dev) (d : Fin 2) (f : SerSt → SerSt) : (s.modSer d f).mtr = s.mtr := rfl
@[simp] theorem Dev.modSer_aco (s : Dev) (d : Fin 2) (f : SerSt → SerSt) : (s.modSer d f).aco = s.aco := rfl
@[simp] theorem Dev.modSer_trk (s : Dev) (d : Fin 2) (f : SerSt → SerSt) : (s.modSer d f).trk = s.trk := rfl
@[simp] theorem Dev.modSer_test (s : Dev) (d : Fin 2) (f : SerSt → SerSt) : (s.modSer d f).test = s.test := rfl

/-! ### modArr -/

@[simp] theorem Dev.modArr_asm (s : Dev) (g : Fin 6) (f : ArraySt → ArraySt) : (s.modArr g f).asm = s.asm := rfl
@[simp] theorem Dev.modArr_free (s : Dev) (g : Fin 6) (f : ArraySt → ArraySt) : (s.modArr g f).free = s.free := rfl
@[simp] theorem Dev.modArr_regs (s : Dev) (g : Fin 6) (f : ArraySt → ArraySt) : (s.modArr g f).regs = s.regs := rfl
@[simp] theorem Dev.modArr_mem (s : Dev) (g : Fin 6) (f : ArraySt → ArraySt) : (s.modArr g f).mem = s.mem := rfl
@[simp] theorem Dev.modArr_poison (s : Dev) (g : Fin 6) (f : ArraySt → ArraySt) :
    (s.modArr g f).poison = s.poison := rfl
@[simp] theorem Dev.modArr_ecc (s : Dev) (g : Fin 6) (f : ArraySt → ArraySt) : (s.modArr g f).ecc = s.ecc := rfl
@[simp] theorem Dev.modArr_bus (s : Dev) (g : Fin 6) (f : ArraySt → ArraySt) : (s.modArr g f).bus = s.bus := rfl
@[simp] theorem Dev.modArr_isl (s : Dev) (g : Fin 6) (f : ArraySt → ArraySt) : (s.modArr g f).isl = s.isl := rfl
@[simp] theorem Dev.modArr_ioIsl (s : Dev) (g : Fin 6) (f : ArraySt → ArraySt) : (s.modArr g f).ioIsl = s.ioIsl := rfl
@[simp] theorem Dev.modArr_pwr (s : Dev) (g : Fin 6) (f : ArraySt → ArraySt) : (s.modArr g f).pwr = s.pwr := rfl
@[simp] theorem Dev.modArr_ldg (s : Dev) (g : Fin 6) (f : ArraySt → ArraySt) : (s.modArr g f).ldg = s.ldg := rfl
@[simp] theorem Dev.modArr_die (s : Dev) (g : Fin 6) (f : ArraySt → ArraySt) : (s.modArr g f).die = s.die := rfl
@[simp] theorem Dev.modArr_core (s : Dev) (g : Fin 6) (f : ArraySt → ArraySt) : (s.modArr g f).core = s.core := rfl
@[simp] theorem Dev.modArr_hub (s : Dev) (g : Fin 6) (f : ArraySt → ArraySt) : (s.modArr g f).hub = s.hub := rfl
@[simp] theorem Dev.modArr_time (s : Dev) (g : Fin 6) (f : ArraySt → ArraySt) : (s.modArr g f).time = s.time := rfl
@[simp] theorem Dev.modArr_tt (s : Dev) (g : Fin 6) (f : ArraySt → ArraySt) : (s.modArr g f).tt = s.tt := rfl
@[simp] theorem Dev.modArr_rad (s : Dev) (g : Fin 6) (f : ArraySt → ArraySt) : (s.modArr g f).rad = s.rad := rfl
@[simp] theorem Dev.modArr_wdogWarn (s : Dev) (g : Fin 6) (f : ArraySt → ArraySt) :
    (s.modArr g f).wdogWarn = s.wdogWarn := rfl
@[simp] theorem Dev.modArr_host (s : Dev) (g : Fin 6) (f : ArraySt → ArraySt) : (s.modArr g f).host = s.host := rfl
@[simp] theorem Dev.modArr_mtr (s : Dev) (g : Fin 6) (f : ArraySt → ArraySt) : (s.modArr g f).mtr = s.mtr := rfl
@[simp] theorem Dev.modArr_aco (s : Dev) (g : Fin 6) (f : ArraySt → ArraySt) : (s.modArr g f).aco = s.aco := rfl
@[simp] theorem Dev.modArr_trk (s : Dev) (g : Fin 6) (f : ArraySt → ArraySt) : (s.modArr g f).trk = s.trk := rfl
@[simp] theorem Dev.modArr_ser (s : Dev) (g : Fin 6) (f : ArraySt → ArraySt) : (s.modArr g f).ser = s.ser := rfl
@[simp] theorem Dev.modArr_test (s : Dev) (g : Fin 6) (f : ArraySt → ArraySt) : (s.modArr g f).test = s.test := rfl

/-! ### modEp -/

@[simp] theorem Dev.modEp_asm (s : Dev) (g : Fin 6) (f : EpochSt → EpochSt) : (s.modEp g f).asm = s.asm := rfl
@[simp] theorem Dev.modEp_free (s : Dev) (g : Fin 6) (f : EpochSt → EpochSt) : (s.modEp g f).free = s.free := rfl
@[simp] theorem Dev.modEp_regs (s : Dev) (g : Fin 6) (f : EpochSt → EpochSt) : (s.modEp g f).regs = s.regs := rfl
@[simp] theorem Dev.modEp_mem (s : Dev) (g : Fin 6) (f : EpochSt → EpochSt) : (s.modEp g f).mem = s.mem := rfl
@[simp] theorem Dev.modEp_poison (s : Dev) (g : Fin 6) (f : EpochSt → EpochSt) :
    (s.modEp g f).poison = s.poison := rfl
@[simp] theorem Dev.modEp_ecc (s : Dev) (g : Fin 6) (f : EpochSt → EpochSt) : (s.modEp g f).ecc = s.ecc := rfl
@[simp] theorem Dev.modEp_bus (s : Dev) (g : Fin 6) (f : EpochSt → EpochSt) : (s.modEp g f).bus = s.bus := rfl
@[simp] theorem Dev.modEp_isl (s : Dev) (g : Fin 6) (f : EpochSt → EpochSt) : (s.modEp g f).isl = s.isl := rfl
@[simp] theorem Dev.modEp_ioIsl (s : Dev) (g : Fin 6) (f : EpochSt → EpochSt) : (s.modEp g f).ioIsl = s.ioIsl := rfl
@[simp] theorem Dev.modEp_pwr (s : Dev) (g : Fin 6) (f : EpochSt → EpochSt) : (s.modEp g f).pwr = s.pwr := rfl
@[simp] theorem Dev.modEp_ldg (s : Dev) (g : Fin 6) (f : EpochSt → EpochSt) : (s.modEp g f).ldg = s.ldg := rfl
@[simp] theorem Dev.modEp_die (s : Dev) (g : Fin 6) (f : EpochSt → EpochSt) : (s.modEp g f).die = s.die := rfl
@[simp] theorem Dev.modEp_core (s : Dev) (g : Fin 6) (f : EpochSt → EpochSt) : (s.modEp g f).core = s.core := rfl
@[simp] theorem Dev.modEp_hub (s : Dev) (g : Fin 6) (f : EpochSt → EpochSt) : (s.modEp g f).hub = s.hub := rfl
@[simp] theorem Dev.modEp_time (s : Dev) (g : Fin 6) (f : EpochSt → EpochSt) : (s.modEp g f).time = s.time := rfl
@[simp] theorem Dev.modEp_tt (s : Dev) (g : Fin 6) (f : EpochSt → EpochSt) : (s.modEp g f).tt = s.tt := rfl
@[simp] theorem Dev.modEp_rad (s : Dev) (g : Fin 6) (f : EpochSt → EpochSt) : (s.modEp g f).rad = s.rad := rfl
@[simp] theorem Dev.modEp_wdogWarn (s : Dev) (g : Fin 6) (f : EpochSt → EpochSt) :
    (s.modEp g f).wdogWarn = s.wdogWarn := rfl
@[simp] theorem Dev.modEp_host (s : Dev) (g : Fin 6) (f : EpochSt → EpochSt) : (s.modEp g f).host = s.host := rfl
@[simp] theorem Dev.modEp_mtr (s : Dev) (g : Fin 6) (f : EpochSt → EpochSt) : (s.modEp g f).mtr = s.mtr := rfl
@[simp] theorem Dev.modEp_aco (s : Dev) (g : Fin 6) (f : EpochSt → EpochSt) : (s.modEp g f).aco = s.aco := rfl
@[simp] theorem Dev.modEp_trk (s : Dev) (g : Fin 6) (f : EpochSt → EpochSt) : (s.modEp g f).trk = s.trk := rfl
@[simp] theorem Dev.modEp_ser (s : Dev) (g : Fin 6) (f : EpochSt → EpochSt) : (s.modEp g f).ser = s.ser := rfl
@[simp] theorem Dev.modEp_test (s : Dev) (g : Fin 6) (f : EpochSt → EpochSt) : (s.modEp g f).test = s.test := rfl

/-! ### modVec -/

@[simp] theorem Dev.modVec_asm (s : Dev) (g : Fin 6) (f : VecSt → VecSt) : (s.modVec g f).asm = s.asm := rfl
@[simp] theorem Dev.modVec_free (s : Dev) (g : Fin 6) (f : VecSt → VecSt) : (s.modVec g f).free = s.free := rfl
@[simp] theorem Dev.modVec_regs (s : Dev) (g : Fin 6) (f : VecSt → VecSt) : (s.modVec g f).regs = s.regs := rfl
@[simp] theorem Dev.modVec_mem (s : Dev) (g : Fin 6) (f : VecSt → VecSt) : (s.modVec g f).mem = s.mem := rfl
@[simp] theorem Dev.modVec_poison (s : Dev) (g : Fin 6) (f : VecSt → VecSt) : (s.modVec g f).poison = s.poison := rfl
@[simp] theorem Dev.modVec_ecc (s : Dev) (g : Fin 6) (f : VecSt → VecSt) : (s.modVec g f).ecc = s.ecc := rfl
@[simp] theorem Dev.modVec_bus (s : Dev) (g : Fin 6) (f : VecSt → VecSt) : (s.modVec g f).bus = s.bus := rfl
@[simp] theorem Dev.modVec_isl (s : Dev) (g : Fin 6) (f : VecSt → VecSt) : (s.modVec g f).isl = s.isl := rfl
@[simp] theorem Dev.modVec_ioIsl (s : Dev) (g : Fin 6) (f : VecSt → VecSt) : (s.modVec g f).ioIsl = s.ioIsl := rfl
@[simp] theorem Dev.modVec_pwr (s : Dev) (g : Fin 6) (f : VecSt → VecSt) : (s.modVec g f).pwr = s.pwr := rfl
@[simp] theorem Dev.modVec_ldg (s : Dev) (g : Fin 6) (f : VecSt → VecSt) : (s.modVec g f).ldg = s.ldg := rfl
@[simp] theorem Dev.modVec_die (s : Dev) (g : Fin 6) (f : VecSt → VecSt) : (s.modVec g f).die = s.die := rfl
@[simp] theorem Dev.modVec_core (s : Dev) (g : Fin 6) (f : VecSt → VecSt) : (s.modVec g f).core = s.core := rfl
@[simp] theorem Dev.modVec_hub (s : Dev) (g : Fin 6) (f : VecSt → VecSt) : (s.modVec g f).hub = s.hub := rfl
@[simp] theorem Dev.modVec_time (s : Dev) (g : Fin 6) (f : VecSt → VecSt) : (s.modVec g f).time = s.time := rfl
@[simp] theorem Dev.modVec_tt (s : Dev) (g : Fin 6) (f : VecSt → VecSt) : (s.modVec g f).tt = s.tt := rfl
@[simp] theorem Dev.modVec_rad (s : Dev) (g : Fin 6) (f : VecSt → VecSt) : (s.modVec g f).rad = s.rad := rfl
@[simp] theorem Dev.modVec_wdogWarn (s : Dev) (g : Fin 6) (f : VecSt → VecSt) :
    (s.modVec g f).wdogWarn = s.wdogWarn := rfl
@[simp] theorem Dev.modVec_host (s : Dev) (g : Fin 6) (f : VecSt → VecSt) : (s.modVec g f).host = s.host := rfl
@[simp] theorem Dev.modVec_mtr (s : Dev) (g : Fin 6) (f : VecSt → VecSt) : (s.modVec g f).mtr = s.mtr := rfl
@[simp] theorem Dev.modVec_aco (s : Dev) (g : Fin 6) (f : VecSt → VecSt) : (s.modVec g f).aco = s.aco := rfl
@[simp] theorem Dev.modVec_trk (s : Dev) (g : Fin 6) (f : VecSt → VecSt) : (s.modVec g f).trk = s.trk := rfl
@[simp] theorem Dev.modVec_ser (s : Dev) (g : Fin 6) (f : VecSt → VecSt) : (s.modVec g f).ser = s.ser := rfl
@[simp] theorem Dev.modVec_test (s : Dev) (g : Fin 6) (f : VecSt → VecSt) : (s.modVec g f).test = s.test := rfl

/-! ### modSkip -/

@[simp] theorem Dev.modSkip_asm (s : Dev) (g : Fin 6) (f : SkipSt → SkipSt) : (s.modSkip g f).asm = s.asm := rfl
@[simp] theorem Dev.modSkip_free (s : Dev) (g : Fin 6) (f : SkipSt → SkipSt) : (s.modSkip g f).free = s.free := rfl
@[simp] theorem Dev.modSkip_regs (s : Dev) (g : Fin 6) (f : SkipSt → SkipSt) : (s.modSkip g f).regs = s.regs := rfl
@[simp] theorem Dev.modSkip_mem (s : Dev) (g : Fin 6) (f : SkipSt → SkipSt) : (s.modSkip g f).mem = s.mem := rfl
@[simp] theorem Dev.modSkip_poison (s : Dev) (g : Fin 6) (f : SkipSt → SkipSt) :
    (s.modSkip g f).poison = s.poison := rfl
@[simp] theorem Dev.modSkip_ecc (s : Dev) (g : Fin 6) (f : SkipSt → SkipSt) : (s.modSkip g f).ecc = s.ecc := rfl
@[simp] theorem Dev.modSkip_bus (s : Dev) (g : Fin 6) (f : SkipSt → SkipSt) : (s.modSkip g f).bus = s.bus := rfl
@[simp] theorem Dev.modSkip_isl (s : Dev) (g : Fin 6) (f : SkipSt → SkipSt) : (s.modSkip g f).isl = s.isl := rfl
@[simp] theorem Dev.modSkip_ioIsl (s : Dev) (g : Fin 6) (f : SkipSt → SkipSt) : (s.modSkip g f).ioIsl = s.ioIsl := rfl
@[simp] theorem Dev.modSkip_pwr (s : Dev) (g : Fin 6) (f : SkipSt → SkipSt) : (s.modSkip g f).pwr = s.pwr := rfl
@[simp] theorem Dev.modSkip_ldg (s : Dev) (g : Fin 6) (f : SkipSt → SkipSt) : (s.modSkip g f).ldg = s.ldg := rfl
@[simp] theorem Dev.modSkip_die (s : Dev) (g : Fin 6) (f : SkipSt → SkipSt) : (s.modSkip g f).die = s.die := rfl
@[simp] theorem Dev.modSkip_core (s : Dev) (g : Fin 6) (f : SkipSt → SkipSt) : (s.modSkip g f).core = s.core := rfl
@[simp] theorem Dev.modSkip_hub (s : Dev) (g : Fin 6) (f : SkipSt → SkipSt) : (s.modSkip g f).hub = s.hub := rfl
@[simp] theorem Dev.modSkip_time (s : Dev) (g : Fin 6) (f : SkipSt → SkipSt) : (s.modSkip g f).time = s.time := rfl
@[simp] theorem Dev.modSkip_tt (s : Dev) (g : Fin 6) (f : SkipSt → SkipSt) : (s.modSkip g f).tt = s.tt := rfl
@[simp] theorem Dev.modSkip_rad (s : Dev) (g : Fin 6) (f : SkipSt → SkipSt) : (s.modSkip g f).rad = s.rad := rfl
@[simp] theorem Dev.modSkip_wdogWarn (s : Dev) (g : Fin 6) (f : SkipSt → SkipSt) :
    (s.modSkip g f).wdogWarn = s.wdogWarn := rfl
@[simp] theorem Dev.modSkip_host (s : Dev) (g : Fin 6) (f : SkipSt → SkipSt) : (s.modSkip g f).host = s.host := rfl
@[simp] theorem Dev.modSkip_mtr (s : Dev) (g : Fin 6) (f : SkipSt → SkipSt) : (s.modSkip g f).mtr = s.mtr := rfl
@[simp] theorem Dev.modSkip_aco (s : Dev) (g : Fin 6) (f : SkipSt → SkipSt) : (s.modSkip g f).aco = s.aco := rfl
@[simp] theorem Dev.modSkip_trk (s : Dev) (g : Fin 6) (f : SkipSt → SkipSt) : (s.modSkip g f).trk = s.trk := rfl
@[simp] theorem Dev.modSkip_ser (s : Dev) (g : Fin 6) (f : SkipSt → SkipSt) : (s.modSkip g f).ser = s.ser := rfl
@[simp] theorem Dev.modSkip_test (s : Dev) (g : Fin 6) (f : SkipSt → SkipSt) : (s.modSkip g f).test = s.test := rfl

/-! ### modCar -/

@[simp] theorem Dev.modCar_asm (s : Dev) (g : Fin 6) (f : CarSt → CarSt) : (s.modCar g f).asm = s.asm := rfl
@[simp] theorem Dev.modCar_free (s : Dev) (g : Fin 6) (f : CarSt → CarSt) : (s.modCar g f).free = s.free := rfl
@[simp] theorem Dev.modCar_regs (s : Dev) (g : Fin 6) (f : CarSt → CarSt) : (s.modCar g f).regs = s.regs := rfl
@[simp] theorem Dev.modCar_mem (s : Dev) (g : Fin 6) (f : CarSt → CarSt) : (s.modCar g f).mem = s.mem := rfl
@[simp] theorem Dev.modCar_poison (s : Dev) (g : Fin 6) (f : CarSt → CarSt) : (s.modCar g f).poison = s.poison := rfl
@[simp] theorem Dev.modCar_ecc (s : Dev) (g : Fin 6) (f : CarSt → CarSt) : (s.modCar g f).ecc = s.ecc := rfl
@[simp] theorem Dev.modCar_bus (s : Dev) (g : Fin 6) (f : CarSt → CarSt) : (s.modCar g f).bus = s.bus := rfl
@[simp] theorem Dev.modCar_isl (s : Dev) (g : Fin 6) (f : CarSt → CarSt) : (s.modCar g f).isl = s.isl := rfl
@[simp] theorem Dev.modCar_ioIsl (s : Dev) (g : Fin 6) (f : CarSt → CarSt) : (s.modCar g f).ioIsl = s.ioIsl := rfl
@[simp] theorem Dev.modCar_pwr (s : Dev) (g : Fin 6) (f : CarSt → CarSt) : (s.modCar g f).pwr = s.pwr := rfl
@[simp] theorem Dev.modCar_ldg (s : Dev) (g : Fin 6) (f : CarSt → CarSt) : (s.modCar g f).ldg = s.ldg := rfl
@[simp] theorem Dev.modCar_die (s : Dev) (g : Fin 6) (f : CarSt → CarSt) : (s.modCar g f).die = s.die := rfl
@[simp] theorem Dev.modCar_core (s : Dev) (g : Fin 6) (f : CarSt → CarSt) : (s.modCar g f).core = s.core := rfl
@[simp] theorem Dev.modCar_hub (s : Dev) (g : Fin 6) (f : CarSt → CarSt) : (s.modCar g f).hub = s.hub := rfl
@[simp] theorem Dev.modCar_time (s : Dev) (g : Fin 6) (f : CarSt → CarSt) : (s.modCar g f).time = s.time := rfl
@[simp] theorem Dev.modCar_tt (s : Dev) (g : Fin 6) (f : CarSt → CarSt) : (s.modCar g f).tt = s.tt := rfl
@[simp] theorem Dev.modCar_rad (s : Dev) (g : Fin 6) (f : CarSt → CarSt) : (s.modCar g f).rad = s.rad := rfl
@[simp] theorem Dev.modCar_wdogWarn (s : Dev) (g : Fin 6) (f : CarSt → CarSt) :
    (s.modCar g f).wdogWarn = s.wdogWarn := rfl
@[simp] theorem Dev.modCar_host (s : Dev) (g : Fin 6) (f : CarSt → CarSt) : (s.modCar g f).host = s.host := rfl
@[simp] theorem Dev.modCar_mtr (s : Dev) (g : Fin 6) (f : CarSt → CarSt) : (s.modCar g f).mtr = s.mtr := rfl
@[simp] theorem Dev.modCar_aco (s : Dev) (g : Fin 6) (f : CarSt → CarSt) : (s.modCar g f).aco = s.aco := rfl
@[simp] theorem Dev.modCar_trk (s : Dev) (g : Fin 6) (f : CarSt → CarSt) : (s.modCar g f).trk = s.trk := rfl
@[simp] theorem Dev.modCar_ser (s : Dev) (g : Fin 6) (f : CarSt → CarSt) : (s.modCar g f).ser = s.ser := rfl
@[simp] theorem Dev.modCar_test (s : Dev) (g : Fin 6) (f : CarSt → CarSt) : (s.modCar g f).test = s.test := rfl

/-! ### draw -/

@[simp] theorem Dev.draw_asm (s : Dev) : s.draw.2.asm = s.asm := rfl
@[simp] theorem Dev.drawB_asm (s : Dev) : s.drawB.2.asm = s.asm := rfl
@[simp] theorem Dev.draw_regs (s : Dev) : s.draw.2.regs = s.regs := rfl
@[simp] theorem Dev.drawB_regs (s : Dev) : s.drawB.2.regs = s.regs := rfl
@[simp] theorem Dev.draw_mem (s : Dev) : s.draw.2.mem = s.mem := rfl
@[simp] theorem Dev.drawB_mem (s : Dev) : s.drawB.2.mem = s.mem := rfl
@[simp] theorem Dev.draw_poison (s : Dev) : s.draw.2.poison = s.poison := rfl
@[simp] theorem Dev.drawB_poison (s : Dev) : s.drawB.2.poison = s.poison := rfl
@[simp] theorem Dev.draw_ecc (s : Dev) : s.draw.2.ecc = s.ecc := rfl
@[simp] theorem Dev.drawB_ecc (s : Dev) : s.drawB.2.ecc = s.ecc := rfl
@[simp] theorem Dev.draw_bus (s : Dev) : s.draw.2.bus = s.bus := rfl
@[simp] theorem Dev.drawB_bus (s : Dev) : s.drawB.2.bus = s.bus := rfl
@[simp] theorem Dev.draw_isl (s : Dev) : s.draw.2.isl = s.isl := rfl
@[simp] theorem Dev.drawB_isl (s : Dev) : s.drawB.2.isl = s.isl := rfl
@[simp] theorem Dev.draw_ioIsl (s : Dev) : s.draw.2.ioIsl = s.ioIsl := rfl
@[simp] theorem Dev.drawB_ioIsl (s : Dev) : s.drawB.2.ioIsl = s.ioIsl := rfl
@[simp] theorem Dev.draw_pwr (s : Dev) : s.draw.2.pwr = s.pwr := rfl
@[simp] theorem Dev.drawB_pwr (s : Dev) : s.drawB.2.pwr = s.pwr := rfl
@[simp] theorem Dev.draw_ldg (s : Dev) : s.draw.2.ldg = s.ldg := rfl
@[simp] theorem Dev.drawB_ldg (s : Dev) : s.drawB.2.ldg = s.ldg := rfl
@[simp] theorem Dev.draw_die (s : Dev) : s.draw.2.die = s.die := rfl
@[simp] theorem Dev.drawB_die (s : Dev) : s.drawB.2.die = s.die := rfl
@[simp] theorem Dev.draw_core (s : Dev) : s.draw.2.core = s.core := rfl
@[simp] theorem Dev.drawB_core (s : Dev) : s.drawB.2.core = s.core := rfl
@[simp] theorem Dev.draw_gal (s : Dev) : s.draw.2.gal = s.gal := rfl
@[simp] theorem Dev.drawB_gal (s : Dev) : s.drawB.2.gal = s.gal := rfl
@[simp] theorem Dev.draw_hub (s : Dev) : s.draw.2.hub = s.hub := rfl
@[simp] theorem Dev.drawB_hub (s : Dev) : s.drawB.2.hub = s.hub := rfl
@[simp] theorem Dev.draw_time (s : Dev) : s.draw.2.time = s.time := rfl
@[simp] theorem Dev.drawB_time (s : Dev) : s.drawB.2.time = s.time := rfl
@[simp] theorem Dev.draw_tt (s : Dev) : s.draw.2.tt = s.tt := rfl
@[simp] theorem Dev.drawB_tt (s : Dev) : s.drawB.2.tt = s.tt := rfl
@[simp] theorem Dev.draw_rad (s : Dev) : s.draw.2.rad = s.rad := rfl
@[simp] theorem Dev.drawB_rad (s : Dev) : s.drawB.2.rad = s.rad := rfl
@[simp] theorem Dev.draw_wdogWarn (s : Dev) : s.draw.2.wdogWarn = s.wdogWarn := rfl
@[simp] theorem Dev.drawB_wdogWarn (s : Dev) : s.drawB.2.wdogWarn = s.wdogWarn := rfl
@[simp] theorem Dev.draw_host (s : Dev) : s.draw.2.host = s.host := rfl
@[simp] theorem Dev.drawB_host (s : Dev) : s.drawB.2.host = s.host := rfl
@[simp] theorem Dev.draw_mtr (s : Dev) : s.draw.2.mtr = s.mtr := rfl
@[simp] theorem Dev.drawB_mtr (s : Dev) : s.drawB.2.mtr = s.mtr := rfl
@[simp] theorem Dev.draw_aco (s : Dev) : s.draw.2.aco = s.aco := rfl
@[simp] theorem Dev.drawB_aco (s : Dev) : s.drawB.2.aco = s.aco := rfl
@[simp] theorem Dev.draw_trk (s : Dev) : s.draw.2.trk = s.trk := rfl
@[simp] theorem Dev.drawB_trk (s : Dev) : s.drawB.2.trk = s.trk := rfl
@[simp] theorem Dev.draw_ser (s : Dev) : s.draw.2.ser = s.ser := rfl
@[simp] theorem Dev.drawB_ser (s : Dev) : s.drawB.2.ser = s.ser := rfl
@[simp] theorem Dev.draw_test (s : Dev) : s.draw.2.test = s.test := rfl
@[simp] theorem Dev.drawB_test (s : Dev) : s.drawB.2.test = s.test := rfl

/-! ### Parts read after an update of one of them -/

@[simp] theorem Dev.modGal_gal_same (s : Dev) (g : Fin 6) (f : GalSt → GalSt) :
    vget (s.modGal g f).gal g = f (vget s.gal g) := vget_vmod_same _ _ _

theorem Dev.modGal_gal_ne (s : Dev) {g i : Fin 6} (f : GalSt → GalSt) (h : i ≠ g) :
    vget (s.modGal g f).gal i = vget s.gal i := vget_vmod_ne _ _ _ _ h

@[simp] theorem Dev.modCore_core_same (s : Dev) (c : Fin 8) (f : CoreSt → CoreSt) :
    vget (s.modCore c f).core c = f (vget s.core c) := vget_vmod_same _ _ _

theorem Dev.modCore_core_ne (s : Dev) {c i : Fin 8} (f : CoreSt → CoreSt) (h : i ≠ c) :
    vget (s.modCore c f).core i = vget s.core i := vget_vmod_ne _ _ _ _ h

@[simp] theorem Dev.modDie_die_same (s : Dev) (d : Fin 2) (f : DieSt → DieSt) :
    vget (s.modDie d f).die d = f (vget s.die d) := vget_vmod_same _ _ _

theorem Dev.modDie_die_ne (s : Dev) {d i : Fin 2} (f : DieSt → DieSt) (h : i ≠ d) :
    vget (s.modDie d f).die i = vget s.die i := vget_vmod_ne _ _ _ _ h

@[simp] theorem Dev.modHub_hub (s : Dev) (f : HubSt → HubSt) : (s.modHub f).hub = f s.hub := rfl

@[simp] theorem Dev.modHost_host (s : Dev) (f : HostSt → HostSt) : (s.modHost f).host = f s.host := rfl

@[simp] theorem Dev.modHc_hc_same (s : Dev) (c : Fin 4) (f : HostCore → HostCore) :
    (s.modHc c f).hc c = f (s.hc c) := vget_vmod_same _ _ _

theorem Dev.modHc_hc_ne (s : Dev) {c i : Fin 4} (f : HostCore → HostCore) (h : i ≠ c) :
    (s.modHc c f).hc i = s.hc i := vget_vmod_ne _ _ _ _ h

@[simp] theorem Dev.modPwr_pwr (s : Dev) (f : PowerSt → PowerSt) : (s.modPwr f).pwr = f s.pwr := rfl

@[simp] theorem Dev.modLdg_ldg (s : Dev) (f : LedgerSt → LedgerSt) : (s.modLdg f).ldg = f s.ldg := rfl

/-! ### Registers read after a write -/

/-- The register maps stay in rising order. -/
theorem Dev.wr_rising (s : Dev) (r : RegDef) (v k i j : Nat) (h : SMap.rising none s.regs = true) :
    SMap.rising none (s.wr r v k i j).regs = true := SMap.rising_set _ _ _ _ h

/-- Another key reads the same, whatever an unlisted one reads as. -/
theorem SMap.get_set_ne {α : Type} [DecidableEq α] (d e : α) {m : SMap α} {a b : Nat} (x : α)
    (h : SMap.rising none m = true) (hb : b ≠ a) : SMap.get e (SMap.set d m a x) b = SMap.get e m b := by
  unfold SMap.set
  split_ifs
  · rw [SMap.get_erase e m a b h, if_neg hb]
  · rw [SMap.get_insert, if_neg hb]

/-- A register holds what was written, in its width. -/
theorem Dev.wr_rg_same (s : Dev) (r : RegDef) (v k i j : Nat) (h : SMap.rising none s.regs = true) :
    (s.wr r v k i j).rg r k i j = v % 2 ^ r.w := by
  show SMap.get (r.rst s.asm k i j) (SMap.set (r.rst s.asm k i j) s.regs (r.addr k i j) (v % 2 ^ r.w)) (r.addr k i j) = _
  rw [SMap.get_set _ _ _ _ _ h, if_pos rfl]

/-- Every register at another address keeps its value. -/
theorem Dev.wr_rg_ne (s : Dev) (r q : RegDef) (v k i j k' i' j' : Nat) (h : SMap.rising none s.regs = true)
    (ha : q.addr k' i' j' ≠ r.addr k i j) : (s.wr r v k i j).rg q k' i' j' = s.rg q k' i' j' := by
  unfold Dev.rg Dev.wr
  simp only
  exact SMap.get_set_ne _ _ _ h ha

/-- A reset register holds its reset value. -/
theorem Dev.rstR_rg_same (s : Dev) (r : RegDef) (k i j : Nat) (h : SMap.rising none s.regs = true) :
    (s.rstR r k i j).rg r k i j = r.rst s.asm k i j := by
  show SMap.get (r.rst s.asm k i j) (SMap.erase s.regs (r.addr k i j)) (r.addr k i j) = _
  rw [SMap.get_erase _ _ _ _ h, if_pos rfl]

/-! ### Outcomes -/

/-- A command of the whole device runs its effect on the device. -/
theorem ok_next (f : Dev → Dev) (s : State) : ok f s = .next { s with dev := f s.dev } := rfl

/-- A command of an I/O die runs where the die is fitted. -/
theorem onDie_fitted (d : Fin 2) (f : Dev → Dev) (s : State) (h : s.dev.fitted d.val = true) :
    onDie d f s = .next { s with dev := f s.dev } := by simp [onDie, ok, h]

/-- I/O die 0 is fitted in every assembly. -/
theorem fitted_zero (s : Dev) : s.fitted 0 = true := by
  cases h : s.asm <;> simp [Dev.fitted, Asm.iodies, h]

/-- A command answers a next state with the queue as it was, or the fault of an I/O die that is not fitted. -/
theorem onDie_cases (d : Fin 2) (f : Dev → Dev) (s : State) :
    onDie d f s = .next { s with dev := f s.dev } ∨ (onDie d f s = .fault .unfitted ∧ s.dev.fitted d.val = false) := by
  unfold onDie ok
  split
  · exact .inl rfl
  · rename_i h
    exact .inr ⟨rfl, by simpa using h⟩

/-- The same of a command of a core. -/
theorem onCore_cases (c : Fin 8) (f : Dev → Dev) (s : State) :
    onCore c f s = .next { s with dev := f s.dev } ∨ (onCore c f s = .fault .unfitted ∧ s.dev.fitted 1 = false) := by
  unfold onCore ok
  split
  · rename_i h
    exact .inr ⟨rfl, by simpa using (Bool.and_eq_true_iff.mp h).2⟩
  · exact .inl rfl

end Sys2Proof.Machine
end

