-- ==== Sys2Proof/Tests/Slice0.lean ====
section
/-!
SUPPORT. The model's own tests: well-formedness, a witness for the hypotheses of every statement (`wit_`), and a
few steps with the results the spec gives (`test_`).
-/

namespace Sys2Proof.Tests

open Sys2Proof.Machine

/-! ### States -/

/-- Everything is powered, and every core runs at the start of its memory. -/
def up : Dev :=
  { Dev.reset .m4b with
    pwr := { (Dev.reset .m4b).pwr with phase := .on, gal := Vector.replicate 6 .run }
    isl := Vector.replicate 13 ⟨true, false, 0, false⟩
    ioIsl := Vector.replicate 2 (Vector.replicate 7 ⟨true, false, 0, false⟩)
    core := Vector.replicate 8 { CoreSt.init with run := .running, pc := 0x80000000 } }

/-- The same with core 0 changed. -/
def core0 (f : CoreSt → CoreSt) : Dev := { up with core := vmod up.core 0 f }

/-- Gallery 0 changed. -/
def gal0 (f : GalSt → GalSt) : Dev := { up with gal := vmod up.gal 0 f }

/-- Its array and its vector engine changed. -/
def arr0 (f : ArraySt → ArraySt) : Dev := gal0 fun y => { y with arr := f y.arr }

def vec0 (f : VecSt → VecSt) : Dev := gal0 fun y => { y with vec := f y.vec }

/-- Register `r` of core 0 holds `v`. -/
def put (s : Dev) (r : Fin 32) (v : Word) : Dev := s.modCore 0 fun x => { x with sr := vset x.sr r v }

/-- A store in the buffer, at the start of the atrium. -/
def sbe (n data : Nat) (held : Bool) : SbEntry := ⟨0x40000000, 0x40000000, n, data, held⟩

/-! ### Witnesses: scalar instructions -/

theorem wit_PlainInstructions :
    up.ready 0 { legal := true } = true ∧ (core0 fun x => { x with slot := some (0x7FFFFFFC, 0x80000100) }).ready 0
      { legal := true } = true ∧ (aluRow (.add 0 ⟨1, 2, 3⟩)).isSome ∧ (aluRow (.clz 0 ⟨1, 2, 0⟩)).isSome ∧
      (immRow (.lui 0 0 ⟨1, 0, 5⟩)).isSome := by decide

theorem wit_BranchesAndJumps :
    up.ready 0 branchForm = true ∧ (branchRow (.bltu 0 ⟨1, 2, 5⟩)).isSome ∧ ((1 : Fin 32) ≠ 2 ∨ (1 : Fin 32) = 0) ∧
      (((vget up.core 0).reg 2) + (BitVec.ofNat 16 8).signExtend 32).toNat % 4 = 0 ∧
      ((vget up.core 0).reg 2 + (BitVec.ofNat 16 2).signExtend 32).toNat % 4 ≠ 0 ∧
      up.readyWith 0 { branchForm with legal := false } (some .illegal) = true ∧ up.coreEp 0 = false := by decide

theorem wit_LoopSetup :
    up.ready 0 loopForm = true ∧ up.readyWith 0 { loopForm with legal := false } (some .illegal) = true ∧
      up.coreEp 0 = false := by decide

/-- A read of INSTRET in task mode's place of a supervisor, a write of EVEC, and a write of LC0 outside a loop. -/
theorem wit_CsrAccess :
    (csrRow (.csrrw 0 ⟨1, 2, 0, 0x004⟩)).isSome ∧ up.ready 0 { legal := true } = true ∧
      csrExc (vget up.core 0) 0x004 true = none ∧ csrExc (vget up.core 0) 0x012 true = none ∧
      (∀ k, vget (vget up.core 0).le k ≠ (vget up.core 0).pc.toNat) ∧ (∀ k, vget (vget up.core 0).lc k = 0) ∧
      csrBits 0 0x18 = some 0x3FF := by decide

theorem wit_FormTraps :
    (formRow (.clz 0 ⟨1, 2, 5⟩)).map (·.2.legal) = some false ∧
      up.readyWith 0 { legal := false } (some .illegal) = true ∧ (formRow (.beq 0 ⟨1, 2, 5⟩)).map (·.2.branch) = some true ∧
      (core0 fun x => { x with slot := some (0, 0) }).readyWith 0 branchForm (some .slot) = true ∧
      (core0 fun x => { x with status := 0 }).readyWith 0 { priv := true } (some .priv) = true ∧
      up.coreEp 0 = false := by decide

theorem wit_CallBreakReturn :
    up.ready 0 { noSlot := true } = true ∧ up.coreEp 0 = false ∧ up.bt R.DBG_CTL 28 0 = false ∧
      (up.setB R.DBG_CTL 28 true 0).ready 0 { noSlot := true } = true ∧
      (up.setB R.DBG_CTL 28 true 0).bt R.DBG_CTL 28 0 = true ∧
      up.ready 0 { loopForm with priv := true } = true ∧
      (core0 fun x => { x with cause := 0x28000000 }).ready 0 { loopForm with priv := true } = true := by decide

theorem wit_WaitingInstructions :
    let e := core0 fun x => { x with sb := [sbe 4 1 false] }
    let w := core0 fun x => { x with soft := true, ien := 1, status := 1 }
    let q := { up with gal := vmod up.gal 0 fun g => { g with arr := { g.arr with queue := [⟨.swap, false, 0⟩] } } }
    up.coreEp 0 = false ∧ up.ready 0 { priv := true } = true ∧ up.ipendEn 0 = 0 ∧ w.ready 0 { priv := true } = true ∧
      w.ipendEn 0 ≠ 0 ∧ bit (vget w.core 0).status 1 = 0 ∧ up.ready 0 {} = true ∧ up.storesDone 0 = true ∧
      e.ready 0 {} = true ∧ e.storesDone 0 = false ∧ up.streamsQuiet 0 = true ∧ CoreId.gal 0 = some 0 ∧
      up.ready 0 { loopForm with gx := true, priv := true } = true ∧ up.unitsQuiet 0 = true ∧
      q.ready 0 { loopForm with gx := true, priv := true } = true ∧ q.unitsQuiet 0 = false := by decide

theorem wit_InterruptStoreErrorHalt :
    let i := core0 fun x => { x with soft := true, ien := 1, status := 3 }
    let b := core0 fun x => { x with sbErr := some 0x40000000 }
    let h := core0 fun x => { x with haltReq := true }
    i.calm 0 = true ∧ i.intDue 0 = true ∧ bit (i.ipendEn 0) 0 = 1 ∧ b.calm 0 = true ∧ b.storeErrDue 0 = true ∧
      (vget b.core 0).sbErr = some 0x40000000 ∧ h.calm 0 = true ∧ (vget h.core 0).haltReq = true ∧
      (vget h.core 0).midUnit = false := by decide

theorem wit_LoadsAndStores :
    let r := fun (l : List SbEntry) => core0 fun x => { x with sr := vset x.sr 1 0x40000000, sb := l }
    let a := 0x40000000
    let ld := fun (w : Bool) (l : List SbEntry) =>
      core0 fun x => { x with load := some ⟨1, a, a, 4, false, w⟩, sb := l }
    let ok := fun (s : Dev) => s.ready 0 {} = true ∧ s.addrOk 0 a 4 false = true ∧ s.vxStPending 0 a 4 = false
    (loadRow (.lw 0 ⟨2, 1, 0⟩)).isSome ∧ ((vget (r []).core 0).reg 1 + (0 : BitVec 16).signExtend 32).toNat = a ∧
      (vget up.core 0).toDev a = a ∧ memAddr a = true ∧
      ok (r []) ∧ youngest [] a 4 = none ∧
      ok (r [sbe 4 7 false]) ∧ youngest [sbe 4 7 false] a 4 = some (sbe 4 7 false) ∧ (sbe 4 7 false).covers a 4 = true ∧
      ok (r [sbe 1 7 false]) ∧ (sbe 1 7 false).covers a 4 = false ∧ (vget (r [sbe 1 7 false]).core 0).loadHeld a 4 = true ∧
      (vget (ld true []).core 0).loadHeld a 4 = false ∧
      up.flashBusy a = false ∧ (ld false []).refusal 8 a 4 .rd = none ∧ up.clean a 4 = true ∧ up.poisoned a 4 = false ∧
      (storeRow (.sw 0 ⟨1, 2, 0⟩)).isSome ∧ (r []).addrOk 0 a 4 true = true ∧
      (r [sbe 4 7 false]).wf = true ∧ up.refusal 8 a 4 .wr = none := by decide

theorem wit_MemoryTraps :
    let t := core0 fun x => { x with status := 0, sr := vset x.sr 1 0x20000000 }
    let m := core0 fun x => { x with sr := vset x.sr 1 0x40000001 }
    let f := { core0 (fun x => { x with stall := .ifence }) with bus := { up.bus with outw := [(8, 1)] } }
    let l := core0 fun x => { x with load := some ⟨1, 0x40000000, 0x40000000, 4, false, false⟩ }
    t.ready 0 {} = true ∧ t.coreEp 0 = false ∧ 0x10000000 ≤ (vget t.core 0).toDev 0x20000000 ∧
      (vget t.core 0).toDev 0x20000000 ≤ 0x3FFFFFFF ∧ m.ready 0 {} = true ∧ 0x40000001 % 4 ≠ 0 ∧
      up.wf = true ∧ iniCore 0 = none ∧ f.wf = true ∧ (vget f.core 0).drained = true ∧ coreIni 0 = 8 ∧
      SMap.get 0 f.bus.outw 8 = 1 ∧ l.refusal 8 0x40000000 4 .rd = none ∧ l.coreEp 0 = false := by decide

theorem wit_DebugBlock :
    let h := core0 fun x => { x with run := .halted }
    up.wf = true ∧ up.calm 0 = true ∧ up.accepts 0x3F R.DBG_CTL 0 = true ∧ h.accepts 0x3F R.DBG_CTL 0 = true ∧
      h.accepts 0x3F R.SREG 0 31 = true ∧ h.readable 0x3F R.SREG 0 0 = true ∧ up.readable 0x3F R.SREG 0 31 = true ∧
      up.accepts 0x3F R.DOORBELL 0 = true := by decide

/-! ### Witnesses: array, vector engine -/

/-- Plane A and plane B hold 8-bit weights at issue. -/
def iss0 : ArrIssue := { ArraySt.init.iss with valid := #v[true, true] }

/-- A curator with operands for a plane load and for a run on tile register 3. -/
def arr1 : Dev := put (put (put (arr0 fun a => { a with iss := iss0 }) 1 0x80000800) 2 0x00C00000) 3 4

/-- The same gallery in charted mode, with one array command at the head of its queue. -/
def arrCmd (k : ArrKind) : Dev :=
  { (arr0 fun a => { a with
      iss := iss0, queue := [⟨k, false, 0⟩], planes := Vector.replicate 2 ⟨true, 0, false, []⟩ }) with
    core := vmod up.core 0 fun x => { x with charted := true } }

/-- A slot of the vitrine. -/
def slot0 (x : SlotSt) : VSlot := ⟨x, 3, 32, 0, 0, false, false, false, 0, []⟩

/-- A vector instruction in the engine. -/
def vxi (o : VxSub) (d x : Nat) : VxInstr := ⟨o, 1, 2, 3, 4, d, x, false, false, 0⟩

theorem wit_ArrayIssue :
    let full := arr0 fun a => { a with iss := iss0, queue := List.replicate 4 ⟨.cfg 0, false, 0⟩ }
    let ch := arr0 fun a => { a with iss := { iss0 with chain := some ⟨4, false⟩ } }
    let r : RunCmd := ⟨0x00C00000, 0, 4, 0⟩
    curator 0 = 0 ∧ arr1.ready 0 { gx := true } = true ∧ (arr1.arr 0).iss.chain = none ∧ (arr1.arr 0).queue.length < 4 ∧
      full.ready 0 { gx := true } = true ∧ (full.arr 0).queue.length = 4 ∧ (full.cur 0).charted = false ∧
      0x80000800 % 2048 = 0 ∧ galStore 0 ≤ 0x80000800 ∧ 0x80000800 + 262144 ≤ galStore 0 + 0x1000000 ∧
      (arr1.cur 0).toDev 0x80000800 = 0x80000800 ∧ arr1.runCheck 0 r = none ∧
      ch.ready 0 { gx := true } = true ∧ ch.coreEp 0 = false ∧ (ch.arr 0).iss.chain ≠ none ∧
      up.ready 0 { gx := true } = true ∧ up.coreEp 0 = false ∧ ((up.cur 0).reg 1).toNat < galStore 0 ∧
      ((up.cur 0).reg 3).toNat = 0 := by decide

theorem wit_ArrayExecution :
    let wld := arrCmd (.wld 0x80000000 true 0)
    let ld := arr0 fun a => { a with loader := some ⟨0x80000000, true, 1, false⟩ }
    let r : RunCmd := ⟨2 ^ 22 + 2 ^ 20 + 3 * 2 ^ 23, 0, 2, 0⟩
    (up.arr 0).idle = true ∧ ((arrCmd (.cfg 1)).arr 0).idle = false ∧ (arrCmd (.cfg 1)).ready 0 { gx := true } = true ∧
      (arrCmd (.cfg 1)).galUp 0 = true ∧ ((arrCmd (.cfg 1)).arr 0).frozen = 0 ∧ (arrCmd (.cfg 1)).wf = true ∧
      (wld.arr 0).loader = none ∧ (wld.cur 0).drained = true ∧ (wld.cur 0).charted = true ∧
      r.tsrc = true ∧ r.chain = 1 ∧ (vget (((arrCmd (.run r)).vec 0).t) r.treg).tag.poison = false ∧
      (vget ((arrCmd (.run r)).arr 0).planes 0).valid = true ∧ (vget ((arrCmd (.run r)).arr 0).planes 0).poison = false ∧
      ld.clean 0x80000000 262144 = true ∧ ld.poison = [] ∧ (slot0 .filling).prov = false ∧
      (slot0 .filling).sat = false ∧ (arr0 fun a => { a with flight := [slot0 .filling] }).wf = true := by decide

theorem wit_VectorEngine :
    let ex := fun (i : VxInstr) => vec0 fun v => { v with exec := some i }
    let w := vec0 fun v => { v with waiting := [vxi .add 2 0] }
    let sm := { ex (vxi .sum 2 0) with core := vmod up.core 0 fun x => { x with stall := .vxSum } }
    let pp := gal0 fun y => { y with
      vec := { y.vec with exec := some (vxi .pop 0 1) }, arr := { y.arr with vit := [slot0 .ready] } }
    (vxRow 0 (.vxAdd 0 ⟨1, 2, 3, 2⟩)).isSome ∧ (vxRow 0 (.vxSum 0 ⟨1, 2, 0, 2⟩)).isSome ∧
      up.ready 0 { legal := true, gx := true } = true ∧ up.coreEp 0 = false ∧
      (vxRow 0 (.vxLd 0 ⟨1, 2, 0, 2⟩)).map (fun r => r.2.2.2 up (up.cur 0)) = some false ∧
      (up.vec 0).waiting.length < 4 ∧ w.galUp 0 = true ∧ w.wf = true ∧ (w.vec 0).exec = none ∧
      w.vxReady 0 (vxi .add 2 0) = true ∧ (ex (vxi .add 2 0)).wf = true ∧ (ex (vxi .st 2 0x80000000)).galUp 0 = true ∧
      (ex (vxi .ld 2 0x80000000)).clean 0x80000000 65536 = true ∧ (ex (vxi .ld 2 0x80000000)).poison = [] ∧
      (pp.arr 0).head = some (slot0 .ready) ∧ (slot0 .ready).poison = false ∧
      (vget (sm.vec 0).t 2).tag.poison = false ∧ (sm.cur 0).stall = .vxSum ∧ (sm.cur 0).resumed = false := by decide

/-! ### Witnesses: legend, epochs, streams -/

/-- A vector engine that runs a VX.RQ of tile register 2 through entry `l`. -/
def rq0 (l : Leg) (d : Nat) (t : Tile) : Dev :=
  vec0 fun v => { v with exec := some (vxi .rq d 0), rq := l, t := vset v.t 2 ⟨t, ⟨2, 0, false, false, 32, 0⟩⟩ }

/-- Gallery 0 inside an epoch of its curator, as `f` leaves it. -/
def ep0 (f : EpochSt → EpochSt) : Dev := gal0 fun y => { y with
  ep := f { y.ep with isOpen := true, restart := 0x80000200 }, legCk := some y.leg }

/-- A dense stream of two tiles of one row of 64 bytes in the store of gallery 0. -/
def desc0 (w : Bool) : StDesc :=
  { kind := false, dirW := w, idx32 := false, sent := false, cell := false, notify := true, n := 2, base := 0x80001000
    rowbytes := 64, rows := 1, rstride := 64, tstride := 64, idxbase := 0, slot := 0x80002000, donecell := 0 }

def str0 (w : Bool) : StreamSt := ⟨desc0 w, 1, false, false, 0, 0, 0, 2, 1, false, false, 0, false, false, none⟩

/-- Stream 1 of gallery 0 is open. -/
def withSt (t : StreamSt) : Dev := gal0 fun y => { y with streams := vset y.streams 1 (some t) }

/-- A descriptor in memory. -/
def descMem : Dev := put (up.wrBytes 0x80000400 (leBytes 4 0x20 ++ leBytes 4 2 ++ leBytes 8 0x80001000 ++ leBytes 4 64
  ++ leBytes 4 1 ++ leBytes 8 64 ++ leBytes 8 64 ++ leBytes 4 0x80002000)) 2 0x80000400

theorem wit_LegendAccess :
    let l : Leg := up.leg 0 0
    up.wf = true ∧ up.accepts 0x3F (legReg 0) 0 1023 = true ∧ up.accepts 0x3F (legReg 2) 0 0 = true ∧
      ({ l with scale := 0x3F800000 } : Leg).derive.bad = false ∧ ({ l with scale := 0xBF800000 } : Leg).derive.bad = true ∧
      (rq0 .init 0 []).galUp 0 = true ∧ (Leg.init).smode = 0 ∧ rqEntryOk .init 0 = true ∧
      ((vget ((rq0 .init 0 []).vec 0).t 2).tag.fmt = 2) ∧
      ((rq0 .init 0 []).vec 0).exec = some (vxi .rq 0 0) := by decide

theorem wit_EpochsOpenAndRun :
    up.wf = true ∧ up.ready 0 { gx := true, noSlot := true } = true ∧ (up.ep 0).isOpen = false ∧
      ((up.cur 0).reg 0).toNat % 4 = 0 ∧ ((put up 1 2).cur 0).reg 1 = 2 ∧
      (put up 1 2).ready 0 { gx := true, noSlot := true } = true ∧
      (ep0 id).ready 0 { gx := true, noSlot := true } = true ∧ ((ep0 id).ep 0).isOpen = true ∧
      ((ep0 id).ep 0).defer = none ∧ ((ep0 id).ep 0).radio = false ∧
      up.ready 0 { gx := true, noSlot := true, noEnd := true } = true ∧ up.ready 0 { gx := true } = true := by decide

theorem wit_EpochEnds :
    (ep0 fun e => { e with age := 2458 }).wf = true ∧ ((ep0 id).ep 0).bound = 0 ∧
      (ep0 fun e => { e with ending := true }).epCommitDue 0 = true ∧
      (ep0 fun e => { e with squash := 2 }).epSquashDue 0 = true ∧ (∀ n, up.stream 0 n = none) ∧
      (∀ n, (ep0 id).stream 0 n = none) := by decide

theorem wit_Streams :
    let r := fun (f : StreamSt → StreamSt) => withSt (f (str0 false))
    up.ready 0 { gx := true } = true ∧ up.inEpoch 0 = false ∧ (up.ep 0).isOpen = false ∧
      descMem.ready 0 { gx := true } = true ∧ ((descMem.cur 0).reg 2).toNat = 0x80000400 ∧
      inStore 0 0x80000400 64 = true ∧ (descMem.cur 0).drained = true ∧ descMem.clean 0x80000400 64 = true ∧
      descMem.poisoned 0x80000400 64 = false ∧ up.stream 0 1 = none ∧ up.coreEp 0 = false ∧
      (r id).stream 0 1 = some (str0 false) ∧ (str0 false).heldClose = false ∧ (str0 false).closable = true ∧
      (r fun t => { t with moved := 1 }).stNextRes 0 1 = .tile 0x80002000 ∧
      (r fun t => { t with taken := 2, moved := 2, released := 1 }).stNextRes 0 1 = .none ∧
      (r id).stNextRes 0 1 = .stall ∧ 0 < (({ str0 false with taken := 1, moved := 1 } : StreamSt)).out ∧
      (r fun t => { t with taken := 1, moved := 1 }).doneBlocked 0 1 ((r id).cur 0) = false ∧
      (r id).stQuiet 0 { str0 false with moved := 2, taken := 2, released := 2 } = true ∧
      (r id).stQuiet 0 (str0 false) = false := by decide

theorem wit_Streams_transfers :
    let r := withSt (str0 false)
    let w := withSt { str0 true with taken := 1, released := 1 }
    let e := withSt { str0 false with moved := 2 }
    r.wf = true ∧ r.galUp 0 = true ∧ (desc0 false).kind = false ∧ overlap 0x80002000 64 0x80001000 64 = false ∧
      r.clean 0x80001000 64 = true ∧ r.clean 0x80002000 64 = true ∧ r.rowCause 0 (str0 false) 0x80001000 false = none ∧
      (w.cur 0).drained = true ∧ (w.ep 0).isOpen = false ∧ w.rowCause 0 (str0 true) 0x80001000 true = none ∧
      e.wf = true ∧ (str0 false).ended = false ∧ (desc0 false).cell = false ∧ (desc0 false).notify = true := by decide

/-! ### Witnesses: cells, rings, commands of the hub -/

/-- The hub changed. -/
def hub0 (f : HubSt → HubSt) : Dev := { up with hub := f up.hub }

/-- Ring 64 is enabled with 16 entries at 0x40010000 and holds `n`. -/
def ring64 (n : Nat) : Dev :=
  (((({ up with hub := { up.hub with rings := if n = 0 then [] else [(64, ⟨n, 0, n⟩)] } }.wr R.RING_BASE 0x40010000 0 64).wr
    R.RING_CFG 0xA0000004 0 64).wr R.RING_TOK 5000 0 64).wr R.RING_RATE 0x00010008 0 64).wr R.RING_RPTR n 0 64

/-- Registers of curator 0: s1 the identifier, s2 the operand or buffer, s3 a time. -/
def args (s : Dev) (i o t : Word) : Dev := put (put (put s 1 i) 2 o) 3 t

/-- A command record at 0x40020000. -/
def rec0 (s : Dev) (op nring i opnd tmo buf : Nat) : Dev := s.wrBytes 0x40020000
  (leBytes 1 op ++ leBytes 1 0 ++ leBytes 2 nring ++ leBytes 4 i ++ leBytes 4 opnd ++ leBytes 4 tmo ++ leBytes 8 buf)

theorem wit_Cells :
    let c := args (hub0 fun h => { h with cells := [(300, 7)] }) 300 5 0
    let l := args { core0 (fun x => { x with sb := [sbe 4 1 false] }) with hub := c.hub } 300 5 0
    c.wf = true ∧ c.ready 0 { gx := true } = true ∧ c.cellIdBad 0 (c.cur 0) 300 = false ∧ c.foreign 300 = false ∧
      c.hub.ecc = [] ∧ c.cellBad 300 = false ∧ c.inEpoch 0 = false ∧ c.storesDone 0 = true ∧ l.storesDone 0 = false ∧
      l.ready 0 { gx := true } = true ∧ (5 ≤ c.cell 300) ∧ ¬ (c.cell 300 = 5) ∧
      c.hub.resp = Vector.replicate 6 none ∧ up.refusal 0x3F (cellAddr 65535) 4 .rd = none ∧
      up.refusal 0x3F (cellAddr 0) 4 .wr = none ∧ up.refusal 0x3F (cellAddr 65535 + 4) 4 .wr = none := by decide

theorem wit_Rings :
    let p := args (ring64 0) 64 0x40030000 9
    let q := args (ring64 3) 64 0x40030000 9
    p.wf = true ∧ p.ready 0 { gx := true } = true ∧ p.foreign 64 = false ∧ p.inEpoch 0 = false ∧ p.hub.popWaits = [] ∧
      p.ringEn 64 = true ∧ bufBad 0 0x40030000 = false ∧ p.clean 0x40030000 64 = true ∧ p.poisoned 0x40030000 64 = false ∧
      p.postBad 0 (p.cur 0) 64 = false ∧ p.storesDone 0 = true ∧ p.ledgerRefuses (p.ringClass 64) = false ∧
      1000 ≤ p.rg R.RING_TOK 0 64 ∧ (p.ring 64).rocc < p.ringN 64 - p.ringS 64 ∧ p.popBad 0 (p.cur 0) 64 = false ∧
      p.ringOcc 64 = 0 ∧ q.wf = true ∧ q.ready 0 { gx := true } = true ∧ 0 < q.ringOcc 64 ∧
      q.clean (q.ringHead 64) 64 = true ∧ bit (leNat (((q.rdBytes (q.ringHead 64) 64).drop 12).take 2)) 15 = 0 ∧
      (args (ring64 0) 64 0x40030000 0).hub.resp = Vector.replicate 6 none := by decide

theorem wit_Rings_time :
    let d := (up.wr R.RING_BASE 0x40010000 0 1023).wr R.RING_RATE 0x00010008 0 1023
    let w := hub0 fun h => { h with waits := [⟨.curator 0, 300, false, 5, some 10, 11⟩] }
    d.wf = true ∧ d.accepts 0x3F R.RING_CFG 0 1023 = true ∧ d.fld R.RING_CFG 15 8 0 1023 = 0 ∧ d.ringEn 1023 = false ∧
      d.ringEnableOk 1023 0xA0000004 = true ∧ (ring64 3).accepts 0x3F R.RING_CFG 0 64 = true ∧
      (ring64 3).ringEn 64 = true ∧ (ring64 3).fld R.RING_CFG 15 8 0 64 = 0 ∧
      (ring64 3).fld R.RING_RATE 31 16 0 64 ≠ 0 ∧ w.hub.waits.length = 1 := by decide

theorem wit_CommandRecords :
    let s := rec0 up 4 0 300 5 9 0
    let p := rec0 (ring64 3) 0x11 0 64 0 0 0x40030000
    let b := rec0 ((ring64 0).setB R.LDG_STAT 29 true) 0x10 0 64 0 0 0x40030000
    s.wf = true ∧ s.accepts 0x3F R.HUB_CMD = true ∧ inAtrium 0x40020000 32 = true ∧ s.clean 0x40020000 32 = true ∧
      s.poisoned 0x40020000 32 = false ∧ s.rdN 0x40020001 1 = 0 ∧ bits (s.rdN 0x40020002 2) 15 10 = 0 ∧
      s.hub.cmds = [] ∧ s.hub.waits = [] ∧ s.hub.popWaits = [] ∧ s.foreign 300 = false ∧ idOkCell 300 = true ∧
      s.cellBad 300 = false ∧ s.rdN 0x40020000 1 = 4 ∧ s.cell 300 < s.rdN 0x40020008 4 ∧ s.rdN 0x4002000C 4 ≠ 0 ∧
      p.wf = true ∧ idOkRing 64 = true ∧ p.ringEn 64 = true ∧ p.rdN 0x40020010 8 = 0x40030000 ∧
      inAtrium 0x40030000 64 = true ∧ p.rdN 0x40020000 1 = 0x11 ∧ 0 < (p.ring 64).rocc + (p.ring 64).socc ∧
      p.clean (p.ringHead 64) 64 = true ∧ bit (leNat (((p.rdBytes (p.ringHead 64) 64).drop 12).take 2)) 15 = 0 ∧
      (rec0 (ring64 0) 0x10 0 64 0 0 0x40030000).ledgerRefuses ((ring64 0).ringClass 64) = false ∧
      b.rdN 0x40020000 1 = 0x10 ∧ b.ledgerRefuses (b.ringClass 64) = true := by decide

theorem wit_RemoteOperations :
    let op : RemoteOp := ⟨.curator 0, .waitge, 3, 300, 5, some 4, 9, 11⟩
    let h := hub0 fun h => { h with remotes := [op] }
    up.hub.remotes.find? (·.tag == 9) = none ∧ h.hub.remotes.find? (·.tag == 9) = some op ∧
      ((⟨.curator 0, .add, 3, 300, 5, none, 9, 2000⟩ : RemoteOp)).byRto = true ∧
      max 1 (up.rg R.HUB_RTO) < 100000 := by decide

/-! ### Witnesses: the skip unit, the audit sampler, the carousel -/

/-- Gallery `g` has its skip unit changed. -/
def skip0 (f : SkipSt → SkipSt) : Dev := gal0 fun y => { y with skip := f y.skip }

/-- A latched job of one row of four positions in gallery 0's store. -/
def latch (dl : Bool) : SkipLatch :=
  { nq := 1, np := 4, qpos := 9, kpos := 0, wback := 7, wfwd := 3, thr := 10
    est := galStore 0, list := galStore 0 + 0x1000, cnt := galStore 0 + 0x2000
    qrow := galStore 0 + 0x3000, krow := galStore 0 + 0x4000, sscale := 0x3F800000
    zq := 0, zk := 0, minr := 1, exact := false, deadline := dl, weak := false, far := true }

/-- The job is open, and its first round is ready if `rdy`. -/
def job0 (dl rdy : Bool) : Dev :=
  let s := (skip0 fun q => { q with job := some ⟨latch dl, if rdy then [4] else []⟩ }).wrBytes (galStore 0)
    [1, 0, 20, 0, 0xFF, 0xFF, 30, 0]
  if rdy then (s.setB R.SKP_STAT 30 true 0).setF R.SKP_GRANT 24 16 3 0 else s

/-- One row pends at the audit sampler, `n` of its scores sent. -/
def audit0 (n : Nat) : Dev :=
  ((skip0 fun q => { q with pend := [⟨latch false, 0, 2, List.replicate n 5⟩] }).wrBytes (galStore 0 + 0x3000)
    ((List.range 4).map fun i => BitVec.ofNat 8 (i + 1))).wrBytes (galStore 0 + 0x4000)
    ((List.range 4).map fun i => BitVec.ofNat 8 (3 * i + 1))

/-- Galleries 0 and 2 run as one group of one line a shard. -/
def car02 (f : CarSt → CarSt) : Dev :=
  let b := fun g : Nat => #v[galStore g, galStore g + 64]
  let m := fun g : Nat => fun y : GalSt => { y with car := f { y.car with st := .running, buf := b g } }
  let s := { up with gal := vmod (vmod up.gal 0 (m 0)) 2 (m 2) }
  ((((s.wr R.CAR_CFG 0x80000005 0).wr R.CAR_CFG 0x80000005 2).wr R.CAR_SHARD 1 0).wr R.CAR_SHARD 1 2)

theorem wit_SkipUnit :
    let go := ((((((up.wr R.SKP_DIM 3 0).wr R.SKP_EST (galStore 0) 0).wr R.SKP_LIST (galStore 0 + 64) 0).wr R.SKP_CNT
      (galStore 0 + 128) 0).wr R.SKP_QROW (galStore 0 + 0x1000) 0).wr R.SKP_KROW (galStore 0 + 0x2000) 0).wr R.SKP_SSCALE
      0x3F800000 0
    let r := job0 true true
    let late := r.setF R.SKP_GRANT 8 0 3 0
    let m := { r with tt := vmod r.tt 0 fun d => { d with galMarks := [3, 0, 0] } }
    go.wf = true ∧ go.accepts 0x3F R.SKP_CTL 0 = true ∧ go.skipErr 0 (go.skipLatch 0 0x80000016) = 0 ∧
      up.accepts 0x3F R.SKP_TAKE 0 = true ∧ r.wf = true ∧ (latch true).dl = true ∧ r.bt R.SKP_STAT 30 0 = true ∧
      r.fld R.SKP_GRANT 8 0 0 + 1 < r.fld R.SKP_GRANT 24 16 0 ∧ r.bt R.SKP_STAT 29 0 = false ∧
      late.fld R.SKP_GRANT 8 0 0 = late.fld R.SKP_GRANT 24 16 0 ∧
      (List.finRange 2).find? (fun d => 0 ∈ (vget m.tt d).galMarks) = some 0 ∧ m.galUp 0 = true := by decide

theorem wit_SkipUnit_lists :
    let s := job0 true false
    let l := latch true
    s.wf = true ∧ s.galUp 0 = true ∧ (s.skip 0).job = some ⟨l, []⟩ ∧ ((job0 false false).skip 0).job = some ⟨latch false, []⟩ ∧
      s.clean l.est (l.nq * l.stride) = true ∧ overlap l.list l.stride l.cnt 4 = false ∧ s.bt R.AUD_CTL 31 0 = false ∧
      s.bt R.SKP_STAT 30 0 = false ∧ s.bt R.SKP_STAT 29 0 = false ∧ s.keptRow l 0 = [3, 2] ∧
      s.fld R.SKP_GRANT 8 0 0 = 0 := by decide

theorem wit_SamplerAndCarousel :
    let a := audit0 2
    let f := car02 fun c => { c with sending := true, cur := true }
    let b := car02 fun c => { c with st := .starting }
    up.accepts 0x3F R.AUD_CTL 0 = true ∧ a.wf = true ∧ a.galUp 0 = true ∧ (a.arr 0).frozen = 0 ∧
      a.clean (galStore 0 + 0x4000 + 1024) 512 = true ∧ (a.skip 0).wcnt < 2 ^ a.fld R.AUD_CTL 3 0 0 ∧
      2 ^ up.fld R.AUD_CTL 3 0 0 ≤ ((skip0 fun q => { q with wcnt := 64 }).skip 0).wcnt ∧
      up.accepts 0x3F R.CAR_CTL 0 = true ∧ (up.car 0).st = .idle ∧ f.wf = true ∧ f.carMembers = [0, 2] ∧
      succOf [0, 2] 2 = 0 ∧ f.clean (galStore 2 + 64) 64 = true ∧ b.carMembers = [] ∧
      ((List.finRange 6).filter fun h => (b.car h).st == .starting) = [0, 2] ∧ b.carCfgOk [0, 2] = true ∧
      (b.wr R.CAR_SHARD 0 2).carCfgOk [0, 2] = false ∧ (∀ h, b.galOn h = true) ∧
      overlap (galStore 2 + 64) 64 (galStore 0) 64 = false ∧ f.bt R.CAR_CFG 30 0 = false := by decide

/-! ### Witnesses: registers, memory -/

/-- Register `r`, element 0, is what a read at its address finds. -/
def found (r : RegDef) (o : Nat) : Bool :=
  match regAt (r.addr 0 0 0 + o) with
  | some x => x.r.is r && x.part == o && x.i == 0 && x.j == 0
  | none => false

theorem wit_RegisterAccess :
    up.wf = true ∧ found R.HOST_PC 0 = true ∧ found R.ARR_ROWS 0 = true ∧ memAddr (R.HOST_PC.addr 0 0 0) = false ∧
      regionOf (R.HOST_PC.addr 0 0 0) ≠ some .cells ∧ regionOf (R.HOST_PC.addr 0 0 0) ≠ some .hostDbg ∧
      R.HOST_PC.isLdg = false ∧ up.refusal 0x3F (R.HOST_PC.addr 0 0 0) 8 .wr = none ∧
      (lookupReg R.HOST_PC handlers).isNone = true ∧ up.refusal 0x3F (R.ARR_ROWS.addr 0 0 0) 8 .rd = none ∧
      (lookupReg R.ARR_ROWS views).isNone = true ∧ R.ARR_ROWS.win ≠ .plic ∧ up.bus.snap = [] ∧ up.rg R.ARR_ROWS < 2 ^ 64 ∧
      (∀ z ∈ [R.PLIC_CLAIM, R.DPC, R.CSRDATA, R.SREG, R.CSP_RXD, R.ACC_RR, R.ACC_TOT], R.ARR_ROWS.is z = false) := by decide

theorem wit_SnapshotsAndHalves :
    let b := { up with bus := { up.bus with wrHold := [(0x3F, (R.HOST_PC.addr 0 0 0, 5))] } }
    found R.MER_SEC 0 = true ∧ (snapGroup R.MER_SEC 0).length = 3 ∧ R.MER_SEC.mask .rc = 0 ∧
      up.refusal 0x3F (R.MER_SEC.addr 0 0 0) 8 .rd = none ∧ found R.HOST_PC 4 = true ∧ R.HOST_PC.mask .rc = 0 ∧
      up.refusal 0x3F (R.HOST_PC.addr 0 0 0) 4 .rd = none ∧ up.refusal 0x3F (R.HOST_PC.addr 0 0 0) 4 .wr = none ∧
      b.wf = true ∧ b.refusal 0x3F (R.HOST_PC.addr 0 0 0 + 4) 4 .wr = none ∧ R.HOST_PC.mask .w1c = 0 ∧
      (SMap.get (0, 0) b.bus.wrHold 0x3F).1 = R.HOST_PC.addr 0 0 0 ∧
      (SMap.get (0, 0) up.bus.wrHold 0x3F).1 ≠ R.HOST_PC.addr 0 0 0 := by decide

theorem wit_BusAccess :
    memAddr 0x40000000 = true ∧ up.clean 0x40000000 8 = true ∧ up.refusal 0x3F 0x40000000 8 .wr = none ∧
      up.refusal 0x3F 0x42FFFFF8 8 .rd = none ∧ regionOf 0x42FFFFF8 = some .atrium ∧
      up.poisoned 0x42FFFFF8 8 = false ∧ up.refusal 0x3F 0x20000002 4 .wr = some .width ∧ up.cdieOn = true ∧
      (up.setB R.BERR_INFO 31 true).refusal 0x3F 0x2FFFFFF0 4 .rd = some .unmapped := by decide

/-! ### Witnesses: clocks and supplies -/

/-- The power sequencer changed. -/
def pwr0 (f : PowerSt → PowerSt) : Dev := { up with pwr := f up.pwr }

/-- PMBus is configured: every rail has an address. -/
def rails (s : Dev) : Dev :=
  (((((s.setB R.PMB_CFG 31 true).setF R.PMB_RAIL 6 0 0x10 0 3).setF R.PMB_RAIL 6 0 0x11 0 4).setF R.PMB_RAIL 6 0 0x12 0
    0).setF R.PMB_RAIL 6 0 0x13 0 1).setF R.PMB_RAIL 6 0 0x14 0 2

/-- The rise has just begun; `b` waits VSETTLE. -/
def rise (b : Bool) : Dev :=
  let s := pwr0 fun p => { p with phase := .rising, steps := [4, 3, 0, 1, 2, 5], pwren := true, settle := b }
  rails (s.setB R.PWR_CTL 31 true)

/-- Every rail of the compute die is on and watched. -/
def watched : Dev :=
  rails ((pwr0 fun p => { p with rails := Vector.replicate 9 ⟨true, true, 0x17, 750⟩ }).setB R.PWR_CTL 31 true)

theorem wit_ClockControllers :
    let u := { up with isl := vmod up.isl 2 fun x => { x with unlocked := true } }
    up.wf = true ∧ up.accepts 0x3F R.ICC_CTL 0 0 = true ∧ up.accepts 0x3F R.ICC_CTL 0 6 = true ∧
      islRange 0 = some (150, 600) ∧ islRange 6 = some (200, 1400) ∧ (∀ i, vget up.pwr.raises i = none) ∧
      (vget up.isl 0).unlocked = false ∧ (up.setB R.ICC_CTL 31 false 0 0).bt R.ICC_CTL 31 0 0 = false ∧
      u.wf = true ∧ (vget u.isl 2).unlocked = true := by decide

theorem wit_PowerSequence :
    let o := rails { Dev.reset .m4b with ioIsl := up.ioIsl }
    let f := { (watched.setB R.PWR_CTL 31 false) with pwr := { watched.pwr with phase := .falling } }
    let r := rise false
    o.wf = true ∧ o.accepts 0x3F R.PWR_CTL = true ∧ o.pwr.phase = .off ∧ o.bt R.PWR_CTL 31 = false ∧
      o.bt R.CD_TRIPSTAT 31 = false ∧ o.railConfigured 4 = true ∧ watched.wf = true ∧ watched.pwr.phase = .on ∧
      watched.accepts 0x3F R.PWR_CTL = true ∧ f.wf = true ∧ f.bt R.PWR_CTL 31 = false ∧ r.wf = true ∧
      r.bt R.PWR_CTL 31 = true ∧ r.railConfigured 3 = true ∧ modeLinear 0x18 = true ∧ readNear 192 0x18 750 = true ∧
      modeLinear 0x38 = false ∧ (rise true).wf = true := by decide

theorem wit_IslandGating :
    let s := ((rails up).wr R.PWR_CISL 0xF3F).wr R.PWR_CTL 0x8000007C
    s.wf = true ∧ s.accepts 0x3F R.PWR_CTL 0 = true ∧ s.bt R.CD_TRIPSTAT 31 = false ∧ s.fitted 1 = true ∧
      s.bt R.PWR_CTL 2 0 = true ∧ s.bt R.PWR_CTL 6 0 = true ∧ s.accepts 0x3F R.PWR_CISL = true ∧ s.pwr.phase = .on ∧
      s.pwr.steps = [] ∧ (∀ j < 12, 8 + s.asm.stacks ≤ j → bit (s.rg R.PWR_CISL) j = 0) ∧
      bit (s.rg R.PWR_CISL) 5 = 1 ∧ bit 0xF1F 5 = 0 ∧ (∀ j < 12, j ≠ 5 → bit 0xF1F j = bit (s.rg R.PWR_CISL) j) ∧
      vget s.pwr.gal 5 ≠ .gated ∧ 3 < s.asm.stacks ∧ (∀ j < 12, j ≠ 8 + 3 → bit 0x73F j = bit (s.rg R.PWR_CISL) j) := by
  decide

theorem wit_SupplyFaults :
    let r := (up.wr R.PMB_RAIL 0x10 0 3).wr R.PMB_CFG 0x80000000
    let c := pwr0 fun p => { p with
      raises := vset p.raises 0 (some ⟨500, 800⟩), rails := Vector.replicate 9 ⟨true, true, 0x17, 750⟩ }
    let h := { up with test := { up.test with hot := vset up.test.hot 3 true } }
    let t := List.replicate 8 (2000 : Int)
    let warm := fun (k : Fin 8) => h.sensorUp k && decide (toS 16 (h.rg R.CD_TRIP) ≤ t.getD k.val 0)
    watched.wf = true ∧ (vget watched.pwr.rails 3).monitor = true ∧ (vget watched.pwr.rails 4).monitor = true ∧
      (vget watched.pwr.rails 2).monitor = true ∧ up.fitted 1 = true ∧ (padRails 6).1 = true ∧ (padRails 3).2 = true ∧
      vget up.pwr.padLow18 1 = false ∧ vget up.pwr.padLow33 1 = false ∧ up.bt R.BOD_STAT 3 1 = false ∧
      up.bt R.BOD_STAT 4 1 = false ∧ r.wf = true ∧ r.bt R.PMB_CFG 31 = true ∧ r.alertRails = [3] ∧
      r.rg R.PMB_ALERT = 0 ∧ c.wf = true ∧ readAtLeast 0xC00 (vget c.pwr.rails (ceilRail 0)).mode (800 - 15) = true ∧
      (∀ k, vget up.test.hot k = false) ∧ h.wf = true ∧ warm 3 = true ∧ vget h.test.hot 3 = true ∧
      ∀ j, j < 3 → (warm j && vget h.test.hot j) = false := by decide

/-! ### Witnesses: the ledger -/

/-- The ledger changed. -/
def ldg0 (f : LedgerSt → LedgerSt) : Dev := { up with ldg := f up.ldg }

/-- A work of class `c` that holds nothing but gallery 1. -/
def work (c : Nat) : Work :=
  { id := 7, cls := c, tenant := 2, gals := [1], radio := none, carousel := false, remote := false, cellBase := 0, nCells := 0
    nBuf := 0, placed := [], rings := [], bytesGs := 0, bytesAtr := 0, bytesStk := 0, energy := 5, charge := 9, used := 1
    tag := 3, manifest := 0x40000000 }

/-- The grace timer has expired, with a work of class 3 if `b`. -/
def grace (b : Bool) : Dev :=
  let s := (ldg0 fun l => { l with stage := .grace }).setB R.LDG_CTL 31 true
  if b then { s with hub := { s.hub with works := [work 3] } } else s

theorem wit_Battery :
    up.wf = true ∧ up.ldg.stage = .idle ∧ up.accepts 0x3F R.BAT_Q = true ∧ (ldg0 fun l => { l with stage := .full }).wf = true ∧
      (ldg0 fun l => { l with stage := .fix, qWrote := true }).wf = true := by decide

theorem wit_LedgerHourAndCaps :
    let s := ldg0 fun l => { l with stage := .hour, solar := 123456789 }
    let low := fun (c : Nat) => (grace true).hub.works.filter (·.cls == c)
    s.wf = true ∧ s.ldg.stage = .hour ∧ s.ldg.solar / 1000 < 2 ^ 64 ∧ up.accepts 0x3F R.LDG_CTL = true ∧
      up.accepts 0x3F R.GCAP 0 5 = true ∧ (grace true).wf = true ∧ (grace true).enforce = true ∧ low 3 ≠ [] ∧
      (grace false).wf = true ∧ (grace false).hub.works = [] := by decide

/-! ### Witnesses: reset, boot, fuses, calibration -/

/-- I/O die `d` changed. -/
def die (d : Fin 2) (f : DieSt → DieSt) : Dev := { up with die := vmod up.die d f }

/-- An octal image of one segment of four bytes, signed under the key of RFC 6979, A.2.5. -/
def image : List Byte :=
  leBytes 4 0x1B6AB007 ++ leBytes 2 1 ++ leBytes 2 0x100 ++ leBytes 8 0x104 ++
    leBytes 4 2 ++ leBytes 4 1 ++ leBytes 8 0x10804000 ++ List.replicate 0x28 0 ++ leBytes 8 0x208 ++
    (leBytes 32 0x60FED4BA255A9D31C961EB74C6356D68C049B8923B61FA6CE669622E60F29FB6).reverse ++
    (leBytes 32 0x7903FE1008B8BC99A41AE9E95628BC64F2F1B20C2D7E9F5177A3C294D4462299).reverse ++
    leBytes 4 0x100 ++ leBytes 4 4 ++ leBytes 8 0x10804000 ++ List.replicate 0x60 0 ++ leBytes 4 0x12345678 ++
    (leBytes 32 0xEFD48B2AACB6A8FD1140DD9CD45E81D69D2C877B56AAF991C34D0EA84EAF3716).reverse ++
    (leBytes 32 0x695D441FBEC9553D18A4D708E411F055379D91D744A7C4BA2FC5B6099969BCB3).reverse

/-- The ROM of I/O die 0 waits for flash port 0 to answer in octal mode, as the last of `n + 1` copies. -/
def octal (m : List Byte) (n : Nat) : Dev :=
  let s := die 0 fun x => { x with rom := .waitOctal n }
  let l := (m.zipIdx.map fun x => (flashBase 0 + n * 0x800000 + x.2, x.1)).filter fun x => x.2 != 0
  { s with mem := l }.setF R.STRAPS 1 0 0

/-- A calibration block that has been staged from source 2, under commitment if `b`. -/
def cal (w : Nat) (b : Bool) : Dev :=
  let m : SMap Byte := [(0x0, 0x06), (0x2, 0x1B), (0x3, 0xCA), (0x4, 0x01), (0x6, 0x02), (0xFFC, 0x8E), (0xFFD, 0xBA), (0xFFE, 0xC1), (0xFFF, 0x11)]
  die 1 fun x => { x with calStage := m, wear := w, commit := if b then some ⟨m⟩ else none }

theorem wit_Resets :
    up.wf = true ∧ (vget up.die 0).vbat = true ∧ up.fitted 1 = true ∧ up.accepts 0x3F R.RST_CTL = true ∧
      (vget up.die 0).inReset = false ∧ (die 1 fun x => { x with inReset := true }).wf = true ∧
      calOk (vget up.die 1).calNv = false := by decide

/-- One step of the CRC on the value's number. -/
def crcStep (c : Nat) : Nat := if c % 2 = 1 then c / 2 ^^^ 0xEDB88320 else c / 2

theorem crcStep_iter (n : Nat) (c : BitVec 32) :
    (iter n (fun _ c => if c.getLsbD 0 then (c >>> 1) ^^^ 0xEDB88320 else c >>> 1) c : BitVec 32).toNat =
      crcStep^[n] c.toNat := by
  induction n with
  | zero => rfl
  | succ n ih =>
    rw [Function.iterate_succ_apply', ← ih, iter, crcStep, BitVec.getLsbD, Nat.testBit_zero]
    split <;> simp_all [Nat.shiftRight_one]

/-- `f n`, with `n` computed first. -/
def forced (f : Nat → Nat) : Nat → Nat
  | 0 => f 0
  | n + 1 => f (n + 1)

theorem forced_eq (f : Nat → Nat) (n : Nat) : forced f n = f n := by cases n <;> rfl

/-- The CRC of a list of bytes from `c`, its number computed at each of them. -/
def crcRun : List Byte → Nat → Nat
  | [], c => c
  | b :: l, c => forced (crcRun l) (crcStep^[8] (c ^^^ b.toNat))

theorem crcRun_eq (l : List Byte) (c : BitVec 32) : crcRun l c.toNat = (l.foldl crcByte c).toNat := by
  induction l generalizing c with
  | nil => rfl
  | cons b l ih =>
    rw [List.foldl_cons, ← ih, crcRun, forced_eq, crcByte, crcStep_iter, BitVec.toNat_xor, BitVec.toNat_setWidth,
      Nat.mod_eq_of_lt (by omega)]

theorem crc32_run (l : List Byte) :
    crc32 l = (BitVec.ofNat 32 (crcRun l 0xFFFFFFFF) ^^^ BitVec.allOnes 32).toNat := by
  rw [show 0xFFFFFFFF = (BitVec.allOnes 32).toNat from rfl, crcRun_eq, crc32, BitVec.ofNat_toNat, BitVec.setWidth_eq]

theorem wit_Resets_calibrated : calOk (vget (cal 0 false).die 1).calStage = true := by
  rw [calOk, calSound, crc32_run]
  decide +kernel

theorem wit_ReleasesAndStarts :
    let p := fun (x : GPhase) => { up with pwr := { up.pwr with gal := vset up.pwr.gal 5 x, zeroed := vset up.pwr.zeroed 5 true } }
    up.wf = true ∧ up.accepts 0x3F R.CRST_REL = true ∧ up.cdieOn = true ∧ (vget up.host.core 3).run = .reset ∧
      up.dmFlag 0x82 3 = false ∧ up.dmFlag 0x83 3 = false ∧ (p .reset).wf = true ∧
      (p .reset).accepts 0x3F R.CRST_REL = true ∧ vget (p .reset).pwr.gal 5 = .reset ∧ vget (p .reset).pwr.zeroed 5 = true ∧
      (p .zeroing).wf = true ∧ vget (p .zeroing).pwr.gal 5 = .zeroing ∧
      { up with pwr := { up.pwr with phase := .init } }.wf = true ∧ up.accepts 0x3F R.W1_GO 1 = true ∧
      (vget up.die 1).rom ≠ .wait1 ∧ (die 1 fun x => { x with rom := .wait1 }).accepts 0x3F R.W1_GO 1 = true := by decide

theorem wit_BootSequence :
    let h := (die 0 fun x => { x with rom := .start }).setF R.STRAPS 1 0 3
    let o := octal [] 1
    up.wf = true ∧ up.fitted 1 = true ∧ (vget up.die 1).inReset = false ∧ (vget up.die 1).rom = .start ∧ h.wf = true ∧
      h.fld R.STRAPS 1 0 = 3 ∧ h.dbgLock = false ∧ (die 0 fun x => { x with rom := .failed }).wf = true ∧ o.wf = true ∧
      (vget o.die 0).rom = .waitOctal 1 ∧ o.copies[1]? = some ⟨0, true⟩ ∧ o.copies.length = 1 + 1 ∧
      o.fld R.RST_CAUSE 23 20 < 2 := by decide

/-- A signed image passes: the signature is that of its SHA-256 digest under P-256. -/
theorem wit_BootSequence_signed :
    let s := octal image 0
    let c : Copy := ⟨0, false⟩
    let set := ((s.setF R.FL_CFG 29 28 (if s.imgFlag c 2 then 2 else 1)).setF R.FL_CFG 10 8 (s.hdr c 0x49 1)).setF
      R.FL_CFG 4 0 (s.hdr c 0x48 1)
    s.copies[0]? = some c ∧ set.hdrCode c = 0 ∧ ((set.segs c).foldl (fun s g => s.loadSeg c g) set).signCode c = 0 := by
  decide +kernel

theorem wit_FusesAndCalibration :
    let b := die 1 fun x => { x with otpBusy := some (18, 0xFFFF) }
    let c := die 1 fun x => { x with wear := 1000 }
    up.wf = true ∧ up.accepts 0x18 R.OTP_CMD 0 = true ∧ up.accepts 0x19 R.OTP_CMD 1 = true ∧
      (vget up.die 1).otpBusy = none ∧ up.accepts 0x18 R.OTP_CMD 1 = true ∧ up.fitted 1 = true ∧ b.wf = true ∧
      up.accepts 0x19 R.CAL_CMD 1 = true ∧ (vget up.die 1).commit = none ∧
      SMap.get 0 (vget up.die 1).otp 16 / 8 % 2 = 0 ∧ c.wf = true ∧ c.accepts 0x19 R.CAL_CMD 1 = true ∧
      up.measuring 1 = false := by decide

theorem wit_FusesAndCalibration_block :
    let c := cal 999 true
    (vget c.die 1).wear < 1000 ∧ calOk (vget (cal 0 false).die 1).calStage = true ∧
      calSource (vget c.die 1).calStage = 2 ∧ c.wf = true ∧ c.measuring 1 = false := by
  refine ⟨by decide, wit_Resets_calibrated, by decide⟩

/-! ### Witnesses: watchdogs -/

/-- Watchdog `w` is enabled with `n` units left of 9; both wardens run. -/
def wdog (w : Wdog) (n ctl : Nat) : Dev :=
  let r := wdogR w
  let s := { up with die := (vmod (vmod up.die 0 fun x => { x with rom := .running }) 1 fun x => { x with rom := .running })
                     host := { up.host with core := Vector.replicate 4 { HostCore.init with run := .running } } }
  ((s.wr r.cnt n r.k r.i).wr r.tmo 9 r.k r.i).wr r.ctl ctl r.k r.i

theorem wit_Watchdogs :
    let s := wdog (.gal 5) 2 0x80000000
    let x := { s with wdogWarn := [(wdogA (.gal 5), 1)] }
    let h := wdog (.host 3) 1 0x80000000
    let a := wdog (.ao 1) 1 0x80000000
    s.wf = true ∧ x.wf = true ∧ h.wf = true ∧ a.wf = true ∧ s.accepts 0x3F (wdogR (.gal 5)).cnt 5 = true ∧
      s.accepts 0x3F (wdogR (.gal 5)).ctl 5 = true ∧ up.wdogCtl (.gal 0) 28 = false ∧ s.wdogRuns (.gal 5) = true ∧
      s.wdogCtl (.gal 5) 31 = true ∧ s.romKicks (.gal 5) = false ∧ s.rg (wdogR (.gal 5)).cnt 5 = 2 ∧
      SMap.get 65536 x.wdogWarn (wdogA (.gal 5)) = 1 ∧ h.wdogRuns (.host 3) = true ∧ h.wdogCtl (.host 3) 31 = true ∧
      a.wdogRuns (.ao 1) = true ∧ a.wdogCtl (.ao 1) 31 = true ∧ a.romKicks (.ao 1) = false := by decide

/-! ### Witnesses: the meridian, station time, the timetable -/

/-- Station time changed. -/
def time0 (f : TimeSt → TimeSt) : Dev := { up with time := f up.time }

/-- Entry 255 of die 1 holds a pin action for tick 100 with period `per`, armed if `b`, at tick `now`. -/
def entry (b : Bool) (now per act : Nat) : Dev :=
  let s := { up with time := { up.time with units := now * tsTickUnits } }
  ((((s.wr R.TT_ACT act 1 255).wr R.TT_TIME 100 1 255).wr R.TT_PER per 1 255).wr R.TT_CTL (if b then 0xA0000000 else 0) 1 255)

theorem wit_Meridian :
    let h := up.setB R.MER_CTL 31 true 1
    let a := { up with tt := vmod up.tt 1 fun t => { t with almDue := 8 } }
    up.wf = true ∧ up.fitted 1 = true ∧ up.bt R.MER_CTL 31 1 = false ∧ up.accepts 0x3F R.MER_CTL 1 = true ∧ h.wf = true ∧
      h.bt R.MER_CTL 31 1 = true ∧ h.accepts 0x3F R.MER_CTL 1 = true ∧ h.accepts 0x3F R.MER_SUB 1 = true ∧
      h.accepts 0x3F R.MER_SEC 1 = true ∧ a.wf = true ∧ bit (vget a.tt 1).almDue 3 = 1 := by decide

theorem wit_StationTime :
    let w := up.setF R.TS_CTL 1 0 2
    let p := fun a => { up.setF R.TS_CTL 1 0 1 with time := { up.time with ppsTimer := some 57600000, ppsAge := some a } }
    up.wf = true ∧ up.accepts 0x3F R.TS_FADJ = true ∧ up.accepts 0x3F R.TS_SLEW = true ∧
      up.accepts 0x3F R.TS_STEP = true ∧ up.accepts 0x3F R.TS_CTL = true ∧ up.tsSrc ≠ 2 ∧ w.wf = true ∧ w.tsSrc = 2 ∧
      w.accepts 0x1C R.TS_FADJ = true ∧ up.time.slew = 0 ∧ up.time.step = none ∧ (vget up.die 0).inReset = false ∧
      up.bt R.TS_CTL 8 = false ∧ up.time.ppsAge = none ∧ (p 19199999).wf = true ∧ (p 19200000).wf = true ∧
      (p 19200000).tsSrc = 1 := by decide

theorem wit_Timetable :
    let e := entry false 97 10 0x10000005
    let l := entry false 98 10 0x10000005
    let f := entry true 100 0 0x10000008
    e.wf = true ∧ e.accepts 0x3F R.TT_CTL 1 255 = true ∧ e.ttValid 1 255 = false ∧
      actOk (e.rg R.TT_ACT 1 255) (e.rg R.TT_ARG 1 255) = true ∧ e.tk + 2 < e.rg R.TT_TIME 1 255 ∧ l.wf = true ∧
      l.rg R.TT_TIME 1 255 ≤ l.tk + 2 ∧ actOk 0x1000000C 0 = false ∧ f.wf = true ∧ f.ttValid 1 255 = true ∧
      up.fitted 1 = true ∧ (∀ m < 256, up.ttDue 1 m = none) ∧ (vget f.die 1).inReset = false ∧
      f.ttDue 1 255 = some false ∧ (∀ m < 256, m ≠ 255 → f.ttDue 1 m = none) ∧
      bits (f.rg R.TT_ACT 1 255) 31 28 = 1 ∧ f.rg R.TT_PER 1 255 = 0 ∧ e.rg R.TT_PER 1 255 = 10 := by decide +kernel

/-! ### Witnesses: the survey trunk -/

/-- The trunks of both dies are enabled with both links up, and that of die `d` is changed. -/
def trk (d : Fin 2) (f : TrunkSt → TrunkSt) : Dev :=
  let s := ((up.wr R.TRK_CTL 0x80000003 0).wr R.TRK_CTL 0x80000003 1)
  let l := fun (t : TrunkSt) => { t with link := Vector.replicate 2 { vget t.link 0 with up := true } }
  { s with trk := vmod (vmod (vmod s.trk 0 l) 1 l) d f }

/-- A frame of class `c` and type `t` with tag 9 from station 3 is the oldest delivered on link 1. -/
def inbox (d : Fin 2) (c t : Nat) (p : List Byte) : Dev :=
  let h : Head := { cls := c, typ := t, bcast := t == 3 && c == 0, dst := 5, src := 3, ttl := 1000, tag := 9 }
  trk d fun x => { x with inbox := [⟨1, mkFrame h p, 777, false⟩] }

/-- Both dies' TCXO counts. -/
def at_ (n : Nat) (s : Dev) : Dev := { s with die := Vector.replicate 2 { vget s.die 0 with tcxo := n } }

/-- A station heard on link 0. -/
def ent (u h num : Nat) : TopoEnt := ⟨u, #v[some (h, 4), none], beBytes 8 u ++ beBytes 2 num ++ [0, 0, 0, 0, 0, 0]⟩

theorem wit_SurveyLinks :
    let s := trk 1 id
    let dn := trk 1 fun t => { t with link := vmod t.link 1 fun x => { x with up := false, good := 20 } }
    let w := at_ 38400000 (trk 1 fun t => { t with link := vmod t.link 1 fun x => { x with wrap := some 5 }, ring := some (7, 3) })
    let x := at_ 100000000 ((trk 0 fun t => { t with map := [ent 5 1 0x8002, ent 8 2 0] }).setB R.TRK_TSTAT 30 true)
    s.wf = true ∧ s.fitted 1 = true ∧ s.lnkOn 1 1 = true ∧ (s.lnk 1 1).quiet = true ∧ dn.wf = true ∧ dn.lnkOn 1 1 = true ∧
      (dn.lnk 1 1).up = false ∧ 20 ≤ (dn.lnk 1 1).good ∧ w.wf = true ∧ (w.lnk 1 1).up = true ∧
      (w.lnk 1 1).wrap.isSome = true ∧ (w.lnk 1 1).upAt + 38400000 ≤ w.cyc 1 ∧ headOk [] = false ∧
      headOk (mkFrame ⟨0, 2, false, 5, 3, 9, 1⟩ (List.replicate 32 7)) = true ∧
      crcOk (mkFrame ⟨0, 2, false, 5, 3, 9, 1⟩ (List.replicate 32 7)) = true ∧
      (inbox 1 0 2 (List.replicate 32 7)).wf = true ∧
      (inbox 1 0 2 (List.replicate 32 7)).trk[1].inbox.map (fun f => (fCls f.bytes, fTyp f.bytes)) = [(0, 2)] ∧
      (inbox 1 0 3 (List.replicate 16 7)).trk[1].inbox.map (fun f => (fCls f.bytes, fTyp f.bytes)) = [(0, 3)] ∧
      x.wf = true ∧ x.heard 0 5 = some (ent 5 1 0x8002) ∧ 4 + 3 * x.topoPer 0 < x.cyc 0 ∧ x.trkOn 0 = true ∧
      x.fld R.TRK_STN 29 28 0 = 0 ∧ x.numOk 0 = false ∧ (vget x.trk 0).changed + 3 * x.topoPer 0 ≤ x.cyc 0 ∧
      s.accepts 0x3F R.TRK_STN 1 = true ∧ s.accepts 0x3F R.TRK_CMD 1 = true ∧ x.slock 0 = true ∧
      (vget x.trk 0).slAt + 38400000 ≤ x.cyc 0 := by decide +kernel

/-- A TOPO of the station itself, and an entry that is not its own. -/
theorem wit_SurveyLinks_own (d : Fin 2) :
    (∃ b : List Byte, fCls b = 0 ∧ fTyp b = 3 ∧ beAt ((b.drop 16).take 16) 0 8 = trkUid d) ∧ ∃ u < 2, u ≠ trkUid d := by
  refine ⟨⟨[0x43] ++ List.replicate 15 0 ++ beBytes 8 (trkUid d), by simp [fCls, beAt, beNat, leNat, bits], by simp [fTyp, beAt, beNat, leNat, bits], ?_⟩, ?_⟩
  · have h : trkUid d < 2 ^ 64 := Nat.mod_lt _ (by decide)
    rw [show (([0x43] ++ List.replicate 15 0 ++ beBytes 8 (trkUid d) : List Byte).drop 16).take 16 = beBytes 8 (trkUid d) from by
      rw [List.drop_append_of_le_length (by decide)]
      simp [beBytes, List.take_of_length_le]]
    simp only [beAt, List.drop_zero]
    rw [List.take_of_length_le (by simp [beBytes]), beNat, beBytes, List.reverse_reverse, leNat_leBytes]
    omega
  · rcases Nat.eq_zero_or_pos (trkUid d) with h | h
    · exact ⟨1, by decide, by omega⟩
    · exact ⟨0, by decide, by omega⟩

/-- Ring 32 of the atrium holds one bulk request for station 3, of 8 bytes at 0x40030000. -/
def bulkReq : Dev :=
  let e := leBytes 4 77 ++ leBytes 8 0 ++ leBytes 2 0 ++ leBytes 2 0 ++ leBytes 4 3 ++ leBytes 4 8 ++ leBytes 8 0 ++
    leBytes 8 0x40030000
  let s := (trk 1 fun t => { t with map := [ent 5 1 0x8003] }).wr R.TRK_STN 0xB0000007 1
  let s := (s.wr R.RING_BASE 0x40010000 0 32).wr R.RING_CFG 0xA0000004 0 32
  ({ s with hub := { s.hub with rings := [(32, ⟨1, 0, 1⟩)] } }.wrBytes 0x40010000 e).wr R.RING_RPTR 1 0 32

theorem wit_TrunkTransfers :
    let x := at_ 192000 (trk 1 fun t => { t with link := vmod t.link 1 fun x => { x with exch := some ⟨77, 9, 100, 0⟩ } })
    let r := inbox 1 0 1 (beBytes 4 77 ++ beBytes 20 0)
    let op := inbox 0 1 0 (beBytes 1 4 ++ beBytes 3 300 ++ beBytes 4 9 ++ beBytes 4 7 ++ beBytes 4 0)
    let q := inbox 0 2 0 (beBytes 2 64 ++ List.replicate 50 5)
    let p := { ring64 3 with trk := q.trk, regs := ((ring64 3).wr R.RING_CFG 0xA2000004 0 64).regs }
    let e := bulkReq.rdBytes (bulkReq.ringHead 32) 64
    let b := (inbox 1 3 0 (List.replicate 12 5)).wr R.TRK_RXBASE 0x40030800 1
    let head := fun (s : Dev) (d : Fin 2) => (vget s.trk d).inbox.map fun f => (fCls f.bytes, fTyp f.bytes, fTag f.bytes)
    (trk 1 id).hub.txq = [] ∧ x.wf = true ∧ 0 + 192000 ≤ x.cyc 1 ∧ (inbox 1 0 0 (beBytes 8 77)).wf = true ∧
      (inbox 1 0 0 (beBytes 8 77)).lnkOn 1 1 = true ∧ ((inbox 1 0 0 (beBytes 8 77)).lnk 1 1).quiet = true ∧
      head (inbox 1 0 0 (beBytes 8 77)) 1 = [(0, 0, 9)] ∧ head r 1 = [(0, 1, 9)] ∧ (r.lnk 1 1).acal = none ∧
      (trk 0 id).accepts 0x3F R.TRK_CMD = true ∧ (vget (trk 0 id).trk 0).inbox = [] ∧ q.wf = true ∧
      head q 0 = [(2, 0, 9)] ∧ q.ringEn 64 = false ∧ p.wf = true ∧ p.ringEn 64 = true ∧ p.bt R.RING_CFG 25 0 64 = true ∧
      p.ledgerRefuses (p.ringClass 64) = false ∧ 1000 ≤ p.rg R.RING_TOK 0 64 ∧
      (p.ring 64).rocc < p.ringN 64 - p.ringS 64 ∧ op.wf = true ∧ head op 0 = [(1, 0, 9)] ∧ op.cdieOn = true ∧
      op.cellBad 300 = false ∧ op.cell 300 < 9 ∧ bulkReq.wf = true ∧ bulkReq.trkOn 1 = true ∧ bulkReq.ringEn 32 = true ∧
      bulkReq.ringOcc 32 = 1 ∧ bulkReq.clean (bulkReq.ringHead 32) 64 = true ∧ leNat ((e.drop 0x14).take 2) = 8 ∧
      leNat ((e.drop 0x10).take 2) = 3 ∧ leNat ((e.drop 0x20).take 8) = 0x40030000 ∧
      bulkReq.poisoned 0x40030000 8 = false ∧ (bulkReq.route 1 3).isSome = true ∧
      bulkReq.refusal 0x1D 0x40030000 8 .rd = none ∧ b.wf = true ∧ head b 1 = [(3, 0, 9)] ∧ b.ringEn 33 = false ∧
      b.refusal 0x1D (b.fld R.TRK_RXBASE 39 11 1 * 2048) 8 .wr = none := by decide +kernel

/-! ### Witnesses: serial ports, pins, flash -/

/-- Serial port `p` of die `d` changed. -/
def csp (d : Fin 2) (p : Fin 4) (f : CspSt → CspSt) : Dev :=
  { up with ser := vmod up.ser d fun x => { x with csp := vmod x.csp p f } }

/-- A running transfer of two frames of eight bits with transmit and receive. -/
def busy (x : CspSt) : CspSt := { x with busy := true, xfer := 0x98000700, cfg := 0x80000000, nfrm := 1, sel := some 0 }

/-- Flash port `q` of die `d` changed. -/
def fl (d q : Fin 2) (f : FlSt → FlSt) : Dev :=
  { (up.wr R.FL_CFG 0x80042714 d.val q.val) with ser := vmod up.ser d fun x => { x with fl := vmod x.fl q f } }

theorem wit_PinsAndSerial :
    let s := up.setB R.CSP_CFG 31 true 1 3
    let b := csp 1 3 busy
    let t := csp 1 3 fun x => { busy x with tx := [7], rx := List.replicate 15 9 }
    let f := csp 1 3 fun x => { busy x with tx := [7], rx := List.replicate 16 9, why := 3 }
    let a := csp 1 3 fun x => { busy x with abort := true }
    s.wf = true ∧ s.accepts 0x3F R.CSP_XFER 1 3 = true ∧ s.bt R.CSP_CFG 31 1 3 = true ∧ (s.csp 1 3).busy = false ∧
      s.accepts 0x3F R.CSP_TXD 1 3 = true ∧ s.readable 0x3F R.CSP_RXD 1 3 = true ∧ b.wf = true ∧
      b.accepts 0x3F R.CSP_XFER 1 3 = true ∧ (b.csp 1 3).frame < (b.csp 1 3).frames ∧ (b.csp 1 3).tx = [] ∧
      t.wf = true ∧ (t.csp 1 3).rx.length = 15 ∧ bits (t.csp 1 3).xfer 25 24 = 0 ∧ f.wf = true ∧ (f.csp 1 3).why ≠ 0 ∧
      16 ≤ (f.csp 1 3).rx.length ∧ a.wf = true ∧ (a.csp 1 3).abort = true ∧
      (csp 1 3 fun x => { busy x with frame := 2 }).wf = true ∧ (b.csp 1 3).frames ≤ 2 ∧
      up.accepts 0x3F R.GPIO_SET 1 = true ∧ up.accepts 0x3F R.GPIO_CLR 1 = true ∧ up.fitted 1 = true := by decide

theorem wit_FlashPorts :
    let s := fl 0 0 id
    let b := fl 0 0 fun x => { x with cmd := some 0x91000000 }
    let p := fl 0 0 fun x => { x with cmd := some 0x91000000, polling := true }
    s.wf = true ∧ s.fitted 0 = true ∧ s.accepts 0x3F R.FL_CFG 0 0 = true ∧ s.accepts 0x18 R.FL_CMD 0 0 = true ∧
      s.accepts 0x3F R.FL_CMD 0 0 = true ∧ up.bt R.FL_CFG 31 0 0 = false ∧ (s.fl 0 0).cmd = none ∧
      up.accepts 4 R.FL_CMD 0 0 = true ∧ regionOf 0x1007FFFF8 = some (.flash 0) ∧ s.flashBusy 0x1007FFFF8 = false ∧
      s.refusal 0x18 0x1007FFFF8 8 .rd = none ∧ s.clean 0x1007FFFF8 8 = true ∧ s.poisoned 0x1007FFFF8 8 = false ∧
      b.wf = true ∧ b.flashBusy 0x1007FFFF8 = true ∧ (b.fl 0 0).cmd = some 0x91000000 ∧ (b.fl 0 0).polling = false ∧
      bits 0x91000000 24 16 ≤ 256 ∧ p.wf = true ∧ (p.fl 0 0).polling = true := by decide

/-! ### Witnesses: acoustics -/

/-- Group 3 of die 1 captures input 7 alone: `cfg` configures the input, and the group. -/
def aco (cfg grp : Nat) (f : GrpSt → GrpSt) : Dev :=
  let s := ((((up.wr R.AC_CTL 0x80000000 1).wr R.SD_CFG cfg 1 7).wr R.GRP_SDMASK 0x80 1 3).wr R.GRP_BASE 0x40040000 1 3).wr
    R.GRP_CFG grp 1 3
  { s with aco := vmod s.aco 1 fun x => { x with
    sd := vset x.sd 7 ⟨cfg, 5, 0, 0, ⟨0, 0⟩⟩, grp := vmod x.grp 3 f } }

/-- A frame of one channel with `n` samples of 64. -/
def acf (n : Nat) : AcFrame :=
  { seq := 9, drop := false, disc := true, t0 := 77, trust := true, caldef := false, len := 64, dropped := 1
    ch := [List.replicate n ⟨5, ⟨1, 15⟩⟩] }

theorem wit_AcousticInputs :
    let s := aco 0x00004285 0x22000004 id
    let e := aco 0x00004285 0xA2000004 fun x => { x with frame := some (acf 62) }
    let a := aco 0x80004282 0xA2000004 fun x => { x with frame := some (acf 0) }
    let p := aco 0x00004285 0xA2000004 fun x => { x with done := some (acf 64) }
    s.wf = true ∧ s.fitted 1 = true ∧ s.accepts 0x3F R.SD_CFG 1 7 = true ∧ s.accepts 0x3F R.TDM_CFG 1 1 = true ∧
      s.accepts 0x3F R.GRP_CFG 1 3 = true ∧ s.grpEn 1 3 = false ∧ s.grpOk 1 3 0xA2000004 = true ∧
      s.grpOk 1 3 0xA2000003 = false ∧ s.bt R.GRP_SDMASK 7 1 3 = true ∧ e.wf = true ∧
      e.accepts 0x3F R.GRP_CFG 1 3 = true ∧ e.grpEn 1 3 = true ∧ e.fld R.GRP_CFG 29 28 1 3 = 2 ∧
      e.bt R.AC_CTL 31 1 = true ∧ e.ioUp 1 3 = true ∧ (∀ h, h ≠ 3 → e.grpEn 1 h = false) ∧ e.grpChans 1 3 = [7] ∧
      (e.sdIn 1 7).cfg = e.rg R.SD_CFG 1 7 ∧ (e.sdIn 1 7).hold = 0 ∧ bit (e.sdIn 1 7).cfg 31 = 0 ∧
      (e.grp 1 3).frame = some (acf 62) ∧ (acf 62).ch = [List.replicate 62 ⟨5, ⟨1, 15⟩⟩] ∧ 62 + 1 < (acf 62).len ∧
      a.wf = true ∧ a.grpChans 1 3 = [7] ∧ (a.sdIn 1 7).cfg = a.rg R.SD_CFG 1 7 ∧ bit (a.sdIn 1 7).cfg 31 = 1 ∧
      bits (a.sdIn 1 7).cfg 14 12 < (a.sdIn 1 7).step ∧ p.wf = true ∧ (p.grp 1 3).done = some (acf 64) ∧
      p.ringEn (16 + 3 + 4 * 1) = false ∧
      p.refusal 0x23 (p.fld R.GRP_BASE 39 6 1 3 * 64 + fsize 1 64 * (9 % 2 ^ log2nbuf 0xA2000004)) 8 .wr = none := by
  decide

/-! ### Witnesses: metering -/

/-- Metering of die 1 is on with RTD inputs 1 and 3, and it is changed. -/
def mtr (f : MtrSt → MtrSt) : Dev :=
  { ((up.wr R.MTR_CTL 0x80000000 1).wr R.RTD_CFG 0x80000000 1 1).wr R.RTD_CFG 0x80000002 1 3 with mtr := vmod up.mtr 1 f }

/-- The last conversion of a round is due on input 3. -/
def rtd (l : List (Fin 4)) : Dev :=
  mtr fun m => { m with round := some ⟨l, Vector.replicate 4 0x80000000, Vector.replicate 4 false, false⟩ }

/-- A measured direction. -/
def meas (tc : Int) : MeasDir := { raw := [1, 2, 3], ion := some 1, tc := tc, under := false, order := false, noecho := false }

/-- A shot of path 1 in a phase, with pick status `n`. -/
def shot0 (ph : ShotPhase) (n : Nat) : Shot :=
  { seq := 9, t0 := 1000, trust := true, caldef := false, brown := false, phase := ph
    cfg := (List.replicate 10 0) ++ [100] ++ List.replicate 5 0
    temps := Vector.replicate 4 ⟨20000, false⟩, round := 3, dn := some (meas 100000000), up := some (meas 100000100), wend := 50
    pstat := n, learned := none }

/-- Path 1 of die 1 runs a shot. -/
def shot1 (x : Shot) : Dev := mtr fun m => { m with path := vmod m.path 1 fun q => { q with shot := some x } }

theorem wit_MeteringEngine :
    let s := mtr id
    let z := (mtr fun m => { m with acc := vset m.acc 15 ⟨5, -7, 0⟩ }).wr R.ACC_CFG 0x8000000A 1 15
    let f := mtr fun m => { m with spN := 15 }
    up.wf = true ∧ up.fitted 1 = true ∧ up.bt R.MTR_CTL 31 1 = false ∧ up.accepts 0x3F R.MTR_CTL 1 = true ∧ s.wf = true ∧
      s.bt R.MTR_CTL 31 1 = true ∧ ((List.finRange 4).filter fun i => s.bt R.RTD_CFG 31 1 i.val) = [1, 3] ∧
      (vget s.mtr 1).round = none ∧ (rtd [3]).wf = true ∧ (rtd [1, 3]).wf = true ∧
      s.accepts 0x3F R.ACC_STAT 1 15 = true ∧ s.bt R.ACC_CFG 31 1 15 = false ∧ z.wf = true ∧
      z.bt R.ACC_CFG 31 1 15 = true ∧ z.fld R.ACC_CFG 3 0 1 15 = 0xA ∧ s.accepts 0x3F R.PRESS 1 = true ∧ f.wf = true ∧
      (vget f.mtr 1).spN = 15 ∧ (vget up.mtr 1).spN + 1 < 16 := by decide

theorem wit_MeterShots :
    let p := ((shot1 (shot0 .pick 0)).wr R.PICK_DN 100000100 1 1).wr R.PICK_UP 100000000 1 1
    let q := (shot1 (shot0 .pick 0)).wr R.PICK_DN 100000101 1 1
    (shot1 (shot0 .down 0)).wf = true ∧ (shot1 (shot0 .down 0)).shot 1 1 = some (shot0 .down 0) ∧
      (shot1 (shot0 .up 0)).wf = true ∧ bits (Shot.c { shot0 .up 0 with cfg := [] } 10) 31 16 = 0 ∧ p.wf = true ∧
      p.accepts 0x3F R.PICK_CMT 1 1 = true ∧ ¬ ((shot0 .pick 0).wend < (vget p.die 1).tcxo) ∧
      toS 32 (p.rg R.PICK_DN 1 1) - (meas 100000000).tc = bits ((shot0 .pick 0).c 10) 15 0 ∧
      toS 32 (q.rg R.PICK_DN 1 1) - (meas 100000000).tc = bits ((shot0 .pick 0).c 10) 15 0 + 1 ∧
      (shot1 { shot0 .ready 1 with brown := true }).wf = true ∧ (meas 5).noecho = false := by decide

/-! ### Witnesses: the field radio -/

/-- The radio of die 1 is enabled on antenna 3 with qualifier threshold `thr` and a delay of 5, and changed. -/
def rad (thr : Nat) (f : RadioSt → RadioSt) : Dev :=
  let s := ((up.wr R.RF_CTL 0x80000008 1).wr R.RF_QUAL (0x500 + thr) 1).wr R.RX_BASE 0x40050000 1
  { s with rad := vmod s.rad 1 fun r => f { r with realign := false, bb := vset r.bb 3 (List.replicate 33 (0, 0) ++
    [(if thr = 0 then 99 else 0, 0)] ++ List.replicate 200 (0, 0)) } }

/-- A trigger that has taken `n` samples. -/
def trig (n : Nat) (f : Trig → Trig) (r : RadioSt) : RadioSt := { r with
  det := .qualifying
  trig := some (f { n := n, pos0 := 3, sf0 := 0, trust := true, rssi := 7, tau := none, qpeak := 0, qant := 0, fmt := none
                    len := 0, decided := false, capt := none }) }

/-- A capture whose trigger has been decided, with `k` of its symbols reported. -/
def capt (k : Nat) (t : Trig) : Trig :=
  { t with decided := true, tau := some 100, fmt := some 0, len := 1, capt := some ⟨0x40050000, 9, k, false, false, false⟩ }

/-- Antenna 3 of die 1 transmits from slot 15. -/
def send (u w : Option Nat) (under : Bool) : Tx :=
  { k := 15, len := 1, addr := 0x40060000, g0 := 500, up := u, down := w, under := under }

theorem wit_FieldReceive :
    let s := rad 0 id
    let p := rad 0 (trig 134 id)
    let f := rad 200 (trig 134 id)
    let m := rad 200 (trig 236 fun t => { t with decided := true, tau := some 100 })
    let w := rad 200 fun r => { r with det := .waiting, rearm := true, paN := 16 }
    let k := fun (s : Dev) => { s with tt := vmod s.tt 1 fun t => { t with radMarks := [⟨625000, false⟩] } }
    let g := k (((((s.setB R.RCV_CTL 31 true 1).setB R.RF_STAT 15 true 1).setF R.RF_STAT 14 12 5 1).wr R.RX_WSEQ 4 1).wr
      R.RCV_DSEQ 3 1)
    up.wf = true ∧ up.fitted 1 = true ∧ up.accepts 0x3F R.RF_SFOFS 1 = true ∧ up.accepts 0x3F R.RF_CTL 1 = true ∧
      up.bt R.RF_CTL 31 1 = false ∧ s.wf = true ∧ s.bt R.RF_CTL 31 1 = true ∧ (vget s.rad 1).realign = false ∧
      (3 : Fin 4) ∈ s.ants 1 ∧ (0 : Fin 4) ∉ s.ants 1 ∧ p.wf = true ∧ s.fld R.RF_QUAL 15 8 1 = 5 ∧ 129 + 5 ≤ 134 ∧
      f.wf = true ∧ f.fld R.RF_QUAL 7 0 1 = 200 ∧ m.wf = true ∧ 100 + 136 ≤ 236 ∧
      (rad 200 (trig 133 id)).wf = true ∧ (rad 200 (trig 596 (capt 6))).wf = true ∧ up.cdieOn = true ∧
      (rad 200 (trig 604 (capt 7))).wf = true ∧ w.wf = true ∧ w.paHigh 1 = false ∧ (vget w.rad 1).det = .waiting ∧
      up.accepts 0x3F R.RCV_CTL 1 = true ∧ up.radGal 1 = none ∧ (k s).wf = true ∧ g.wf = true ∧
      g.bt R.RCV_CTL 31 1 = true ∧ (vget g.rad 1).rcvBad = false ∧ g.bt R.RCV_STAT 31 1 = false ∧
      (g.radGal 1).isSome = true ∧ g.ioUp 1 2 = true ∧ g.rg R.RCV_DSEQ 1 = 3 ∧ g.rg R.RX_WSEQ 1 = 4 ∧
      g.recDl 1 3 ≤ 625000 + 125000 := by decide +kernel

/-- A lag that passes makes the best lag pass. -/
theorem best_passes {β : Type} (lag : β → Nat × Nat) (idx : β → Nat) (e : 0 < p0Energy) (j : β) (hj : rhoGe (lag j) 1 = true) :
    ∀ (l : List β) (b : Nat × Nat × (Nat × Nat)), j ∈ l ∨ rhoGe b.2.2 1 = true →
      rhoGe (l.foldl (fun b j => if rhoGt (lag j) b.2.2 then (idx j, 3, lag j) else b) b).2.2 1 = true := by
  have up : ∀ b c : Nat × Nat, rhoGt c b = true → rhoGe b 1 = true → rhoGe c 1 = true := by
    intro b c h hb
    unfold rhoGt rhoGe at *
    split_ifs at * <;> simp_all
    rename_i h1 h2
    have h3 : 0 < b.2 := Nat.pos_of_ne_zero h2
    refine Nat.le_of_mul_le_mul_right ?_ h3
    nlinarith
  have down : ∀ b c : Nat × Nat, rhoGt c b = false → rhoGe c 1 = true → rhoGe b 1 = true := by
    intro b c h hc
    by_cases h1 : c.2 = 0
    · simp [rhoGe, h1] at hc
    have h3 : 0 < c.2 := Nat.pos_of_ne_zero h1
    simp only [rhoGe, h1, if_false, decide_eq_true_eq] at hc
    by_cases h2 : b.2 = 0
    · simp only [rhoGt, h1, h2, if_false, if_true, decide_eq_false_iff_not] at h
      generalize p0Energy = w at *
      have := Nat.mul_pos h3 e
      omega
    · simp only [rhoGt, h1, h2, if_false, decide_eq_false_iff_not, not_lt] at h
      simp only [rhoGe, h2, if_false, decide_eq_true_eq]
      refine Nat.le_of_mul_le_mul_right ?_ h3
      nlinarith
  intro l
  induction l with
  | nil => intro b h; simpa using h
  | cons a l ih =>
    intro b h
    rw [List.foldl_cons]
    apply ih
    rcases Bool.eq_false_or_eq_true (rhoGt (lag a) b.2.2) with hg | hg
    · simp only [hg, if_true]
      rcases h with h | h
      · rcases List.mem_cons.mp h with rfl | h
        · exact .inr hj
        · exact .inl h
      · exact .inr (up _ _ hg h)
    · simp only [hg, Bool.false_eq_true, if_false]
      rcases h with h | h
      · rcases List.mem_cons.mp h with rfl | h
        · exact .inr (down _ _ hg hj)
        · exact .inl h
      · exact .inr h

/-- Silence does not correlate. -/
theorem corr_zero (n : Nat) : corr (List.replicate n (0, 0)) = (0, 0) := by
  have hz : ((List.replicate n ((0, 0) : Cpx)).zip p0Samples).foldl (fun a yp => cadd a (cmulc yp.1 yp.2)) (0, 0) =
      (0, 0) := foldl_fixed _ _ _ fun p hp => by
    rw [List.eq_of_mem_replicate (List.of_mem_zip hp).1]; simp [cadd, cmulc]
  have he : (List.replicate n ((0, 0) : Cpx)).foldl (fun a v => a + cabs2 v) 0 = 0 := foldl_fixed _ _ _ fun p hp => by
    rw [List.eq_of_mem_replicate hp]; rfl
  simp only [corr, hz, he]
  rfl

theorem bestLag_passes (s : Dev) (h : s.ants 1 = [3]) (e : 0 < p0Energy) (n q j : Nat) (hj : j ∈ List.range 80)
    (hr : rhoGe (s.lagCorr 1 3 n (128 + q - 143 + j)) 1 = true) : rhoGe (s.bestLag 1 n q).2.2 1 = true := by
  unfold Dev.bestLag
  simp only [h, List.foldl_cons, List.foldl_nil]
  exact best_passes (fun j => s.lagCorr 1 3 n (128 + q - 143 + j)) (fun j => 128 + q - 143 + j) e j hr _ _ (.inl hj)

theorem wit_FieldReceive_pass : rhoGe ((rad 0 (trig 134 id)).bestLag 1 134 5).2.2 1 = true :=
  bestLag_passes _ (by decide) (by decide +kernel) 134 5 64 (List.mem_range.mpr (by decide)) (by decide +kernel)

theorem wit_FieldReceive_fail : rhoGe ((rad 200 (trig 134 id)).bestLag 1 134 5).2.2 799 = false := by
  have h : (rad 200 (trig 134 id)).ants 1 = [3] := by decide
  have z : ∀ k < 134, (rad 200 (trig 134 id)).bbAt 1 3 k = (0, 0) := by decide +kernel
  have c : ∀ i, (rad 200 (trig 134 id)).lagCorr 1 3 134 i = (0, 0) := by
    intro i
    have e : ((List.range 64).map fun m => (rad 200 (trig 134 id)).bbAt 1 3 (134 - 1 - (i + m))) =
        List.replicate 64 (0, 0) :=
      List.eq_replicate_iff.mpr ⟨by simp, fun x hx => by
        obtain ⟨m, _, rfl⟩ := List.mem_map.mp hx
        exact z _ (by omega)⟩
    unfold Dev.lagCorr
    exact (congrArg corr e).trans (corr_zero 64)
  unfold Dev.bestLag
  rw [h, foldl_fixed _ _ _ fun j _ => by simp [c, rhoGt]]
  decide

theorem wit_FieldTransmit :
    let t := fun x => rad 0 fun r => { r with tx := vset r.tx 3 (some x) }
    (t (send none none false)).wf = true ∧ vget (vget (t (send none none false)).rad 1).tx 3 = some (send none none false) ∧
      (t (send (some 9) none false)).wf = true ∧ up.txReadable 0x40060000 2016 = true ∧
      (t (send (some 9) (some 100) true)).wf = true ∧ (send none none false).k < 16 := by decide

/-! ### Witnesses: host cores -/

/-- Host core 3 runs in machine mode at 0x40000000, changed. -/
def host (f : HostCore → HostCore) : Dev :=
  { up with host := { up.host with
    core := vmod up.host.core 3 fun _ => f { HostCore.init with run := .running, pc := 0x40000000 } } }

/-- x1 and x2 of it. -/
def hregs (a b : DWord) : Dev := host fun h => { h with x := vset (vset h.x 1 a) 2 b }

theorem wit_HostCores :
    let s := hregs 5 0x40000005
    let f := { s with bus := { s.bus with outw := [(3, 1)] } }
    let r := hregs 0x2FFFF000 0
    s.wf = true ∧ s.plicSample.hostReady 3 4 = true ∧ f.wf = true ∧ f.plicSample.hostReady 3 4 = true ∧
      (s.plicSample.hc 3).trigHit .r 0x40000005 = none ∧ (s.plicSample.hc 3).trigHit .w 0x40000005 = none ∧
      r.plicSample.hostReady 3 4 = true ∧ (r.plicSample.hc 3).pmpOk .m .r 0x2FFFF000 4 = true ∧
      (r.plicSample.hc 3).pmpOk .m .w 0x2FFFF000 4 = true ∧ r.plicSample.hostLined 0x2FFFF000 = false ∧
      dmiOf 0x2FFFF000 = none ∧ hostRelease 0x2FFFF000 = false ∧
      (r.plicSample.refusal 3 0x2FFFF000 4 .rd).isSome = true ∧ (r.plicSample.refusal 3 0x2FFFF000 4 .wr).isSome = true ∧
      (r.plicSample.hc 3).trigHit .r 0x2FFFF000 = none ∧ (r.plicSample.hc 3).trigHit .w 0x2FFFF000 = none := by
  intro s f r
  have hs : s.plicSample = s := plicSample_quiet _ (by decide +kernel)
  have hf : f.plicSample = f := plicSample_quiet _ (by decide +kernel)
  have hr : r.plicSample = r := plicSample_quiet _ (by decide +kernel)
  rw [hs, hf, hr]
  decide +kernel

theorem wit_HostCaches :
    let u := hregs 0x20000000 0
    let l : HLine := ⟨List.replicate 64 7, true, false, 0⟩
    let s := { hregs 0x80000000C 0 with host := { (hregs 0x80000000C 0).host with cache := [(0x20000000, l)] } }
    let m := s.setB R.L2_STAT 31 true
    let f := { m with host := { m.host with flushing := [0x20000000] } }
    u.plicSample.hostReady 3 4 = true ∧ (u.plicSample.hc 3).pmpOk .m .r 0x20000000 1 = true ∧
      u.plicSample.hostCacheable 0x20000000 = false ∧ s.wf = true ∧ s.plicSample.hostReady 3 4 = true ∧
      (s.plicSample.hc 3).pmpOk .m .r 0x80000000C 1 = true ∧ s.plicSample.hostLined 0x80000000C = true ∧
      s.line 0x20000000 = some l ∧ up.accepts 0x3F R.L2_FLUSH = true ∧ up.bt R.L2_STAT 31 = false ∧ f.wf = true ∧
      f.bt R.L2_STAT 31 = true ∧ f.line 0x20000000 = some l ∧ f.refusal 4 0x800000000 8 .wr = none := by
  intro u l s m f
  have hu : u.plicSample = u := plicSample_quiet _ (by decide +kernel)
  have hs : s.plicSample = s := plicSample_quiet _ (by decide +kernel)
  rw [hu, hs]
  decide +kernel

/-! ### Witnesses: the hub's controllers and the test port -/

/-- Admission queue and works. -/
def adm (q : List Nat) (w : List Work) : Dev := hub0 fun h => { h with admq := q, works := w }

/-- A manifest without records at `a`: class, galleries and cells. -/
def mani (s : Dev) (a cls ngal ncells : Nat) : Dev :=
  s.wrBytes a (leBytes 4 0x1B6A3A4D ++ leBytes 2 1 ++ leBytes 2 0 ++ leBytes 1 cls ++ leBytes 1 3 ++ leBytes 1 ngal ++
    leBytes 5 0 ++ leBytes 8 0x2000 ++ leBytes 8 0x4000 ++ leBytes 8 0 ++ leBytes 4 ncells)

/-- Two manifests that wait, of which the second is the foremost. -/
def mans (cls : Nat) : Dev :=
  (mani (mani (adm [0x40060000, 0x40050000] []) 0x40050000 1 1 40) 0x40060000 cls 2 0).wr R.ADM_ATRHI 0x42FFFFFF

/-- A work that owns rings 64 and 66, gallery 0 and cells from 260 on. -/
def work1 : Work :=
  { id := 1, cls := 1, tenant := 3, gals := [0], radio := none, carousel := false, remote := false, cellBase := 260,
    nCells := 100, nBuf := 0, placed := [], rings := [64, 66], bytesGs := 0, bytesAtr := 0, bytesStk := 0, energy := 0,
    charge := 0, used := 0, tag := 0, manifest := 0 }

theorem wit_InterruptController :
    let s := ((up.wr R.PLIC_PRI 3 0 24).wr R.PLIC_EN 0x1000000 0 3 0).wr R.PLIC_PEND 0x1000000 0 0
    s.wf = true ∧ s.readable 0x3F R.PLIC_CLAIM 0 3 = true ∧ s.accepts 0x3F R.PLIC_CLAIM 0 3 = true ∧
      s.bt R.PLIC_EN (24 % 32) 0 3 (24 / 32) = true ∧ s.bt R.PLIC_EN (25 % 32) 0 3 (25 / 32) = false ∧
      s.plicReady 3 24 = true := by decide +kernel

theorem wit_HostTimerAndBells :
    let s := { hregs 0 0 with host := { up.host with
      core := vmod up.host.core 3 fun h => { h with wfi := true, csr := [(0x304, 128)] } } }
    s.wf = true ∧ s.accepts 0x3F R.MTIME = true ∧ s.accepts 0x3F R.MSIP 0 3 = true ∧
      s.accepts 0x3F R.SETSSIP 0 3 = true ∧ s.accepts 0x3F R.HOST_DBELL = true ∧
      (s.wr R.MTIMECMP 0 0 3).rg R.MTIMECMP 0 3 ≤ s.rg R.MTIME ∧ bit ((s.hc 3).c 0x304) 7 = 1 ∧
      ¬ up.rg R.MTIMECMP 0 3 ≤ up.rg R.MTIME := by decide +kernel

theorem wit_TestPort :
    let s := { hregs 1 2 with host := { (hregs 1 2).host with dm := [(4, 77), (0x10, 0x30001)] } }
    let h := { s with host := { s.host with core := vmod s.host.core 3 fun h => { h with run := .halted } } }
    let l := { s with die := vmod s.die 0 fun x => { x with otp := [(16, 4)] } }
    l.dbgLock = true ∧ s.dbgLock = false ∧ s.islUp 6 = true ∧ s.wf = true ∧ s.dmActive = true ∧
      bit (s.dm 0x18) 0 = 0 ∧ bit (s.dm 0x10) 1 = 0 ∧ bit (s.dm 0x10) 29 = 0 ∧ (s.hc 3).run = .running ∧
      (h.hc 3).run = .halted ∧ Fin.ofNat 4 (bits 0x80030001 17 16) = 3 ∧ memAddr 0x42FFFFFC = true ∧
      s.clean 0x42FFFFFC 4 = true ∧ s.refusal 0x3F 0x42FFFFFC 4 .rd = none ∧ s.refusal 0x3F 0x42FFFFFC 4 .wr = none ∧
      regionOf 0x42FFFFFC = some .atrium ∧ (s.refusal 0x3F 0x42FFFFFE 4 .wr).isSome = true ∧
      memAddr 0x42FFFFFE = true ∧ s.clean 0x42FFFFFE 4 = true ∧ s.fitted 1 = true := by decide +kernel

theorem wit_Admission :
    let s := mans 2
    let b := mans 9
    let w := adm [] [work1]
    s.wf = true ∧ s.accepts 0x3F R.ADM_REQ = true ∧ s.ldg.stage = .idle ∧ s.hub.admq = [0x40060000] ++ 0x40050000 :: [] ∧
      s.admRank 0x40050000 < s.admRank 0x40060000 ∧ inAtrium 0x40050000 128 = true ∧
      s.clean 0x40050000 (s.manifest 0x40050000).bytes = true ∧ s.ringEn 48 = false ∧ s.hub.popWaits = [] ∧
      s.hub.waits = [] ∧ s.reasons (s.manifest 0x40050000) = 0 ∧ b.reasons (b.manifest 0x40060000) = 1 ∧
      (s.clean 0x40060000 (s.manifest 0x40060000).bytes) = true ∧ w.wf = true ∧ w.accepts 0x3F R.ADM_REL = true ∧
      w.hub.works.find? (·.id == 129 % 128) = some work1 ∧ (∀ x ∈ w.hub.works, x.id ≠ 2 % 128) := by decide +kernel

/-! ### Witnesses: the queue -/

theorem wit_CanonicalForm :
    State.reset.dev.wf = true ∧ step { State.reset with pending := [.computeDiePowerDown] } =
      .next ⟨[], computeDiePowerDown State.reset.dev⟩ := ⟨by decide +kernel, rfl⟩

theorem wit_NoCommandStops :
    let s : State := ⟨[.superframeBoundary 1], { up with asm := .m1a }⟩
    s.dev.fitted 1 = false ∧ step s = .fault .unfitted := ⟨by decide, rfl⟩

/-! ### The spec's worked cases -/

/-- "Requantizing accumulators": MULT, SHIFT and three codes with their saturation. -/
theorem test_requantize :
    let l := ({ Leg.init with scale := 0x3C400000, insc := 0x3A800000, ctl := 0xFFFB } : Leg).derive
    l.mult = 0x55555580 ∧ l.shift = 34 ∧
      (l.plan (.ints [])).codes (.ints [30, 1590, -1500]) = [(-2, false), (127, true), (-128, true)] := by decide +kernel

/-- "A failed check and the wide re-run": the scales of both steps, the requirement and the codes. -/
theorem test_running_scale :
    let x : RqSrc := .floats [0x431EC000, 0xC2700000]
    let l : Leg := { Leg.init with ctl := 0x01280000, hist := [0x3F000000, 0x3F200000, 0x3F000000, 0x3F400000] }
    let w : Leg := { l with hist := [0x3FA00000], wide := true }
    (l.plan x).leg.scale = 0x3F700000 ∧ (l.plan x).req = 0x3FA00000 ∧ (l.plan x).codes x = [(127, true), (-64, false)] ∧
      (l.histReset (some 0x3FA00000)).hist = [0x3FA00000] ∧ (w.plan x).leg.scale = 0x3BC80000 ∧
      (w.plan x).codes x = [(26010, false), (-9830, false)] := by decide +kernel

/-- "One check-node row". -/
theorem test_check_node :
    min2Row 0 (([12, -7, 30, -128, 5, -9, -128] : List Int).map (ofS 32)) = (5, 7, 4, 5) := by decide +kernel

/-- "A fault in a delay slot". -/
theorem test_slot_fault :
    let d := core0 fun x => { x with pc := 0x3004, status := 2, slot := some (0x3000, 0x3100), sr := vset x.sr 4 0x8000 }
    ∃ t, execLw 0 ⟨5, 4, 2⟩ ⟨[], d⟩ = .next t ∧ (vget t.dev.core 0).epc = 0x3000 ∧
      (vget t.dev.core 0).cause = 0x40000006 ∧ (vget t.dev.core 0).badaddr = 0x8002 ∧
      (vget t.dev.core 0).status = 9 := ⟨_, rfl, by decide +kernel⟩

/-- "Forwarding and a partial overlap": the byte a store in the buffer forwards. -/
theorem test_forwarding :
    let d := core0 fun x => { x with
      sr := vset x.sr 2 0x80000100, sb := [⟨0x80000100, 0x80000100, 4, 0x11223344, false⟩] }
    ∃ t, execLbu 0 ⟨3, 2, 1⟩ ⟨[], d⟩ = .next t ∧ (vget t.dev.core 0).reg 3 = 0x33 := ⟨_, rfl, by decide +kernel⟩

/-- "Reaching a stack through the far aperture": the log of the refused read. -/
theorem test_far_aperture :
    let d := { up with asm := .m1a, core := vmod up.core 4 fun x => { x with
      farbase := 0x28, load := some ⟨2, 0xD2345678, ({ x with farbase := 0x28 }).toDev 0xD2345678, 4, false, false⟩ } }
    ∃ t, execLoadComplete 4 ⟨[], d⟩ = .next t ∧ t.dev.rg R.BERR_ADDR = 0x0A12345678 ∧
      t.dev.fld R.BERR_INFO 23 18 = 0x0C ∧ t.dev.bt R.BERR_INFO 31 = true := ⟨_, rfl, by decide +kernel⟩

/-- "The budget at an hour boundary". -/
theorem test_budget :
    let s := ((((((up.wr R.BAT_Q 180000000).wr R.Q_FLOOR 36000000).setF R.BAT_PAR 15 0 25600).setF R.LDG_CTL 23 16 48).setF
      R.LDG_CTL 3 0 4).wr R.BASE_RES 36000000000).setB R.LDG_CTL 31 true
    let w := fun (i c e : Nat) => { work1 with id := i, cls := c, energy := e, rings := [], gals := [] }
    let d := { s with
      ldg := { s.ldg with solar := 540000000000000 }
      hub := { s.hub with works := [w 1 1 18000000, w 2 2 3600000] } }
    d.ldgHour.rg R.BUDGET = 346800000000 ∧ d.ldgHour.budRem = 289200000000 := by decide +kernel

/-- "One tick of attribution and capping": the credits. -/
theorem test_credits :
    let s := (up.wr R.GAL_WORK 1 0 1).wr R.GAL_WORK 2 0 2
    let d := { s with
      ldg := { s.ldg with prev := #v[0, 0, 0, 0, 25600, 1250], est := #v[0, 14000000, 22000000, 0, 0, 0] }
      hub := { s.hub with works := [{ work1 with id := 1, gals := [1] }, { work1 with id := 2, gals := [2] }] } }
    d.credits = [(1, 12444444), (2, 19555555)] := by decide +kernel

/-- "Selection and audit of one row": the list. -/
theorem test_skip_list :
    let l : SkipLatch :=
      { nq := 1, np := 8, qpos := 100, kpos := 94, wback := 5, wfwd := 0, thr := 250, est := 0x80100000, cnt := 0x80120000,
        list := 0x80110000, qrow := 0, krow := 0, sscale := 0, zq := 0, zk := 0, minr := 0, exact := false,
        deadline := false, weak := true, far := true }
    (up.wrBytes 0x80100000 ([900, 300, 820, 400, 610, 880, 850, 990].flatMap fun v => leBytes 2 v)).keptRow l 0 =
      [1, 2, 4, 5, 6] := by decide +kernel

/-- "A refusal and a grant": REASONS of a manifest that asks for three galleries of which two are eligible. -/
theorem test_reasons :
    let w := fun (i c g : Nat) => { work1 with id := i, cls := c, gals := [g], rings := [], nCells := 0 }
    let s := mani (adm [] [w 1 1 0, w 2 3 1, w 3 3 2]) 0x40050000 2 3 0
    let d := (((s.wr R.GAL_WORK 1 0 0).wr R.GAL_WORK 2 0 1).wr R.GAL_WORK 3 0 2).wr R.ADM_ATRHI 0x40000FFF
    let d := { d with pwr := { d.pwr with gal := vset d.pwr.gal 5 .gated } }
    d.reasons (d.manifest 0x40050000) = 0x22 := by decide +kernel

/-- "First round and first shots": resistance and temperature of an input. -/
theorem test_rtd : rhe (9042374 * 1000000) 8388608 = 1077935 ∧ rtdTemp 1077935 1000000 = some 20000 := by decide +kernel

/-- "A range change during a loud onset": a replaced sample and the delivered word. -/
theorem test_range_change :
    let s := up.wr R.SD_CFG 0x80000700 0 2
    let d := s.modSd 0 2 fun x => { x with cfg := 0x80000700, step := 5 }
    let a := (d.sdSample 0 2 7400000).2.sdSample 0 2 3800000
    a.1.w = 0x38752084 ∧ (a.2.sdIn 0 2).step = 4 := by decide +kernel

/-- "A slot-end mark armed late". -/
theorem test_late_entry :
    let u := { up with time := { up.time with units := 38400009650 * tsTickUnits } }
    let s := ttCtlWrite 0 5 0x80000000 (((u.wr R.TT_TIME 38400009600 0 5).wr R.TT_PER 9600 0 5).wr R.TT_ACT 0x60000008 0 5)
    let t := { s with time := { s.time with units := 38400009651 * tsTickUnits } }.ttFire 0 5 true
    t.rg R.TT_TIME 0 5 = 38400019200 ∧ t.rg R.TT_LATEBY 0 5 = 51 ∧ t.rg R.TT_LATES 0 = 1 := by decide +kernel

/-- "One exchange on the upstream link". -/
theorem test_exchange :
    xferU 1000000000000 1000000050320 1000000060320 1000000110000 40000 = 300000 ∧
      xferD 1000000000000 1000000050320 1000000060320 1000000110000 = 50000000 := by decide

/-- "A three-slot QPSK burst" and "Sizing a group with TDM channels". -/
theorem test_formats :
    fmtCw 0x25 = 2 ∧ fmtLen 0x25 = 3 ∧ scrSeed 100 0 = 0x4640 ∧ scramble 4 0x4640 = ([1, 0, 0, 1], 0x6409) ∧
      fsize 12 480 = 23296 := by decide

/-! ### Ill-formed commands: one for each check -/

theorem test_wf_initiator :
    (Instr.plicClaim 6 0).wf = false ∧ (Instr.plicClaim 0x16 0).wf = false ∧ (Instr.plicClaim 0x3E 0).wf = false ∧
      (Instr.plicClaim 0x3F 0).wf = true ∧ (Instr.writeAcknowledge 0xE).wf = false := by decide

theorem test_wf_access :
    (Instr.registerWrite 0x3F (2 ^ 40) 4 0).wf = false ∧ (Instr.registerWrite 0x3F 0 3 0).wf = false ∧
      (Instr.registerWrite 0x3F 0 16 0).wf = false ∧ (Instr.registerWrite 0x3F 0 8 (2 ^ 64)).wf = false ∧
      (Instr.registerWrite 0x3F (2 ^ 40 - 1) 8 (2 ^ 64 - 1)).wf = true ∧ (Instr.lowHalfRead 0 (2 ^ 40)).wf = false ∧
      (Instr.flashWindowRead 0 0 0).wf = false ∧ (Instr.commandPop 0 (2 ^ 40)).wf = false := by decide

theorem test_wf_debug :
    (Instr.debugRegAccess 0x3F 0 8 none).wf = true ∧ (Instr.debugRegAccess 0x3F 0 12 none).wf = false ∧
      (Instr.debugRegAccess 0x3F 0 0x17C (some (2 ^ 32 - 1))).wf = true ∧
      (Instr.debugRegAccess 0x3F 0 0x180 none).wf = false ∧ (Instr.debugRegAccess 0x3F 0 0x102 none).wf = false ∧
      (Instr.debugRegAccess 0x3F 0 8 (some (2 ^ 32))).wf = false := by decide

theorem test_wf_pins :
    (Instr.resetRelease 0 (2 ^ 24)).wf = false ∧ (Instr.resetRelease 0 (2 ^ 24 - 1)).wf = true ∧
      (Instr.clockWindowEnd (.cd 0) 65536).wf = false ∧ (Instr.islandPowered 0 1).wf = false ∧
      (Instr.islandPowered 0 2).wf = true ∧ (Instr.ppsCapture 0 (625 * 2 ^ 40)).wf = false := by decide

theorem test_wf_words :
    (Instr.pmbAlert [some 65535, none]).wf = true ∧ (Instr.pmbAlert [some 65536]).wf = false ∧
      (Instr.railVoutPoll 256 none).wf = false ∧ (Instr.railVoutPoll 255 (some 65536)).wf = false ∧
      (Instr.ceilingRiseConfirm 0 (some 65536)).wf = false ∧ (Instr.remoteOutcome 0 16 0 0).wf = false ∧
      (Instr.remoteOutcome 0 15 (2 ^ 28) 0).wf = false ∧ (Instr.dmiAccess 3 0 0).wf = false ∧
      (Instr.dmiAccess 2 128 0).wf = false ∧ (Instr.sysbusAccess 3 0 0).wf = false := by decide

theorem test_wf_samples :
    (Instr.rssiSample 0 (List.replicate 16 4095)).wf = true ∧ (Instr.rssiSample 0 (List.replicate 15 0)).wf = false ∧
      (Instr.rssiSample 0 (List.replicate 16 4096)).wf = false ∧ (Instr.spSample 0 (List.replicate 6 (2 ^ 23))).wf = false ∧
      (Instr.spSample 0 (List.replicate 6 (-2 ^ 23))).wf = true ∧ (Instr.rtdConversionDone 0 (2 ^ 24)).wf = false ∧
      (Instr.shotUpStart 0 0 [32768] []).wf = false ∧ (Instr.thermalMeasure [0] [0, 0]).wf = false := by decide

theorem test_wf_frames :
    (Instr.frameReceive 0 0 (List.replicate 8 0)).wf = true ∧ (Instr.boundaryScanUpdate 0 32 []).wf = false ∧
      (Instr.cspUnitStart 0 0 true (List.replicate 65 true)).wf = false ∧
      (Instr.flashPoll 0 0 0 [(2 ^ 29, 0)]).wf = false := by decide

end Sys2Proof.Tests
end

section
/-!
PROOFS. The statements about reset, boot, fuses and calibration (R78 to R102), with the lemmas they share: bit
fields of registers, what an operation leaves of one register, and accepted register commands.
-/

namespace Sys2Proof.ResetBoot

open Sys2Proof.Machine

/-! ### Bit fields -/

/-- A word with a field replaced is the part above it, the new field and the part below it. -/
theorem setBits_eq (w hi lo v : Nat) :
    setBits w hi lo v =
      2 ^ lo * (2 ^ (hi - lo + 1) * (w / 2 ^ lo / 2 ^ (hi - lo + 1)) + v % 2 ^ (hi - lo + 1)) + w % 2 ^ lo := by
  have hlow := Nat.div_add_mod w (2 ^ lo)
  have hfield := Nat.div_add_mod (w / 2 ^ lo) (2 ^ (hi - lo + 1))
  unfold setBits bits
  generalize w / 2 ^ lo / 2 ^ (hi - lo + 1) = above at *
  generalize w / 2 ^ lo % 2 ^ (hi - lo + 1) = field at *
  generalize v % 2 ^ (hi - lo + 1) = new
  rw [← hfield] at hlow
  have hw : w - field * 2 ^ lo = 2 ^ lo * (2 ^ (hi - lo + 1) * above) + w % 2 ^ lo :=
    Nat.sub_eq_of_eq_add (by linarith)
  rw [hw]
  ring

theorem testBit_setBits (w hi lo v i : Nat) :
    (setBits w hi lo v).testBit i = if lo ≤ i ∧ i < lo + (hi - lo + 1) then v.testBit (i - lo) else w.testBit i := by
  rw [setBits_eq, Nat.testBit_two_pow_mul_add _ (Nat.mod_lt _ (by positivity))]
  rcases Nat.lt_or_ge i lo with hlt | hge
  · simp [hlt, show ¬ lo ≤ i by omega]
  · rw [if_neg (by omega), Nat.testBit_two_pow_mul_add _ (Nat.mod_lt _ (by positivity))]
    rcases Nat.lt_or_ge (i - lo) (hi - lo + 1) with hin | hout
    · simp [hin, hge, show i < lo + (hi - lo + 1) by omega]
    · rw [if_neg (by omega), if_neg (by omega), Nat.testBit_div_two_pow, Nat.testBit_div_two_pow]
      congr 1
      omega

theorem testBit_bits (w hi lo i : Nat) :
    (bits w hi lo).testBit i = (decide (i < hi - lo + 1) && w.testBit (i + lo)) := by
  rw [bits, Nat.testBit_mod_two_pow, Nat.testBit_div_two_pow]

theorem bit_eq_bits (w i : Nat) : bit w i = bits w i i := by simp [bit, bits]

theorem bit_eq_one_iff (w i : Nat) : bit w i = 1 ↔ w.testBit i = true := by
  rw [bit, Nat.testBit_eq_decide_div_mod_eq, decide_eq_true_iff]

theorem bit_congr {w x i : Nat} (h : w.testBit i = x.testBit i) : bit w i = bit x i := by
  have hw := bit_eq_one_iff w i
  have hx := bit_eq_one_iff x i
  have := Nat.mod_lt (w / 2 ^ i) (by decide : 0 < 2)
  have := Nat.mod_lt (x / 2 ^ i) (by decide : 0 < 2)
  rw [h, ← hx] at hw
  simp only [bit] at *
  omega

/-- A field just replaced reads as the new value. -/
theorem bits_setBits_same {n hi lo : Nat} (w v : Nat) (hl : lo ≤ hi) (hn : hi < n) :
    bits (setBits w hi lo v % 2 ^ n) hi lo = v % 2 ^ (hi - lo + 1) := by
  apply Nat.eq_of_testBit_eq
  intro i
  rw [testBit_bits, Nat.testBit_mod_two_pow, Nat.testBit_mod_two_pow, testBit_setBits]
  by_cases hi' : i < hi - lo + 1
  · simp [hi', show i + lo < n by omega, show i + lo < lo + (hi - lo + 1) by omega]
  · simp [hi']

/-- A field apart from the one replaced reads as before. -/
theorem bits_setBits_ne {n hi lo hi' lo' : Nat} (w v : Nat) (hl : lo ≤ hi) (hl' : lo' ≤ hi') (hn : hi' < n)
    (h : hi' < lo ∨ hi < lo') : bits (setBits w hi lo v % 2 ^ n) hi' lo' = bits w hi' lo' := by
  apply Nat.eq_of_testBit_eq
  intro i
  rw [testBit_bits, testBit_bits, Nat.testBit_mod_two_pow, testBit_setBits]
  by_cases hi' : i < hi' - lo' + 1
  · simp [hi', show i + lo' < n by omega, show ¬ (lo ≤ i + lo' ∧ i + lo' < lo + (hi - lo + 1)) by omega]
  · simp [hi']

theorem bit_setBits_ne {n hi lo b : Nat} (w v : Nat) (hl : lo ≤ hi) (hn : b < n) (h : b < lo ∨ hi < b) :
    bit (setBits w hi lo v % 2 ^ n) b = bit w b := by
  rw [bit_eq_bits, bit_eq_bits, bits_setBits_ne w v hl le_rfl hn h]

theorem bit_setBits_same {n b : Nat} (w v : Nat) (hn : b < n) : bit (setBits w b b v % 2 ^ n) b = v % 2 := by
  rw [bit_eq_bits, bits_setBits_same w v le_rfl hn, Nat.sub_self, pow_one]

theorem bits_mod {n hi lo : Nat} (w : Nat) (hn : hi < n) (hl : lo ≤ hi) : bits (w % 2 ^ n) hi lo = bits w hi lo := by
  apply Nat.eq_of_testBit_eq
  intro i
  rw [testBit_bits, testBit_bits, Nat.testBit_mod_two_pow]
  by_cases h : i < hi - lo + 1
  · simp [show i + lo < n by omega]
  · simp [h]

theorem bit_mod {n b : Nat} (w : Nat) (hn : b < n) : bit (w % 2 ^ n) b = bit w b := by
  rw [bit_eq_bits, bit_eq_bits, bits_mod w hn le_rfl]

end Sys2Proof.ResetBoot
end

section
namespace Sys2Proof.ResetBoot

open Sys2Proof.Machine

/-! ### Fields of registers after an update -/

section Fields

variable {s : Dev} {r : RegDef} {k i j : Nat}

theorem rg_setF (hi lo v : Nat) (hs : SMap.rising none s.regs = true) :
    (s.setF r hi lo v k i j).rg r k i j = setBits (s.rg r k i j) hi lo v % 2 ^ r.w := Dev.wr_rg_same s r _ k i j hs

theorem fld_setF_same {hi lo : Nat} (v : Nat) (hs : SMap.rising none s.regs = true) (hl : lo ≤ hi) (hw : hi < r.w) :
    (s.setF r hi lo v k i j).fld r hi lo k i j = v % 2 ^ (hi - lo + 1) := by
  rw [Dev.fld, rg_setF hi lo v hs, bits_setBits_same _ v hl hw]

theorem bt_setF_ne {hi lo b : Nat} (v : Nat) (hs : SMap.rising none s.regs = true) (hl : lo ≤ hi) (hw : b < r.w)
    (h : b < lo ∨ hi < b) : (s.setF r hi lo v k i j).bt r b k i j = s.bt r b k i j := by
  rw [Dev.bt, rg_setF hi lo v hs, bit_setBits_ne _ v hl hw h, Dev.bt]

theorem bt_setB_same {b : Nat} (x : Bool) (hs : SMap.rising none s.regs = true) (hw : b < r.w) :
    (s.setB r b x k i j).bt r b k i j = x := by
  rw [Dev.bt, Dev.setB, rg_setF b b _ hs, bit_setBits_same _ _ hw]
  cases x <;> rfl

theorem bt_setB_ne {b c : Nat} (x : Bool) (hs : SMap.rising none s.regs = true) (hw : c < r.w) (h : c ≠ b) :
    (s.setB r b x k i j).bt r c k i j = s.bt r c k i j := bt_setF_ne _ hs le_rfl hw (by omega)

theorem setF_rising (hi lo v : Nat) (hs : SMap.rising none s.regs = true) :
    SMap.rising none (s.setF r hi lo v k i j).regs = true := Dev.wr_rising s r _ k i j hs

theorem setB_rising (b : Nat) (x : Bool) (hs : SMap.rising none s.regs = true) :
    SMap.rising none (s.setB r b x k i j).regs = true := Dev.wr_rising s r _ k i j hs

theorem count_rising (n : Nat) (hs : SMap.rising none s.regs = true) :
    SMap.rising none (s.count r n k i j).regs = true := Dev.wr_rising s r _ k i j hs

end Fields

/-! ### Registers and parts after updates of other parts -/

section Parts

variable (s : Dev) (r : RegDef) (hi lo b k i j : Nat)

@[simp] theorem modDie_fld (d : Fin 2) (f : DieSt → DieSt) : (s.modDie d f).fld r hi lo k i j = s.fld r hi lo k i j := rfl

@[simp] theorem modDie_bt (d : Fin 2) (f : DieSt → DieSt) : (s.modDie d f).bt r b k i j = s.bt r b k i j := rfl

@[simp] theorem busResp_fld (ini : Nat) (x : Resp) : (s.busResp ini x).2.fld r hi lo k i j = s.fld r hi lo k i j := rfl

@[simp] theorem busResp_bt (ini : Nat) (x : Resp) : (s.busResp ini x).2.bt r b k i j = s.bt r b k i j := rfl

@[simp] theorem busResp_die (ini : Nat) (x : Resp) : (s.busResp ini x).2.die = s.die := rfl

@[simp] theorem busResp_core (ini : Nat) (x : Resp) : (s.busResp ini x).2.core = s.core := rfl

@[simp] theorem busResp_pwr (ini : Nat) (x : Resp) : (s.busResp ini x).2.pwr = s.pwr := rfl

@[simp] theorem busResp_host (ini : Nat) (x : Resp) : (s.busResp ini x).2.host = s.host := rfl

end Parts

/-! ### What an operation leaves of one register -/

/-- From `s` to `t` the register at address `a` keeps its value, and the map of the registers its order. -/
structure KeepsReg (a : Nat) (s t : Dev) : Prop where
  asm : t.asm = s.asm
  rising : SMap.rising none s.regs = true → SMap.rising none t.regs = true
  get : SMap.rising none s.regs = true → ∀ e, SMap.get e t.regs a = SMap.get e s.regs a

namespace KeepsReg

variable {a : Nat} {s t u : Dev}

theorem refl (s : Dev) : KeepsReg a s s := ⟨rfl, id, fun _ _ => rfl⟩

theorem trans (h : KeepsReg a s t) (h' : KeepsReg a t u) : KeepsReg a s u :=
  ⟨h'.asm.trans h.asm, fun hs => h'.rising (h.rising hs), fun hs e => (h'.get (h.rising hs) e).trans (h.get hs e)⟩

/-- An update of another part of the device keeps every register. -/
theorem same (h : KeepsReg a s t) (ha : u.asm = t.asm) (hr : u.regs = t.regs) : KeepsReg a s u :=
  h.trans ⟨ha, fun ht => hr ▸ ht, fun _ _ => by rw [hr]⟩

theorem wr (h : KeepsReg a s t) {r : RegDef} {k i j : Nat} (v : Nat) (hne : r.addr k i j ≠ a) :
    KeepsReg a s (t.wr r v k i j) :=
  h.trans ⟨rfl, fun ht => Dev.wr_rising t r v k i j ht, fun ht e => SMap.get_set_ne _ e _ ht hne.symm⟩

theorem setF (h : KeepsReg a s t) {r : RegDef} {k i j : Nat} (hi lo v : Nat) (hne : r.addr k i j ≠ a) :
    KeepsReg a s (t.setF r hi lo v k i j) := h.wr _ hne

theorem setB (h : KeepsReg a s t) {r : RegDef} {k i j : Nat} (b : Nat) (x : Bool) (hne : r.addr k i j ≠ a) :
    KeepsReg a s (t.setB r b x k i j) := h.wr _ hne

theorem orR (h : KeepsReg a s t) {r : RegDef} {k i j : Nat} (m : Nat) (hne : r.addr k i j ≠ a) :
    KeepsReg a s (t.orR r m k i j) := h.wr _ hne

theorem count (h : KeepsReg a s t) {r : RegDef} {k i j : Nat} (n : Nat) (hne : r.addr k i j ≠ a) :
    KeepsReg a s (t.count r n k i j) := h.wr _ hne

theorem rstRange (h : KeepsReg a s t) {lo hi : Nat} (hne : a < lo ∨ hi ≤ a) : KeepsReg a s (t.rstRange lo hi) :=
  h.trans ⟨rfl, fun ht => SMap.rising_filter t.regs _ none ht, fun ht e => by
    rw [Dev.rstRange, SMap.get_clear e t.regs lo hi a ht, if_pos hne]⟩

theorem modPwr (h : KeepsReg a s t) (f : PowerSt → PowerSt) : KeepsReg a s (t.modPwr f) := h.same rfl rfl

theorem modDie (h : KeepsReg a s t) (d : Fin 2) (f : DieSt → DieSt) : KeepsReg a s (t.modDie d f) := h.same rfl rfl

theorem ite {c : Prop} [Decidable c] (ht : c → KeepsReg a s t) (hu : ¬ c → KeepsReg a s u) :
    KeepsReg a s (if c then t else u) := by
  split
  case isTrue hc => exact ht hc
  case isFalse hc => exact hu hc

theorem foldl {α : Type} {f : Dev → α → Dev} {l : List α} (h : KeepsReg a s t)
    (hf : ∀ u x, x ∈ l → KeepsReg a u (f u x)) : KeepsReg a s (l.foldl f t) :=
  List.foldlRecOn l f h fun u hu x hx => hu.trans (hf u x hx)

/-- A register that is kept reads as before. -/
theorem rg {r : RegDef} {k i j : Nat} (h : KeepsReg (r.addr k i j) s t) (hs : SMap.rising none s.regs = true) :
    t.rg r k i j = s.rg r k i j := by
  rw [Dev.rg, h.get hs, h.asm, Dev.rg]

theorem fld {r : RegDef} {k i j : Nat} (h : KeepsReg (r.addr k i j) s t) (hs : SMap.rising none s.regs = true)
    (hi lo : Nat) : t.fld r hi lo k i j = s.fld r hi lo k i j := by
  rw [Dev.fld, h.rg hs, Dev.fld]

theorem bt {r : RegDef} {k i j : Nat} (h : KeepsReg (r.addr k i j) s t) (hs : SMap.rising none s.regs = true)
    (b : Nat) : t.bt r b k i j = s.bt r b k i j := by
  rw [Dev.bt, h.rg hs, Dev.bt]

end KeepsReg

/-! ### Accepted register commands -/

theorem wf_mem {s : Dev} (h : s.wf = true) : Memory.wf s.mem = true := by
  simp only [Dev.wf, Bool.and_eq_true] at h
  tauto

theorem wf_regs {s : Dev} (h : s.wf = true) : SMap.rising none s.regs = true := by
  simp only [Dev.wf, Bool.and_eq_true] at h
  tauto

theorem wf_dm {s : Dev} (h : s.wf = true) : SMap.rising none s.host.dm = true := by
  simp only [Dev.wf, Bool.and_eq_true] at h
  tauto

theorem wf_otp {s : Dev} (h : s.wf = true) (d : Fin 2) : SMap.rising none (vget s.die d).otp = true := by
  simp only [Dev.wf, Bool.and_eq_true, List.all_eq_true] at h
  exact h.2 d (List.mem_finRange d)

/-- Addresses of the registers of an I/O die. -/
theorem regionOf_ioReg {d : Fin 2} {o : Nat} (ho : o < 0x800000) : regionOf (ioBase d.val + o) = some (.ioReg d) := by
  have hd : d.val = 0 ∨ d.val = 1 := by omega
  rw [regionOf, ioBase, if_neg (by omega), if_neg (by omega), if_pos (by omega), if_neg (by omega)]
  rcases hd with hd | hd
  · have : (0x10000000 + d.val * 0x1000000 + o - 0x10000000) / 0x1000000 = 0 := by omega
    rw [this, show d = 0 from Fin.ext hd, toDie, if_pos rfl]
  · have : (0x10000000 + d.val * 0x1000000 + o - 0x10000000) / 0x1000000 = 1 := by omega
    rw [this, show d = 1 from Fin.ext hd, toDie, if_neg (by decide)]

/-- An accepted command that writes a 32-bit register of an I/O die writes that register. -/
theorem regCmd_accepted {s : Dev} {r : RegDef} {d : Fin 2} {ini v : Nat} (h : s.accepts ini r d.val = true)
    (hwin : r.win.base d.val = ioBase d.val) (ho : r.off < 0x800000) (hw : r.w = 32)
    (hx : regAt (r.addr d.val 0 0) = some ⟨r, d.val, 0, 0, 0⟩) :
    regCmd r ini v d.val 0 s = ((s.regWrite ini r d.val 0 0 v).busResp ini ⟨0, false, false⟩).2 := by
  have ha : r.addr d.val 0 0 = ioBase d.val + r.off := by simp [RegDef.addr, hwin]
  have hdmi : dmiOf (r.addr d.val 0 0) = none := by
    rw [ha, dmiOf, ioBase, if_neg (by omega)]
  rw [Dev.accepts, Option.isNone_iff_eq_none] at h
  exact regCmd_of (g := .ioReg d) hdmi h (by rw [ha]; exact regionOf_ioReg ho) rfl nofun hx (by simp [hw])

/-- The command words: a key in bits 31:24 and bit 0 set, the rest as given. -/
theorem keyed_facts {v key : Nat} (hk : key < 256) :
    bits (with1 (setBits v 31 24 key) 0 % 2 ^ 32) 31 24 = key ∧ bit (with1 (setBits v 31 24 key) 0 % 2 ^ 32) 0 = 1 ∧
      bits (with1 (setBits v 31 24 key) 0 % 2 ^ 32) 12 8 = bits v 12 8 := by
  have above (hi lo : Nat) (hl : lo ≤ hi) (h0 : 0 < lo) (hw : hi < 32) :
      bits (with1 (setBits v 31 24 key) 0 % 2 ^ 32) hi lo = bits (setBits v 31 24 key % 2 ^ 32) hi lo := by
    rw [with1, bits_setBits_ne _ _ le_rfl hl hw (.inr h0), bits_mod _ hw hl]
  refine ⟨?_, bit_setBits_same _ _ (by decide), ?_⟩
  · rw [above 31 24 (by decide) (by decide) (by decide), bits_setBits_same _ _ (by decide) (by decide)]
    exact Nat.mod_eq_of_lt hk
  · rw [above 12 8 (by decide) (by decide) (by decide), bits_setBits_ne _ _ (by decide) (by decide) (by decide) (by decide)]

theorem answers_ok {f : Dev → Dev} {s : State} {p : Dev → Prop} (h : p (f s.dev)) : answers (ok f s) s p :=
  ⟨_, rfl, h⟩

theorem answers_onDie {d : Fin 2} {f : Dev → Dev} {s : State} {p : Dev → Prop} (hd : s.dev.fitted d.val = true)
    (h : p (f s.dev)) : answers (onDie d f s) s p := ⟨_, onDie_fitted d f s hd, h⟩

end Sys2Proof.ResetBoot
end

section
namespace Sys2Proof.ResetBoot

open Sys2Proof.Machine

/-! ### Fuses and the calibration block (R97, R101, R102) -/

theorem otpProgram_accepted {s : Dev} {ini v : Nat} {d : Fin 2} (h : s.accepts ini R.OTP_CMD d.val = true) :
    regCmd R.OTP_CMD ini (with1 (setBits v 31 24 0x3C) 0) d.val 0 s =
      ((otpCmdWrite ini d (with1 (setBits v 31 24 0x3C) 0 % 2 ^ 32) s).busResp ini ⟨0, false, false⟩).2 := by
  rw [regCmd_accepted h rfl (by decide) rfl (by fin_cases d <;> rfl)]
  fin_cases d <;> rfl

theorem calCommit_accepted {s : Dev} {ini v : Nat} {d : Fin 2} (h : s.accepts ini R.CAL_CMD d.val = true) :
    regCmd R.CAL_CMD ini (with1 (setBits v 31 24 0x5C) 0) d.val 0 s =
      ((calCmdWrite ini d (with1 (setBits v 31 24 0x5C) 0 % 2 ^ 32) s).busResp ini ⟨0, false, false⟩).2 := by
  rw [regCmd_accepted h rfl (by decide) rfl (by fin_cases d <;> rfl)]
  fin_cases d <;> rfl

/-- The warden's command with the key starts programming the word it names (R97). -/
theorem otpCmdWrite_warden {s : Dev} {v : Nat} {d : Fin 2} (hkey : bits v 31 24 = 0x3C) (hgo : bit v 0 = 1)
    (hw : bits v 12 8 ≤ 18) (hidle : (vget s.die d).otpBusy = none) :
    otpCmdWrite (0x18 + d.val) d v s =
      ((s.setB R.OTP_STAT 31 true d).setEnded d false).modDie d fun x =>
        { x with otpBusy := some (bits v 12 8, s.rg R.OTP_DATA d) } := by
  simp [otpCmdWrite, hkey, hgo, hidle, Nat.not_lt.mpr hw]

/-- A command of another initiator than the warden and JTAG programs nothing (R97). -/
theorem otpCmdWrite_other {s : Dev} {ini v : Nat} {d : Fin 2} (hini : ini ≠ 0x18 + d.val) (hjtag : ini ≠ 0x3F) :
    otpCmdWrite ini d v s = s := by
  simp [otpCmdWrite, hini, hjtag]

/-- Programming that succeeds sets the bits of the word and ends (R97). -/
theorem otpProgramDone_good {s : Dev} {d : Fin 2} {word data : Nat} (hbusy : (vget s.die d).otpBusy = some (word, data)) :
    otpProgramDone d true s =
      (((s.draw.2.modDie d fun y => { y with
        otp := SMap.set 0 y.otp word (SMap.get 0 (vget s.die d).otp word ||| data), otpBusy := none }).setB
          R.OTP_STAT 31 false d).setEnded d true) := by
  simp [otpProgramDone, hbusy]

/-- A sound block that software has staged is taken for programming (R101). -/
theorem calCmdWrite_start {s : Dev} {v : Nat} {d : Fin 2} (hkey : bits v 31 24 = 0x5C) (hgo : bit v 0 = 1)
    (hidle : (vget s.die d).commit = none) (hlock : SMap.get 0 (vget s.die d).otp 16 / 8 % 2 = 0)
    (hwear : (vget s.die d).wear < 1000) (hsound : calSound (vget s.die d).calStage = true)
    (hsrc : calSource (vget s.die d).calStage = 2) :
    calCmdWrite (0x18 + d.val) d v s =
      ((s.setB R.CAL_STAT 30 true d).setEnded d false).modDie d fun x =>
        { x with commit := some ⟨(vget s.die d).calStage⟩, wear := x.wear + 1 } := by
  obtain ⟨⟨hmagic, hformat⟩, -⟩ := by simpa only [calSound, Bool.and_eq_true, beq_iff_eq] using hsound
  simp [calCmdWrite, hkey, hgo, hidle, hlock, Nat.not_le.mpr hwear, hmagic, hformat, hsrc, hsound]

/-- A worn block is not programmed again (R101). -/
theorem calCmdWrite_worn {s : Dev} {v : Nat} {d : Fin 2} (hkey : bits v 31 24 = 0x5C) (hgo : bit v 0 = 1)
    (hidle : (vget s.die d).commit = none) (hlock : SMap.get 0 (vget s.die d).otp 16 / 8 % 2 = 0)
    (hwear : 1000 ≤ (vget s.die d).wear) :
    calCmdWrite (0x18 + d.val) d v s = (s.calResult d 5).setEnded d true := by
  simp [calCmdWrite, hkey, hgo, hidle, hlock, hwear]

/-- A block that reads back becomes the stored block and the live view (R102). -/
theorem calCommitDone_good {s : Dev} {d : Fin 2} {c : Commit} (hc : (vget s.die d).commit = some c)
    (hquiet : s.measuring d = false) (hok : calOk c.buf = true) :
    calCommitDone d true s =
      (((((s.draw.2.modDie d fun x => { x with calNv := c.buf, commit := none }).setB R.CAL_STAT 30 false d).setEnded d
        true).calApply d c.buf).calResult d 1) := by
  simp [calCommitDone, hc, hquiet, hok]

@[simp] theorem setEnded_bt (s : Dev) (d : Fin 2) (x : Bool) (r : RegDef) (b k i j : Nat) :
    (s.setEnded d x).bt r b k i j = s.bt r b k i j := rfl

@[simp] theorem calResult_die (s : Dev) (d : Fin 2) (n : Nat) : (s.calResult d n).die = s.die := by
  rw [Dev.calResult, Dev.setF_die]

/-- Bringing the live view up to date leaves BUSY of CAL_STAT. -/
theorem calApply_busy {s : Dev} {d : Fin 2} {m : SMap Byte} (hs : SMap.rising none s.regs = true) :
    (s.calApply d m).bt R.CAL_STAT 30 d = s.bt R.CAL_STAT 30 d := by
  have hm : SMap.rising none (s.modDie d fun x => { x with calLive := m }).regs = true := hs
  rw [Dev.calApply, bt_setF_ne _ (setB_rising _ _ hm) (by decide) (by decide) (by decide),
    bt_setB_ne _ hm (by decide) (by decide), modDie_bt]

theorem calApply_rising {s : Dev} {d : Fin 2} {m : SMap Byte} (hs : SMap.rising none s.regs = true) :
    SMap.rising none (s.calApply d m).regs = true := setF_rising _ _ _ (setB_rising _ _ hs)

theorem calResult_busy {s : Dev} {d : Fin 2} {n : Nat} (hs : SMap.rising none s.regs = true) :
    (s.calResult d n).bt R.CAL_STAT 30 d = s.bt R.CAL_STAT 30 d :=
  bt_setF_ne n hs (by decide) (by decide) (by decide)

theorem calResult_result {s : Dev} {d : Fin 2} {n : Nat} (hs : SMap.rising none s.regs = true) (hn : n < 16) :
    (s.calResult d n).fld R.CAL_STAT 23 20 d = n := by
  rw [Dev.calResult, fld_setF_same n hs (by decide) (by decide)]
  exact Nat.mod_eq_of_lt hn

/-- The read-back of a good block ends the commit with result 1 (R102). -/
theorem calCommitDone_good_stat {s : Dev} {d : Fin 2} {c : Commit} (hs : SMap.rising none s.regs = true)
    (hc : (vget s.die d).commit = some c) (hquiet : s.measuring d = false) (hok : calOk c.buf = true) :
    (calCommitDone d true s).bt R.CAL_STAT 30 d = false ∧ (calCommitDone d true s).fld R.CAL_STAT 23 20 d = 1 := by
  have hb := setB_rising (r := R.CAL_STAT) (k := d) (i := 0) (j := 0) 30 false hs
  rw [calCommitDone_good hc hquiet hok]
  exact ⟨(calResult_busy (calApply_rising hb)).trans ((calApply_busy hb).trans (bt_setB_same false hs (by decide))),
    calResult_result (calApply_rising hb) (by decide)⟩

/-- Settles O37: each command is accepted, so it is the write of its register, whose cases the lemmas above name. -/
theorem fusesAndCalibration : Obligations.FusesAndCalibration := by
  unfold Obligations.FusesAndCalibration
  intro ini v d s x w hwf
  have hregs := wf_regs hwf
  obtain ⟨hokey, hogo, howord⟩ := keyed_facts (v := v) (key := 0x3C) (by decide)
  obtain ⟨hckey, hcgo, -⟩ := keyed_facts (v := v) (key := 0x5C) (by decide)
  refine ⟨fun hacc hidle hw => answers_ok ?_, fun hacc hini hjtag => answers_ok ?_,
    fun word data hfit hbusy => answers_onDie hfit ?_,
    fun hacc hidle hlock => ⟨fun hwear hsound hsrc => answers_ok ?_, fun hwear => answers_ok ?_⟩,
    fun c hfit hc hquiet hok => answers_onDie hfit ?_⟩
  case refine_1 =>
    rw [otpProgram_accepted hacc, otpCmdWrite_warden hokey hogo (howord ▸ hw) hidle, howord]
    refine ⟨?_, ?_, ?_⟩
    · rw [busResp_die, Dev.modDie_die_same]
    · rw [busResp_bt, modDie_bt, setEnded_bt, bt_setB_same true hregs (by decide)]
    · rw [busResp_mem, Dev.modDie_mem, Dev.setEnded, Dev.modDie_mem, Dev.setB_mem]
  case refine_2 =>
    rw [otpProgram_accepted hacc, otpCmdWrite_other hini hjtag]
    rfl
  case refine_3 =>
    rw [otpProgramDone_good hbusy]
    have hotp (k : Nat) := SMap.get_set 0 x.otp word k (SMap.get 0 x.otp word ||| data) (wf_otp hwf d)
    simp -implicitDefEqProofs only [Dev.setEnded, Dev.modDie_die_same, Dev.setB_die, Dev.draw_die]
    refine ⟨?_, trivial, fun k hk => ?_, ?_⟩
    · rw [hotp, if_pos rfl]
    · rw [hotp, if_neg hk]
    · rw [modDie_bt, bt_setB_same false (by exact hregs) (by decide)]
  case refine_4 =>
    rw [calCommit_accepted hacc, calCmdWrite_start hckey hcgo hidle hlock hwear hsound hsrc]
    simp -implicitDefEqProofs only [busResp_die, Dev.setEnded, Dev.modDie_die_same, Dev.setB_die]
    refine ⟨rfl, rfl, ?_⟩
    rw [busResp_bt, modDie_bt, modDie_bt, bt_setB_same true hregs (by decide)]
  case refine_5 =>
    rw [calCommit_accepted hacc, calCmdWrite_worn hckey hcgo hidle hlock hwear]
    simp -implicitDefEqProofs only [busResp_die, busResp_fld, Dev.setEnded, Dev.modDie_die_same, modDie_fld, calResult_die]
    exact ⟨calResult_result hregs (by decide), hidle, rfl⟩
  case refine_6 =>
    obtain ⟨hbusy, hresult⟩ := calCommitDone_good_stat hregs hc hquiet hok
    rw [calCommitDone_good hc hquiet hok] at *
    refine ⟨?_, ?_, ?_, hbusy, hresult, ?_⟩ <;>
      simp -implicitDefEqProofs [Dev.setEnded, Dev.calResult, Dev.calApply]

end Sys2Proof.ResetBoot
end

section
/-!
PROOFS. The boot ROM (R83 to R91, R95): what the release of the host leaves alone, the start of the wardens, the end
of an octal switch, and retries.
-/

namespace Sys2Proof.ResetBoot

open Sys2Proof.Machine

/-! ### Release of host cores: what is left alone (R92, R335) -/

theorem hostStart_mem (s : Dev) (c : Fin 4) : (s.hostStart c).mem = s.mem := by
  unfold Dev.hostStart
  split <;> rfl

theorem hostStart_regs (s : Dev) (c : Fin 4) : (s.hostStart c).regs = s.regs := by
  unfold Dev.hostStart
  split <;> rfl

theorem hostStart_asm (s : Dev) (c : Fin 4) : (s.hostStart c).asm = s.asm := by
  unfold Dev.hostStart
  split <;> rfl

theorem hostReset_mem (s : Dev) (c : Fin 4) : (s.hostReset c).mem = s.mem := rfl

/-- A reset of a host core keeps every register below the compute die's. -/
theorem hostReset_keeps {a : Nat} (ha : a < 0x20000000) (s : Dev) (c : Fin 4) : KeepsReg a s (s.hostReset c) :=
  (((KeepsReg.refl s).same (u := s.modHc c fun _ => HostCore.init) rfl rfl).rstRange (.inl (by omega))).same rfl rfl

theorem hostStart_keeps {a : Nat} (s : Dev) (c : Fin 4) : KeepsReg a s (s.hostStart c) :=
  (KeepsReg.refl s).same (hostStart_asm s c) (hostStart_regs s c)

/-- The host field of CRST_REL keeps every other register below the compute die's. -/
theorem relHost_keeps {a : Nat} (ha : a < 0x20000000) (hne : R.CRST_REL.addr 0 0 0 ≠ a) (s : Dev) (v : Nat) :
    KeepsReg a s (s.relHost v) := by
  unfold Dev.relHost
  refine (KeepsReg.refl s).foldl fun u c _ => ?_
  have hbit : KeepsReg a u (u.setB R.CRST_REL c.val (bit v c.val == 1)) := (KeepsReg.refl u).setB _ _ hne
  exact KeepsReg.ite (fun _ => hbit.trans (hostStart_keeps _ c)) fun _ => hbit.trans (hostReset_keeps ha _ c)

theorem relHost_mem (s : Dev) (v : Nat) : (s.relHost v).mem = s.mem := by
  unfold Dev.relHost
  refine foldl_keeps Dev.mem _ _ (fun u c _ => ?_) s
  simp only
  split
  · rw [hostStart_mem, Dev.setB_mem]
  · rw [hostReset_mem, Dev.setB_mem]

/-! ### The image header -/

theorem byte_congr {s t : Dev} (h : t.mem = s.mem) (a : Nat) : t.byte a = s.byte a := by
  unfold Dev.byte
  rw [h]

theorem hdr_congr {s t : Dev} (h : t.mem = s.mem) (c : Copy) (o n : Nat) : t.hdr c o n = s.hdr c o n := by
  unfold Dev.hdr Dev.rdN
  rw [rdBytes_congr s t n _ fun a _ _ => byte_congr h a]

/-! ### Start of a warden (R83, R95) -/

theorem wardenStart_core (s : Dev) (d : Fin 2) (pc : Nat) :
    vget (s.wardenStart d pc).core (warden d) = { CoreSt.init with run := .running, pc := BitVec.ofNat 32 pc } :=
  Dev.modCore_core_same _ _ _

theorem wardenStart_die (s : Dev) (d : Fin 2) (pc : Nat) : (s.wardenStart d pc).die = s.die := rfl

theorem wardenStart_mem (s : Dev) (d : Fin 2) (pc : Nat) : (s.wardenStart d pc).mem = s.mem := rfl

theorem wardenStart_keeps {a : Nat} (s : Dev) (d : Fin 2) (pc : Nat) (hne : R.AWDG_CNT.addr d 0 0 ≠ a) :
    KeepsReg a s (s.wardenStart d pc) :=
  ((KeepsReg.refl s).wr (s.rg R.AWDG_TIMEOUT d) hne).same rfl rfl

theorem romTo_rom (s : Dev) (d : Fin 2) (p : RomPhase) : (vget (s.romTo d p).die d).rom = p := by
  rw [Dev.romTo, Dev.modDie_die_same]

theorem romTo_rising {s : Dev} {d : Fin 2} {p : RomPhase} (hs : SMap.rising none s.regs = true) :
    SMap.rising none (s.romTo d p).regs = true := hs

theorem romTo_fld (s : Dev) (d : Fin 2) (p : RomPhase) (r : RegDef) (hi lo k i j : Nat) :
    (s.romTo d p).fld r hi lo k i j = s.fld r hi lo k i j := rfl

theorem romTo_mem (s : Dev) (d : Fin 2) (p : RomPhase) : (s.romTo d p).mem = s.mem := rfl

theorem bootCode_mem (s : Dev) (d : Fin 2) (n : Nat) : (s.bootCode d n).mem = s.mem := by
  rw [Dev.bootCode, Dev.setF_mem]

theorem bootCode_rising {s : Dev} {d : Fin 2} {n : Nat} (hs : SMap.rising none s.regs = true) :
    SMap.rising none (s.bootCode d n).regs = true := setF_rising _ _ _ hs

theorem bootCode_code {s : Dev} {d : Fin 2} {n : Nat} (hs : SMap.rising none s.regs = true) (hn : n < 256) :
    (s.bootCode d n).fld R.BOOT_STAT 7 0 d = n := by
  rw [Dev.bootCode, fld_setF_same n hs (by decide) (by decide)]
  exact Nat.mod_eq_of_lt hn

theorem trkStnInit_keeps {a : Nat} (s : Dev) (d : Fin 2) (hne : R.TRK_STN.addr d 0 0 ≠ a) :
    KeepsReg a s (s.trkStnInit d) := (KeepsReg.refl s).wr _ hne

end Sys2Proof.ResetBoot
end

section
namespace Sys2Proof.ResetBoot

open Sys2Proof.Machine

/-! ### The ROM's first steps (R83, R90, R95) -/

/-- Step 1 of R83: after a power-on the ROM zeroes the warden SRAM. -/
def coldZero (s : Dev) (d : Fin 2) : Dev :=
  if (vget s.die d).cold then s.zeroMem (wardenSram d) (wardenSram d + 0x20000) else s

theorem coldZero_parts (s : Dev) (d : Fin 2) :
    (coldZero s d).asm = s.asm ∧ (coldZero s d).regs = s.regs ∧ (coldZero s d).core = s.core ∧
      (coldZero s d).die = s.die := by
  unfold coldZero
  split <;> exact ⟨rfl, rfl, rfl, rfl⟩

theorem bootStart_one (s : Dev) : s.bootStart 1 = ((coldZero s 1).bootCode 1 4).romTo 1 .wait1 := rfl

/-- The ROM of I/O die 1 goes to its wait. -/
theorem bootSequence_one {s : Dev} (hrun : (vget s.die 1).inReset = false) (hrom : (vget s.die 1).rom = .start) :
    bootSequence 1 s = ((coldZero s 1).bootCode 1 4).romTo 1 .wait1 := by
  rw [← bootStart_one]
  simp [bootSequence, hrun, hrom]

/-- What the ROM of I/O die 0 shows in BOOT_STAT before it looks at the straps. -/
def bootNotes (s : Dev) : Dev :=
  ((coldZero s 0).setB R.BOOT_STAT 30 (coldZero s 0).osf 0).setB R.BOOT_STAT 29
    (!(vget (coldZero s 0).die 0).vbat) 0

theorem bootNotes_keeps {a : Nat} (s : Dev) (hne : R.BOOT_STAT.addr 0 0 0 ≠ a) : KeepsReg a s (bootNotes s) := by
  obtain ⟨hasm, hregs, -, -⟩ := coldZero_parts s 0
  exact (((KeepsReg.refl s).same hasm hregs).setB _ _ hne).setB _ _ hne

theorem bootNotes_rising {s : Dev} (hs : SMap.rising none s.regs = true) : SMap.rising none (bootNotes s).regs = true :=
  setB_rising _ _ (setB_rising _ _ ((coldZero_parts s 0).2.1 ▸ hs))

theorem bootNotes_dbgLock (s : Dev) : (bootNotes s).dbgLock = s.dbgLock := by
  unfold Dev.dbgLock bootNotes
  rw [Dev.setB_die, Dev.setB_die, (coldZero_parts s 0).2.2.2]

/-- The ROM holds where the straps ask for it and debug is not locked (R90). -/
theorem bootStart_hold {s : Dev} (hs : SMap.rising none s.regs = true) (hstraps : s.fld R.STRAPS 1 0 = 3)
    (hlock : s.dbgLock = false) :
    s.bootStart 0 = (((((bootNotes s).draw.2.bootCode 0 3).romTo 0 .hold).setB R.AWDG_CTL 31 false 0).wardenStart 0
      ((bootNotes s).draw.1 % 2 ^ 14 * 4)) := by
  have hcond : (bootNotes s).fld R.STRAPS 1 0 = 3 ∧ (bootNotes s).dbgLock = false :=
    ⟨((bootNotes_keeps s (by decide)).fld hs 1 0).trans hstraps, (bootNotes_dbgLock s).trans hlock⟩
  have hbranch : s.bootStart 0 =
      if (0 : Fin 2) = 1 then ((coldZero s 0).bootCode 1 4).romTo 1 .wait1
      else if (bootNotes s).fld R.STRAPS 1 0 = 3 ∧ (bootNotes s).dbgLock = false then
        ((((bootNotes s).draw.2.bootCode 0 3).romTo 0 .hold).setB R.AWDG_CTL 31 false 0).wardenStart 0
          ((bootNotes s).draw.1 % 2 ^ 14 * 4)
      else (bootNotes s).romTo 0 (.tryCopy 0) := rfl
  rw [hbranch, if_neg (by decide), if_pos hcond]

theorem bootRun_idle {k : Nat} {s : Dev} {p : RomPhase} (hrom : (vget s.die 0).rom = p)
    (hp : p = .running ∨ p = .hold ∨ p = .failed) : s.bootRun k = s := by
  cases k with
  | zero => rfl
  | succ k => rcases hp with rfl | rfl | rfl <;> simp [Dev.bootRun, hrom]

theorem bootSequence_hold {s : Dev} (hs : SMap.rising none s.regs = true) (hrun : (vget s.die 0).inReset = false)
    (hrom : (vget s.die 0).rom = .start) (hstraps : s.fld R.STRAPS 1 0 = 3) (hlock : s.dbgLock = false) :
    (vget (bootSequence 0 s).die 0).rom = .hold ∧ (bootSequence 0 s).fld R.BOOT_STAT 7 0 = 3 ∧
      (vget (bootSequence 0 s).core 6).run = .running ∧ (vget (bootSequence 0 s).core 6).pc.toNat < 0x10000 := by
  have hhold : (vget (s.bootStart 0).die 0).rom = .hold := by
    rw [bootStart_hold hs hstraps hlock, wardenStart_die, Dev.setB_die, romTo_rom]
  have hseq : bootSequence 0 s = s.bootStart 0 := by
    have hone : s.bootRun 16 = (s.bootStart 0).bootRun 15 := by rw [Dev.bootRun, hrom]
    rw [bootSequence, hrun, if_neg (by decide), if_pos rfl, hone, bootRun_idle hhold (by simp)]
  rw [hseq]
  refine ⟨hhold, ?_, ?_⟩
  · have hs' : SMap.rising none (bootNotes s).draw.2.regs = true := by
      rw [Dev.draw_regs]
      exact bootNotes_rising hs
    have htail : KeepsReg (R.BOOT_STAT.addr 0 0 0) (((bootNotes s).draw.2.bootCode 0 3).romTo 0 .hold) (s.bootStart 0) := by
      rw [bootStart_hold hs hstraps hlock]
      exact ((KeepsReg.refl _).setB _ _ (by decide)).trans (wardenStart_keeps _ 0 _ (by decide))
    rw [htail.fld (romTo_rising (bootCode_rising hs')), romTo_fld]
    exact bootCode_code (d := 0) hs' (by decide)
  · have hcore := wardenStart_core ((((bootNotes s).draw.2.bootCode 0 3).romTo 0 .hold).setB R.AWDG_CTL 31 false 0) 0
      ((bootNotes s).draw.1 % 2 ^ 14 * 4)
    rw [← bootStart_hold hs hstraps hlock] at hcore
    have h6 : vget (s.bootStart 0).core 6 = _ := hcore
    rw [h6]
    refine ⟨rfl, ?_⟩
    rw [BitVec.toNat_ofNat]
    omega

/-! ### A load that succeeds (R83, R91) -/

/-- A refused write is counted in registers alone. -/
theorem berr_rising {s : Dev} {ini a n : Nat} {k : AccK} {c : Cause} (hs : SMap.rising none s.regs = true) :
    SMap.rising none (s.berr ini a n k c).regs = true := by
  unfold Dev.berr
  simp only
  split
  case h_1 d _ =>
    have hc : SMap.rising none (s.count R.IO_BERR_COUNT 1 d).regs = true := count_rising 1 hs
    split
    · exact setB_rising _ _ hc
    · exact Dev.wr_rising _ _ _ _ _ _ (Dev.wr_rising _ _ _ _ _ _ hc)
  case h_2 =>
    have hc : SMap.rising none (s.count R.BERR_COUNT).regs = true := count_rising 1 hs
    split
    · exact hs
    · split
      · exact setB_rising _ _ hc
      · exact Dev.wr_rising _ _ _ _ _ _ (Dev.wr_rising _ _ _ _ _ _ hc)

theorem loadSeg_rising {s : Dev} {c : Copy} {g : Seg} (hs : SMap.rising none s.regs = true) :
    SMap.rising none (s.loadSeg c g).regs = true := by
  unfold Dev.loadSeg
  split
  case h_1 => exact hs
  case h_2 e _ =>
    have hb : SMap.rising none (s.draw.2.berr 0x18 g.addr 4 .wr e).regs = true := berr_rising hs
    simp only
    split
    · exact count_rising _ hb
    · split
      · exact count_rising _ hb
      · exact hb

end Sys2Proof.ResetBoot
end

section
namespace Sys2Proof.ResetBoot

open Sys2Proof.Machine

/-- Step 9 of R83: an image for I/O die 1 starts its waiting warden. -/
def startDie1 (s : Dev) (c : Copy) : Dev :=
  if s.imgFlag c 3 then
    if (vget (s.wr R.W1_PC (s.hdr c 0x1C 4) 1).die 1).rom = .wait1 then
      (((s.wr R.W1_PC (s.hdr c 0x1C 4) 1).bootCode 1 1).romTo 1 .running).wardenStart 1
        ((s.wr R.W1_PC (s.hdr c 0x1C 4) 1).hdr c 0x1C 4)
    else s.wr R.W1_PC (s.hdr c 0x1C 4) 1
  else s

/-- Step 10: an image for the host releases host core 0. -/
def startHost (s : Dev) (c : Copy) : Dev :=
  if s.imgFlag c 0 then
    (s.wr R.HOST_PC (s.hdr c 0x20 8)).relHost (s.rg R.CRST_REL ||| 1)
  else s

/-- What the ROM of I/O die 0 records of the copy that it starts. -/
def bootRecord (s : Dev) (c : Copy) : Dev :=
  (((((s.zeroMem 0x10800000 0x10804000).setF R.RST_CAUSE 23 20 0 0).setB R.BOOT_STAT 31
    (!((s.zeroMem 0x10800000 0x10804000).setF R.RST_CAUSE 23 20 0 0).secured) 0).setB R.BOOT_STAT 28 c.sec 0).setB
      R.BOOT_STAT 27 (c.port == 1) 0).bootCode 0 1

/-- Step 11: the station number of the image, and a trunk whose mode the straps leave to the image. -/
def bootStation (s : Dev) (num : Nat) : Dev :=
  if (s.modDie 0 fun x => { x with stnNum := num }).fld R.STRAPS 3 2 0 = 2 then
    (s.modDie 0 fun x => { x with stnNum := num }).trkStnInit 0
  else s.modDie 0 fun x => { x with stnNum := num }

theorem bootDone_eq (s : Dev) (c : Copy) :
    s.bootDone c =
      ((bootStation (bootRecord (startHost (startDie1 s c) c) c) ((startHost (startDie1 s c) c).hdr c 0x28 2)).romTo 0
        .running).wardenStart 0 ((startHost (startDie1 s c) c).hdr c 0x18 4) := rfl

theorem startDie1_mem (s : Dev) (c : Copy) : (startDie1 s c).mem = s.mem := by
  unfold startDie1
  split
  · split
    · rw [wardenStart_mem, romTo_mem, bootCode_mem, Dev.wr_mem]
    · rw [Dev.wr_mem]
  · rfl

theorem startDie1_rising {s : Dev} (c : Copy) (hs : SMap.rising none s.regs = true) :
    SMap.rising none (startDie1 s c).regs = true := by
  have hpc : SMap.rising none (s.wr R.W1_PC (s.hdr c 0x1C 4) 1).regs = true := Dev.wr_rising _ _ _ _ _ _ hs
  unfold startDie1
  split
  · split
    · exact (wardenStart_keeps (a := 0) _ 1 _ (by decide)).rising (romTo_rising (bootCode_rising hpc))
    · exact hpc
  · exact hs

theorem startHost_mem (s : Dev) (c : Copy) : (startHost s c).mem = s.mem := by
  unfold startHost
  split
  · rw [relHost_mem, Dev.wr_mem]
  · rfl

theorem startHost_rising {s : Dev} (c : Copy) (hs : SMap.rising none s.regs = true) :
    SMap.rising none (startHost s c).regs = true := by
  unfold startHost
  split
  · exact (relHost_keeps (a := 0) (by decide) (by decide) _ _).rising (Dev.wr_rising _ _ _ _ _ _ hs)
  · exact hs

theorem bootRecord_code {s : Dev} (c : Copy) (hs : SMap.rising none s.regs = true) :
    (bootRecord s c).fld R.BOOT_STAT 7 0 = 1 ∧ SMap.rising none (bootRecord s c).regs = true := by
  have hz : SMap.rising none (s.zeroMem 0x10800000 0x10804000).regs = true := hs
  have hb := setB_rising (r := R.BOOT_STAT) (k := 0) (i := 0) (j := 0) 27 (c.port == 1)
    (setB_rising (r := R.BOOT_STAT) (k := 0) (i := 0) (j := 0) 28 c.sec
      (setB_rising (r := R.BOOT_STAT) (k := 0) (i := 0) (j := 0) 31
        (!((s.zeroMem 0x10800000 0x10804000).setF R.RST_CAUSE 23 20 0 0).secured)
        (setF_rising (r := R.RST_CAUSE) (k := 0) (i := 0) (j := 0) 23 20 0 hz)))
  exact ⟨bootCode_code (d := 0) hb (by decide), bootCode_rising (d := 0) hb⟩

theorem bootStation_keeps {a : Nat} (s : Dev) (num : Nat) (hne : R.TRK_STN.addr 0 0 0 ≠ a) :
    KeepsReg a s (bootStation s num) := by
  have hnum : KeepsReg a s (s.modDie 0 fun x => { x with stnNum := num }) := (KeepsReg.refl s).same rfl rfl
  exact KeepsReg.ite (fun _ => hnum.trans (trkStnInit_keeps _ 0 hne)) fun _ => hnum

/-- A boot that succeeds starts the warden of I/O die 0 at the image's address (R83). -/
theorem bootDone_result {s : Dev} (c : Copy) (hs : SMap.rising none s.regs = true) :
    (vget (s.bootDone c).die 0).rom = .running ∧ (s.bootDone c).fld R.BOOT_STAT 7 0 = 1 ∧
      vget (s.bootDone c).core 6 = { CoreSt.init with run := .running, pc := BitVec.ofNat 32 (s.hdr c 0x18 4) } := by
  have hmem : (startHost (startDie1 s c) c).mem = s.mem := (startHost_mem _ c).trans (startDie1_mem s c)
  obtain ⟨hcode, hrec⟩ := bootRecord_code c (startHost_rising c (startDie1_rising c hs))
  rw [bootDone_eq, hdr_congr hmem c 0x18 4]
  refine ⟨?_, ?_, wardenStart_core _ 0 _⟩
  · rw [wardenStart_die, romTo_rom]
  · have hstation := bootStation_keeps (a := R.BOOT_STAT.addr 0 0 0) (bootRecord (startHost (startDie1 s c) c) c)
      ((startHost (startDie1 s c) c).hdr c 0x28 2) (by decide)
    rw [(wardenStart_keeps _ 0 _ (by decide)).fld (romTo_rising (hstation.rising hrec)), romTo_fld, hstation.fld hrec, hcode]

end Sys2Proof.ResetBoot
end

section
namespace Sys2Proof.ResetBoot

open Sys2Proof.Machine

/-! ### A copy that is refused, and the failure of the last one (R88, R89) -/

theorem copies_congr {s t : Dev} (h : t.fld R.STRAPS 1 0 = s.fld R.STRAPS 1 0) : t.copies = s.copies := by
  unfold Dev.copies
  rw [h]

theorem bootPort_keeps {a : Nat} (s : Dev) (c : Copy) (hne : R.FL_CFG.addr 0 c.port.val 0 ≠ a) :
    KeepsReg a s (s.bootPort c) := (KeepsReg.refl s).wr _ hne

/-- Clearing CDIE_ON writes PWR_CTL alone. -/
theorem cdieOnWrite_off_keeps {a : Nat} (s : Dev) (hne : R.PWR_CTL.addr 0 0 0 ≠ a) :
    KeepsReg a s (s.cdieOnWrite false) := by
  have hoff : KeepsReg a s (s.setB R.PWR_CTL 31 false 0) := (KeepsReg.refl s).setB _ _ hne
  unfold Dev.cdieOnWrite
  simp -implicitDefEqProofs only [Bool.false_and, Bool.not_false, Bool.true_and, Bool.false_eq_true, if_false]
  refine KeepsReg.ite (fun _ => ?_) fun _ => hoff
  split
  · exact hoff.modPwr _
  · exact hoff.modPwr _
  · exact KeepsReg.ite (fun _ => hoff.modPwr _) fun _ => hoff
  · exact hoff

/-- A refused copy that was not loaded records its code and passes to the next copy (R88). -/
theorem refuse_keeps {a : Nat} (s : Dev) (c : Copy) (n code : Nat) (hpwr : R.PWR_CTL.addr 0 0 0 ≠ a)
    (hfl : R.FL_CFG.addr 0 c.port.val 0 ≠ a) : KeepsReg a (s.setF R.BOOT_STAT 15 8 code 0) (s.refuse c n code false) := by
  unfold Dev.refuse
  simp only [Bool.false_eq_true, if_false]
  refine KeepsReg.modDie (KeepsReg.trans ?_ (bootPort_keeps _ c hfl)) 0 _
  exact KeepsReg.ite (fun _ => (cdieOnWrite_off_keeps _ hpwr).modDie 0 _) fun _ => KeepsReg.refl _

theorem refuse_rom (s : Dev) (c : Copy) (n code : Nat) (loaded : Bool) :
    (vget (s.refuse c n code loaded).die 0).rom = .tryCopy (n + 1) := romTo_rom _ 0 _

/-- With fewer than two failed attempts before it the boot fails and counts itself (R89). -/
theorem bootFail_result {s : Dev} (hs : SMap.rising none s.regs = true) (ht : s.fld R.RST_CAUSE 23 20 < 2) :
    (vget s.bootFail.die 0).rom = .failed ∧ s.bootFail.fld R.RST_CAUSE 23 20 = s.fld R.RST_CAUSE 23 20 + 1 ∧
      s.bootFail.fld R.BOOT_STAT 15 8 = s.fld R.BOOT_STAT 15 8 := by
  have hmin : min 3 (s.fld R.RST_CAUSE 23 20 + 1) = s.fld R.RST_CAUSE 23 20 + 1 := by omega
  have hfail : s.bootFail = (s.setF R.RST_CAUSE 23 20 (s.fld R.RST_CAUSE 23 20 + 1) 0).romTo 0 .failed := by
    unfold Dev.bootFail
    rw [hmin, if_pos (by omega)]
  have hkeeps : KeepsReg (R.BOOT_STAT.addr 0 0 0) s (s.setF R.RST_CAUSE 23 20 (s.fld R.RST_CAUSE 23 20 + 1) 0) :=
    (KeepsReg.refl s).setF _ _ _ (by decide)
  rw [hfail]
  refine ⟨romTo_rom _ 0 _, ?_, ?_⟩
  · rw [romTo_fld, fld_setF_same _ hs (by decide) (by decide)]
    exact Nat.mod_eq_of_lt (by omega)
  · rw [romTo_fld, hkeeps.fld hs]

/-- Where no copy is left to try the boot has failed. -/
theorem bootRun_last {k n : Nat} {s : Dev} (hrom : (vget s.die 0).rom = .tryCopy n) (hnone : s.copies[n]? = none) :
    s.bootRun (k + 1) = s.bootFail := by
  simp [Dev.bootRun, hrom, hnone]

/-- The port as R91 switches it for an octal image. -/
def octalSet (s : Dev) (c : Copy) : Dev :=
  ((s.setF R.FL_CFG 29 28 (if s.imgFlag c 2 then 2 else 1) 0 c.port.val).setF R.FL_CFG 10 8 (s.hdr c 0x49 1) 0
    c.port.val).setF R.FL_CFG 4 0 (s.hdr c 0x48 1) 0 c.port.val

theorem octalSet_keeps {a : Nat} (s : Dev) (c : Copy) (hne : R.FL_CFG.addr 0 c.port.val 0 ≠ a) :
    KeepsReg a s (octalSet s c) := (((KeepsReg.refl s).setF _ _ _ hne).setF _ _ _ hne).setF _ _ _ hne

theorem octalSwitch_same {s : Dev} {n : Nat} {c : Copy} (hrom : (vget s.die 0).rom = .waitOctal n)
    (hc : s.copies[n]? = some c) : octalSwitchWaitEnd true s = ((octalSet s c).loadCopy c n).bootRun 16 := by
  unfold octalSwitchWaitEnd
  rw [hrom]
  simp only [hc, if_true]
  rfl

theorem octalSwitch_other {s : Dev} {n : Nat} {c : Copy} (hrom : (vget s.die 0).rom = .waitOctal n)
    (hc : s.copies[n]? = some c) :
    octalSwitchWaitEnd false s = ((octalSet s c).refuse c n 0x16 false).bootRun 16 := by
  unfold octalSwitchWaitEnd
  rw [hrom]
  simp only [hc, Bool.false_eq_true, if_false]
  rfl

/-- An octal image whose header reads back and whose signature holds is started (R91). -/
theorem octalSwitch_loaded {s : Dev} {n : Nat} {c : Copy} (hs : SMap.rising none s.regs = true)
    (hrom : (vget s.die 0).rom = .waitOctal n) (hc : s.copies[n]? = some c) (loaded : Dev)
    (hloaded : loaded = ((octalSet s c).segs c).foldl (fun s g => s.loadSeg c g) (octalSet s c))
    (hsign : loaded.signCode c = 0) :
    octalSwitchWaitEnd true s = loaded.bootDone c ∧ SMap.rising none loaded.regs = true := by
  have hset : SMap.rising none (octalSet s c).regs = true := setF_rising _ _ _ (setF_rising _ _ _ (setF_rising _ _ _ hs))
  have hrising : SMap.rising none loaded.regs = true := by
    rw [hloaded]
    exact List.foldlRecOn (motive := fun t : Dev => SMap.rising none t.regs = true) _ _ hset
      fun t ht g _ => loadSeg_rising ht
  have hload : (octalSet s c).loadCopy c n = loaded.bootDone c := by
    unfold Dev.loadCopy
    rw [← hloaded]
    exact if_pos hsign
  refine ⟨?_, hrising⟩
  rw [octalSwitch_same hrom hc, hload, bootRun_idle (bootDone_result c hrising).1 (.inl rfl)]

/-- The last copy fails where its header does not read back (R89, R91). -/
theorem octalSwitch_failed {s : Dev} {n : Nat} {c : Copy} (hs : SMap.rising none s.regs = true)
    (hrom : (vget s.die 0).rom = .waitOctal n) (hc : s.copies[n]? = some c) (hport : c.port = 0)
    (hlast : s.copies.length = n + 1) (ht : s.fld R.RST_CAUSE 23 20 < 2) :
    (vget (octalSwitchWaitEnd false s).die 0).rom = .failed ∧ (octalSwitchWaitEnd false s).fld R.BOOT_STAT 15 8 = 0x16 ∧
      (octalSwitchWaitEnd false s).fld R.RST_CAUSE 23 20 = s.fld R.RST_CAUSE 23 20 + 1 := by
  have hset : SMap.rising none (octalSet s c).regs = true := setF_rising _ _ _ (setF_rising _ _ _ (setF_rising _ _ _ hs))
  have hnote : SMap.rising none ((octalSet s c).setF R.BOOT_STAT 15 8 0x16 0).regs = true := setF_rising _ _ _ hset
  have hkeeps {a : Nat} (hp : R.PWR_CTL.addr 0 0 0 ≠ a) (hf : R.FL_CFG.addr 0 0 0 ≠ a) :
      KeepsReg a ((octalSet s c).setF R.BOOT_STAT 15 8 0x16 0) ((octalSet s c).refuse c n 0x16 false) :=
    refuse_keeps _ c n 0x16 hp (by rw [hport]; exact hf)
  have hfrom {a : Nat} (hp : R.PWR_CTL.addr 0 0 0 ≠ a) (hf : R.FL_CFG.addr 0 0 0 ≠ a)
      (hb : R.BOOT_STAT.addr 0 0 0 ≠ a) :
      KeepsReg a s ((octalSet s c).refuse c n 0x16 false) :=
    ((octalSet_keeps s c (by rw [hport]; exact hf)).setF 15 8 0x16 hb).trans (hkeeps hp hf)
  have hcause : ((octalSet s c).refuse c n 0x16 false).fld R.RST_CAUSE 23 20 = s.fld R.RST_CAUSE 23 20 :=
    (hfrom (by decide) (by decide) (by decide)).fld hs 23 20
  have hcopies : ((octalSet s c).refuse c n 0x16 false).copies = s.copies :=
    copies_congr ((hfrom (by decide) (by decide) (by decide)).fld hs 1 0)
  have hrising : SMap.rising none ((octalSet s c).refuse c n 0x16 false).regs = true :=
    (hkeeps (a := 0) (by decide) (by decide)).rising hnote
  have hcode : ((octalSet s c).refuse c n 0x16 false).fld R.BOOT_STAT 15 8 = 0x16 := by
    rw [(hkeeps (by decide) (by decide)).fld hnote, fld_setF_same _ hset (by decide) (by decide)]
    rfl
  obtain ⟨hfail, htries, hstat⟩ := bootFail_result hrising (hcause ▸ ht)
  rw [octalSwitch_other hrom hc, bootRun_last (refuse_rom _ c n _ _) (by rw [hcopies, List.getElem?_eq_none_iff]; omega)]
  exact ⟨hfail, hstat.trans hcode, htries.trans (by rw [hcause])⟩

end Sys2Proof.ResetBoot
end

section
/-!
PROOFS. What a power-off of the compute die and a reset of a gallery leave of the reset registers of I/O die 0.
-/

namespace Sys2Proof.ResetBoot

open Sys2Proof.Machine

/-! ### Addresses -/

/-- The registers of I/O die 0 that stand before CRST_REL in the reset block: RST_CAUSE to HOST_PC. -/
def bootReg (a : Nat) : Prop := 0x10058000 ≤ a ∧ a < 0x10058018

/-- Windows of the compute die. -/
def onCdie : Win → Bool
  | .cd | .gal | .host | .plic | .ring => true
  | _ => false

/-- Windows of the compute die and of the blocks of an I/O die past its reset block. -/
def pastReset : Win → Bool
  | .rad | .mtr | .aco | .trk => true
  | w => onCdie w

theorem onCdie_base {w : Win} (k : Nat) (h : onCdie w = true) : 0x20000000 ≤ w.base k := by
  cases w with
  | cd | gal | host | plic | ring => simp only [Win.base]; omega
  | _ => cases h

theorem pastReset_base {w : Win} (k : Nat) (h : pastReset w = true) : 0x10060000 ≤ w.base k := by
  cases w with
  | rad | mtr | aco | trk => simp only [Win.base]; omega
  | cd | gal | host | plic | ring => exact Nat.le_trans (by decide) (onCdie_base k h)
  | _ => cases h

theorem cdie_ne {a : Nat} (ha : a < 0x20000000) {r : RegDef} {k i j : Nat} (h : onCdie r.win = true) :
    r.addr k i j ≠ a := by
  have hbase := onCdie_base k h
  unfold RegDef.addr
  omega

theorem past_ne {a : Nat} (ha : bootReg a) {r : RegDef} {k i j : Nat} (h : pastReset r.win = true) :
    r.addr k i j ≠ a := by
  obtain ⟨_, hlt⟩ := ha
  have hbase := pastReset_base k h
  unfold RegDef.addr
  omega

theorem before_ne {a : Nat} (ha : bootReg a) {r : RegDef} {k i j : Nat} (hw : r.win = .io)
    (h : r.off + i * r.s1 + j * r.s2 < 0x58000) : r.addr k i j ≠ a := by
  obtain ⟨hge, hlt⟩ := ha
  unfold RegDef.addr
  rw [hw, Win.base]
  omega

theorem crstRel_ne {a : Nat} (ha : bootReg a) : R.CRST_REL.addr 0 0 0 ≠ a := by
  have : R.CRST_REL.addr 0 0 0 = 0x10058018 := by decide
  have := ha.2
  omega

theorem gstat_ne {a : Nat} (ha : bootReg a) (g : Fin 6) : R.GSTAT.addr 0 g.val 0 ≠ a :=
  before_ne ha rfl (by simp only [R.GSTAT, R.regN]; omega)

namespace KeepsReg

variable {a : Nat} {s t : Dev}

theorem modHub (h : KeepsReg a s t) (f : HubSt → HubSt) : KeepsReg a s (t.modHub f) := h.same rfl rfl

theorem setRing (h : KeepsReg a s t) (r : Nat) (x : RingSt) : KeepsReg a s (t.setRing r x) := h.modHub _

theorem modGal (h : KeepsReg a s t) (g : Fin 6) (f : GalSt → GalSt) : KeepsReg a s (t.modGal g f) := h.same rfl rfl

theorem modCar (h : KeepsReg a s t) (g : Fin 6) (f : CarSt → CarSt) : KeepsReg a s (t.modCar g f) := h.same rfl rfl

theorem modCore (h : KeepsReg a s t) (c : Fin 8) (f : CoreSt → CoreSt) : KeepsReg a s (t.modCore c f) := h.same rfl rfl

theorem modRad (h : KeepsReg a s t) (d : Fin 2) (f : RadioSt → RadioSt) : KeepsReg a s (t.modRad d f) := h.same rfl rfl

theorem modIsl (h : KeepsReg a s t) (i : Fin 13) (f : Isl → Isl) : KeepsReg a s (t.modIsl i f) := h.same rfl rfl

theorem wrBytes (h : KeepsReg a s t) (x : Nat) (l : List Byte) : KeepsReg a s (t.wrBytes x l) := h.same rfl rfl

theorem wrN (h : KeepsReg a s t) (x n v : Nat) : KeepsReg a s (t.wrN x n v) := h.same rfl rfl

theorem zeroMem (h : KeepsReg a s t) (lo hi : Nat) : KeepsReg a s (t.zeroMem lo hi) := h.same rfl rfl

theorem setPoison (h : KeepsReg a s t) (x n : Nat) : KeepsReg a s (t.setPoison x n) := h.same rfl rfl

theorem busReset (h : KeepsReg a s t) (ini : Nat) : KeepsReg a s (t.busReset ini) := h.same rfl rfl

theorem setPhase (h : KeepsReg a s t) (g : Fin 6) (p : GPhase) : KeepsReg a s (t.setPhase g p) := h.same rfl rfl

theorem putCeil (h : KeepsReg a s t) (i : Fin 7) (f : Nat) : KeepsReg a s (t.putCeil i f) := h.same rfl rfl

end KeepsReg

/-! ### Resets of a gallery keep every register below the compute die's (R78, R281, R284) -/

section Gallery

variable {a : Nat} (ha : a < 0x20000000)
include ha

theorem carError_keeps (s : Dev) (ms : List (Fin 6)) (code : Nat) : KeepsReg a s (s.carError ms code) := by
  unfold Dev.carError
  exact (KeepsReg.refl s).foldl fun u g _ => ((KeepsReg.refl u).modCar g _).orR _ (cdie_ne ha rfl)

theorem carLost_keeps (s : Dev) (g : Fin 6) (gated : Bool) : KeepsReg a s (s.carLost g gated) := by
  unfold Dev.carLost
  exact (KeepsReg.ite (fun _ => carError_keeps ha s _ 2) fun _ => KeepsReg.refl s).modCar g _

theorem clearGal_keeps (s : Dev) (g : Fin 6) : KeepsReg a s (s.clearGal g) := by
  have hclear : KeepsReg a s ((((s.unwait g).modGal g fun _ => GalSt.init).modCore (curator g) fun _ => CoreSt.init)) :=
    (((KeepsReg.refl s).modHub _).modGal g _).modCore _ _
  unfold Dev.clearGal
  have hbase : a < galBase g := by unfold galBase; omega
  exact (((hclear.rstRange (.inl hbase)).rstRange (.inl (by omega))).busReset _).busReset _

theorem galReset_keeps (s : Dev) (g : Fin 6) : KeepsReg a s (s.galReset g) := by
  unfold Dev.galReset
  exact KeepsReg.ite (fun _ => KeepsReg.refl s) fun _ =>
    ((carLost_keeps ha s g false).trans (clearGal_keeps ha _ g)).setPhase g _

omit ha in
theorem curatorStart_keeps (s : Dev) (g : Fin 6) : KeepsReg a s (s.curatorStart g) :=
  ((KeepsReg.refl s).setPhase g .run).modCore _ _

omit ha in
theorem galRelease_keeps (s : Dev) (g : Fin 6) : KeepsReg a s (s.galRelease g) := by
  unfold Dev.galRelease
  exact KeepsReg.ite
    (fun _ => KeepsReg.ite (fun _ => curatorStart_keeps s g) fun _ => (KeepsReg.refl s).setPhase g _)
    fun _ => KeepsReg.refl s

end Gallery

/-! ### A power-off of the compute die keeps the reset registers (R68, R78) -/

section PowerOff

variable {a : Nat} (ha : bootReg a)
include ha

/-! #### Requests to the regulators and the ledger's records (R56 to R59, R68 to R70, R77) -/

omit ha in
theorem ldgEvent_keeps (s : Dev) (code arg : Nat) : KeepsReg a s (s.ldgEvent code arg) := by
  unfold Dev.ldgEvent
  exact KeepsReg.ite (fun _ => (KeepsReg.refl s).same rfl rfl) fun _ => KeepsReg.refl s

theorem pmbErr_keeps (s : Dev) (b r : Nat) : KeepsReg a s (s.pmbErr b r) := by
  unfold Dev.pmbErr
  have hstat : R.PMB_STAT.addr 0 0 0 ≠ a := before_ne ha rfl (by decide)
  exact (((KeepsReg.refl s).orR _ hstat).setF _ _ _ hstat |>.orR 128 (before_ne ha rfl (by decide))).trans
    (ldgEvent_keeps _ _ _)

theorem vfCheck_keeps (s : Dev) (r : Fin 9) : KeepsReg a s (s.vfCheck r) := by
  unfold Dev.vfCheck
  exact KeepsReg.ite (fun _ => KeepsReg.refl s) fun _ => pmbErr_keeps ha s 28 r.val

theorem sendVout_keeps (s : Dev) (r : Fin 9) (mv : Nat) : KeepsReg a s (s.sendVout r mv).2 := by
  have hvf := vfCheck_keeps ha s r
  unfold Dev.sendVout
  simp only
  split
  · exact hvf.trans (pmbErr_keeps ha _ 29 r.val)
  · split
    · exact hvf.trans (pmbErr_keeps ha _ 29 r.val)
    · dsimp only
      exact hvf.modPwr _

theorem retune_keeps (s : Dev) (i : Fin 7) : KeepsReg a s (s.retune i) := by
  unfold Dev.retune
  simp only
  split
  · exact KeepsReg.ite (fun _ => ((KeepsReg.refl s).putCeil i _).trans (sendVout_keeps ha _ _ _)) fun _ =>
      (KeepsReg.refl s).putCeil i _
  · split
    · exact KeepsReg.ite (fun _ => ((KeepsReg.refl s).putCeil i _).trans (sendVout_keeps ha _ _ _)) fun _ =>
        (KeepsReg.refl s).putCeil i _
    · exact KeepsReg.ite (fun _ => (sendVout_keeps ha s _ _).modPwr _) fun _ =>
        (sendVout_keeps ha s _ _).trans (pmbErr_keeps ha _ 30 _)

theorem rerequest_keeps (s : Dev) (r : Fin 9) : KeepsReg a s (s.rerequest r) := by
  have hvf := vfCheck_keeps ha s r
  unfold Dev.rerequest
  simp only
  refine KeepsReg.ite (fun _ => KeepsReg.refl s) fun _ => KeepsReg.ite (fun _ => hvf) fun _ => ?_
  have hsend := hvf.trans (sendVout_keeps ha (s.vfCheck r) r ((s.vfCheck r).railRequest r (s.vfCheck r).ceilAsked))
  exact KeepsReg.ite (fun _ => hsend) fun _ => hsend.foldl fun u x _ => (KeepsReg.refl u).modPwr _

theorem exhUpdate_keeps (s : Dev) : KeepsReg a s s.exhUpdate := by
  unfold Dev.exhUpdate
  simp only
  have hexh : KeepsReg a s _ := (KeepsReg.refl s).setB (r := R.LDG_STAT) (k := 0) (i := 0) (j := 0) 30
    (s.enf && decide (s.budRem < toS 64 (s.rg R.EXH_THRESH))) (before_ne ha rfl (by decide))
  exact KeepsReg.ite (fun _ => (hexh.orR 8 (before_ne ha rfl (by decide))).trans (ldgEvent_keeps _ 3 0)) fun _ => hexh

theorem refund_keeps (s : Dev) (w : Work) : KeepsReg a s (s.refund w) := by
  unfold Dev.refund Dev.setBud
  exact ((KeepsReg.refl s).wr _ (before_ne ha rfl (by decide))).trans (exhUpdate_keeps ha _)

theorem setTenant_keeps (s : Dev) (g : Fin 6) (cls tenant : Nat) : KeepsReg a s (s.setTenant g cls tenant) := by
  have hset : KeepsReg a s _ := ((KeepsReg.refl s).setF 5 4 cls (gstat_ne ha g)).setF 3 0 tenant (gstat_ne ha g)
  unfold Dev.setTenant
  refine KeepsReg.ite (fun _ => ?_) fun _ => hset
  unfold Dev.setFeff
  exact KeepsReg.ite (fun _ => hset) fun _ => (hset.setF 27 16 600 (gstat_ne ha g)).trans (retune_keeps ha _ _)

end PowerOff

end Sys2Proof.ResetBoot
end

section
namespace Sys2Proof.ResetBoot

open Sys2Proof.Machine

section PowerOff

variable {a : Nat} (ha : bootReg a)
include ha

/-! #### Errors of memory words (R507, R511) -/

omit ha in
theorem elog_keeps {ad inf cnt tm : RegDef} {k i j : Nat} (s : Dev) (addr ini synd t : Nat) (recov : Bool)
    (had : ad.addr k i j ≠ a) (hinf : inf.addr k i j ≠ a) (hcnt : cnt.addr k i j ≠ a) (htm : tm.addr k i j ≠ a) :
    KeepsReg a s (s.elog ad inf cnt tm k i j addr ini synd t recov) := by
  have hcount : KeepsReg a s (s.count cnt 1 k i j) := (KeepsReg.refl s).count 1 hcnt
  unfold Dev.elog
  exact KeepsReg.ite (fun _ => hcount.setB 30 true hinf) fun _ => ((hcount.wr _ had).wr _ hinf).wr _ htm

omit ha in
theorem b2n_le_one (b : Bool) : b2n b ≤ 1 := by cases b <;> decide

theorem logEcc_keeps (s : Dev) (m : EccMem) (ue : Bool) (addr ini synd : Nat) :
    KeepsReg a s (s.logEcc m ue addr ini synd) := by
  unfold Dev.logEcc
  cases m with
  | store g =>
    exact (elog_keeps s _ _ _ _ _ (past_ne ha rfl) (past_ne ha rfl) (past_ne ha rfl) (past_ne ha rfl)).orR _
      (past_ne ha rfl)
  | atrium =>
    exact (elog_keeps s _ _ _ _ _ (past_ne ha rfl) (past_ne ha rfl) (past_ne ha rfl) (past_ne ha rfl)).orR _
      (past_ne ha rfl)
  | stack k =>
    exact (elog_keeps s _ _ _ _ _ (past_ne ha rfl) (past_ne ha rfl) (past_ne ha rfl) (past_ne ha rfl)).orR _
      (past_ne ha rfl)
  | sram d =>
    have hu := b2n_le_one ue
    have hbefore {o : Nat} (ho : o < 0x57000) : o + b2n ue * 0x20 + 0 * 0 < 0x58000 := by omega
    exact (elog_keeps s _ _ _ _ _ (before_ne ha rfl (hbefore (by decide))) (before_ne ha rfl (hbefore (by decide)))
      (before_ne ha rfl (hbefore (by decide))) (before_ne ha rfl (hbefore (by decide)))).orR _
      (before_ne ha rfl (by decide))

theorem eccWord_keeps (s : Dev) (ini w : Nat) : KeepsReg a s (s.eccWord ini w) := by
  have hfound : KeepsReg a s { s with ecc := SMap.erase s.ecc w } := (KeepsReg.refl s).same rfl rfl
  unfold Dev.eccWord
  simp only
  split
  case h_1 => exact KeepsReg.refl s
  case h_2 m _ =>
    exact KeepsReg.ite (fun _ => KeepsReg.refl s) fun _ =>
      KeepsReg.ite (fun _ => (hfound.setPoison _ _).trans (logEcc_keeps ha _ m _ _ _ _)) fun _ =>
        hfound.trans (logEcc_keeps ha _ m _ _ _ _)

theorem meet_keeps (s : Dev) (ini x n : Nat) : KeepsReg a s (s.meet ini x n) :=
  (KeepsReg.refl s).foldl fun u w _ => eccWord_keeps ha u ini w

theorem logHub_keeps (s : Dev) (ue : Bool) (addr ini synd : Nat) : KeepsReg a s (s.logHub ue addr ini synd) :=
  (elog_keeps s _ _ _ _ _ (past_ne ha rfl) (past_ne ha rfl) (past_ne ha rfl) (past_ne ha rfl)).orR _ (past_ne ha rfl)

/-! #### Rings (R290 to R299) -/

omit ha in
theorem ringStore_keeps (s : Dev) (r i : Nat) (p : Poster) (code stamp : Nat) (e : List Byte) :
    KeepsReg a s (s.ringStore r i p code stamp e) := by
  unfold Dev.ringStore
  exact ((KeepsReg.refl s).wrBytes _ _).setRing r _

theorem enqReserved_keeps (s : Dev) (r : Nat) (p : Poster) (code : Nat) (e : List Byte) :
    KeepsReg a s (s.enqReserved r p code e) := by
  unfold Dev.enqReserved
  exact ((ringStore_keeps s r _ p code _ e).setF _ _ _ (past_ne ha rfl)).setRing r _

theorem enqSurplus_keeps (s : Dev) (r : Nat) (p : Poster) (code : Nat) (e : List Byte) :
    KeepsReg a s (s.enqSurplus r p code e) := by
  unfold Dev.enqSurplus
  exact ((ringStore_keeps s r _ p code _ e).setF _ _ _ (past_ne ha rfl)).setRing r _

theorem hubPost_keeps (s : Dev) (r : Nat) (e : List Byte) : KeepsReg a s (s.hubPost r e) := by
  have hlost : KeepsReg a s (s.count R.HUB_HPLOST) := (KeepsReg.refl s).count 1 (past_ne ha rfl)
  unfold Dev.hubPost
  exact KeepsReg.ite (fun _ => hlost) fun _ =>
    KeepsReg.ite (fun _ => (enqReserved_keeps ha s r _ 0 e).count 1 (past_ne ha rfl)) fun _ =>
      KeepsReg.ite (fun _ => (enqSurplus_keeps ha s r _ 1 e).count 1 (past_ne ha rfl)) fun _ => hlost

theorem complete_keeps (s : Dev) (r : Nat) (e : List Byte) (code : Nat) : KeepsReg a s (s.complete r e code) := by
  unfold Dev.complete
  exact KeepsReg.ite (fun _ => hubPost_keeps ha s _ _) fun _ => KeepsReg.refl s

theorem ringTake_keeps (s : Dev) (r : Nat) : KeepsReg a s (s.ringTake r).2 := by
  unfold Dev.ringTake
  simp only
  split
  · dsimp only
    exact ((KeepsReg.refl s).setF _ _ _ (past_ne ha rfl)).setRing r _
  · dsimp only
    exact ((KeepsReg.refl s).setF _ _ _ (past_ne ha rfl)).setRing r _

omit ha in
theorem putPoison_keeps (s : Dev) (x : Nat) (l : List Byte) (p : Bool) : KeepsReg a s (s.putPoison x l p) := by
  have hbytes : KeepsReg a s (s.wrBytes x l) := (KeepsReg.refl s).wrBytes x l
  unfold Dev.putPoison
  exact KeepsReg.ite (fun _ => hbytes.setPoison _ _) fun _ => hbytes

theorem popTo_keeps (s : Dev) (r buf : Nat) : KeepsReg a s (s.popTo r buf) := by
  unfold Dev.popTo
  exact (((meet_keeps ha s 5 _ 64).trans (ringTake_keeps ha _ r)).trans (putPoison_keeps _ _ _ _)).trans
    (complete_keeps ha _ _ _ _)

theorem servePops_keeps (n : Nat) (s : Dev) : KeepsReg a s (servePops n s) := by
  induction n generalizing s with
  | zero => exact KeepsReg.refl s
  | succ n ih =>
    unfold servePops
    split
    case h_1 => exact KeepsReg.refl s
    case h_2 w _ => exact ((((KeepsReg.refl s).modHub _).trans (popTo_keeps ha _ w.ring w.buf)).modHub _).trans (ih _)

/-! #### Sync cells (R301, R302, R305, R509) -/

theorem finishCmd_keeps (s : Dev) (rec nring id code stamp value : Nat) (wait : Bool) :
    KeepsReg a s (s.finishCmd rec nring id code stamp value wait) := by
  have hdone : KeepsReg a s _ := (((KeepsReg.refl s).wrN (rec + 0x1C) 4 value).wrN (rec + 0x18) 4
    (code + 16 * (if code = 1 then stamp else 0))).modHub fun h => { h with cmds := h.cmds.erase rec }
  unfold Dev.finishCmd
  exact KeepsReg.ite (fun _ => (hdone.trans (hubPost_keeps ha _ _ _)).trans (servePops_keeps ha _ _)) fun _ => hdone

theorem finishWait_keeps (s : Dev) (w : Wait) (code value : Nat) : KeepsReg a s (s.finishWait w code value) := by
  unfold Dev.finishWait
  split
  · exact (KeepsReg.refl s).modHub _
  · exact finishCmd_keeps ha s _ _ _ _ _ _ _
  · exact (KeepsReg.refl s).modHub _

theorem testWaits_keeps (s : Dev) (c : Nat) : KeepsReg a s (s.testWaits c) :=
  ((KeepsReg.refl s).modHub _).foldl fun u w _ => finishWait_keeps ha u w 0 _

theorem cellMeet_keeps (s : Dev) (ini c : Nat) : KeepsReg a s (s.cellMeet ini c) := by
  unfold Dev.cellMeet
  exact KeepsReg.ite (fun _ => KeepsReg.refl s) fun _ =>
    KeepsReg.ite
      (fun _ => ((((KeepsReg.refl s).modHub _).modHub _).trans (logHub_keeps ha _ _ _ _ _)).foldl fun u w _ =>
        finishWait_keeps ha u w _ _)
      fun _ => ((KeepsReg.refl s).modHub _).trans (logHub_keeps ha _ _ _ _ _)

theorem cellSet_keeps (s : Dev) (c v ini : Nat) : KeepsReg a s (s.cellSet c v ini) :=
  (((cellMeet_keeps ha s ini c).modHub _).modHub _).trans (testWaits_keeps ha _ c)

/-! #### Works, radios and galleries (R68, R78, R363, R386) -/

theorem radSet_keeps (s : Dev) (d : Fin 2) (reg : RegDef) (v : Nat) : KeepsReg a s (s.radSet d reg v) := by
  unfold Dev.radSet
  exact KeepsReg.ite (fun _ => cellSet_keeps ha s _ v 5) fun _ => KeepsReg.refl s

theorem dropRecords_keeps (s : Dev) (d : Fin 2) : KeepsReg a s (s.dropRecords d) := by
  unfold Dev.dropRecords
  simp only
  have hdrop := fun v n w =>
    (((KeepsReg.refl (a := a) s).wr (r := R.RCV_DSEQ) (k := d) (i := 0) (j := 0) v (past_ne ha rfl)).count
      (r := R.RCV_DROPPED) (k := d) (i := 0) (j := 0) n (past_ne ha rfl)).trans (radSet_keeps ha _ d R.RCV_DCELL w)
  exact KeepsReg.ite (fun _ => (hdrop _ _ _).trans (radSet_keeps ha _ d R.RX_RELCELL _)) fun _ => hdrop _ _ _

theorem radioUnbind_keeps (s : Dev) (d : Fin 2) : KeepsReg a s (s.radioUnbind d) := by
  have hcapt : KeepsReg a s (s.dropCapture d) := (KeepsReg.refl s).modRad d _
  unfold Dev.radioUnbind
  split
  case h_1 => exact KeepsReg.refl s
  case h_2 g _ =>
    have hcount : KeepsReg a s
        (if (s.capture d).isSome then (s.dropCapture d).count R.RF_ABANDON 1 d else s.dropCapture d) :=
      KeepsReg.ite (fun _ => hcapt.count 1 (past_ne ha rfl)) fun _ => hcapt
    exact ((hcount.modGal g _).trans (dropRecords_keeps ha _ d)).setF _ _ _ (past_ne ha rfl)

theorem endWorks_keeps (s : Dev) : KeepsReg a s s.endWorks := by
  have hwork (u : Dev) (w : Work) :
      KeepsReg a u ((match w.radio with | some d => u.radioUnbind (toDie d) | none => u).refund w) := by
    refine KeepsReg.trans ?_ (refund_keeps ha _ w)
    split
    · exact radioUnbind_keeps ha u _
    · exact KeepsReg.refl u
  unfold Dev.endWorks
  exact (((KeepsReg.refl s).foldl fun u w _ => hwork u w).modHub _).foldl fun u g _ =>
    (setTenant_keeps ha u g 0 0).setF _ _ _ (gstat_ne ha g)

theorem galGate_keeps (s : Dev) (g : Fin 6) : KeepsReg a s (s.galGate g) := by
  have hlow : a < 0x20000000 := by have := ha.2; omega
  unfold Dev.galGate
  refine KeepsReg.ite (fun _ => KeepsReg.refl s) fun _ => ?_
  have hclear := ((carLost_keeps hlow s g true).trans (clearGal_keeps hlow _ g)).rstRange (lo := galBase g)
    (hi := galBase g + 0x100000) (.inl (by unfold galBase; omega))
  have hgated := (((hclear.zeroMem (galStore g) (galStore g + 0x1000000)).modPwr fun p =>
    { p with zeroed := vset p.zeroed g false }).setPhase g .gated).wr (r := R.CRST_REL) (k := 0) (i := 0) (j := 0)
  exact ((hgated _ (crstRel_ne ha)).putCeil _ _).trans (rerequest_keeps ha _ _)

omit ha in
theorem clearedParts_keeps {s t : Dev} (h : KeepsReg a s t) (hub : HubSt) (host : HostSt) (isl : Vector Isl 13)
    (ldg : LedgerSt) : KeepsReg a s { t with hub := hub, host := host, isl := isl, ldg := ldg } := h.same rfl rfl

theorem cdieOff_keeps (s : Dev) : KeepsReg a s s.cdieOff := by
  obtain ⟨_, hlt⟩ := id ha
  have hgates : KeepsReg a s ((List.finRange 6).foldl (fun s g => s.galGate g) s.endWorks) :=
    (endWorks_keeps ha s).foldl fun u g _ => galGate_keeps ha u g
  have hregs := (hgates.rstRange (lo := 0x20000000) (hi := 0x10000000000) (.inl (by omega))).wr (r := R.CRST_REL) (k := 0)
    (i := 0) (j := 0) 0 (crstRel_ne ha)
  have hbus := ((hregs.zeroMem 0x40000000 0x100000000).zeroMem 0x800000000 0x1000000000).foldl
    (f := Dev.busReset) (l := List.range 0x18) fun u ini _ => (KeepsReg.refl u).busReset ini
  unfold Dev.cdieOff Dev.clearCdie
  exact (clearedParts_keeps hbus _ _ _ _).modPwr _

end PowerOff

end Sys2Proof.ResetBoot
end

section
/-!
PROOFS. Resets of the I/O dies (R78 to R82, R100), and the obligations on resets and on the boot ROM.
-/

namespace Sys2Proof.ResetBoot

open Sys2Proof.Machine

/-! ### The cause of a reset (R80) -/

theorem two_pow_code_testBit (n i : Nat) : (2 ^ n).testBit i = decide (n = i) := Nat.testBit_two_pow

/-- RST_CAUSE after a reset of kind `n`: LAST is `n`, SEEN bit `n` is set and RETLOST is kept. -/
theorem cause_facts {c n : Nat} (hn : n < 7) :
    bits ((setBits c 10 8 n ||| 2 ^ n) % 2 ^ 32) 10 8 = n ∧ bit ((setBits c 10 8 n ||| 2 ^ n) % 2 ^ 32) n = 1 ∧
      bit ((setBits c 10 8 n ||| 2 ^ n) % 2 ^ 32) 31 = bit c 31 := by
  refine ⟨?_, ?_, ?_⟩
  · have hlast : bits ((setBits c 10 8 n ||| 2 ^ n) % 2 ^ 32) 10 8 = bits (setBits c 10 8 n % 2 ^ 32) 10 8 := by
      apply Nat.eq_of_testBit_eq
      intro i
      simp only [testBit_bits, Nat.testBit_mod_two_pow, Nat.testBit_or, two_pow_code_testBit]
      simp [show n ≠ i + 8 by omega]
    rw [hlast, bits_setBits_same c n (by decide) (by decide)]
    exact Nat.mod_eq_of_lt (by omega)
  · rw [bit_eq_one_iff, Nat.testBit_mod_two_pow, Nat.testBit_or, two_pow_code_testBit]
    simp [show n < 32 by omega]
  · apply bit_congr
    rw [Nat.testBit_mod_two_pow, Nat.testBit_or, two_pow_code_testBit, testBit_setBits]
    simp [show n ≠ 31 by omega]

theorem code_lt (k : RstKind) : k.code < 7 := by cases k <;> decide

/-! ### The registers of a die at its reset (R78, R80) -/

theorem dieRegs_rising {s : Dev} {d : Fin 2} {k : RstKind} (hs : SMap.rising none s.regs = true) :
    SMap.rising none (s.dieRegs d k).regs = true := by
  have hclear : SMap.rising none ((s.rstRange (ioBase d) (ioBase d + 0x20000)).rstRange (ioBase d + 0x20080)
      (ioBase d + 0x1000000)).regs = true := SMap.rising_filter _ _ none (SMap.rising_filter _ _ none hs)
  unfold Dev.dieRegs
  exact Dev.wr_rising _ _ _ _ _ _ (Dev.wr_rising _ _ _ _ _ _ hclear)

theorem dieRegs_cause {s : Dev} {d : Fin 2} {k : RstKind} (hs : SMap.rising none s.regs = true) :
    (s.dieRegs d k).rg R.RST_CAUSE d =
      (setBits (s.rg R.RST_CAUSE d) 10 8 k.code ||| 2 ^ k.code) % 2 ^ 32 := by
  have hclear : SMap.rising none ((s.rstRange (ioBase d) (ioBase d + 0x20000)).rstRange (ioBase d + 0x20080)
      (ioBase d + 0x1000000)).regs = true := SMap.rising_filter _ _ none (SMap.rising_filter _ _ none hs)
  unfold Dev.dieRegs
  rw [Dev.wr_rg_ne _ _ _ _ _ _ _ _ _ _ (Dev.wr_rising _ _ _ _ _ _ hclear) (by fin_cases d <;> decide),
    Dev.wr_rg_same _ _ _ _ _ _ hclear]
  rfl

/-- Another register of the die takes its reset value. -/
theorem dieRegs_reset {s : Dev} {d : Fin 2} {k : RstKind} {a : Nat} (hs : SMap.rising none s.regs = true)
    (hlo : ioBase d + 0x20080 ≤ a) (hhi : a < ioBase d + 0x1000000) (hcause : R.RST_CAUSE.addr d 0 0 ≠ a)
    (hbod : R.BOD_STAT.addr d 0 0 ≠ a) (e : Nat) : SMap.get e (s.dieRegs d k).regs a = e := by
  have hfirst : SMap.rising none (s.rstRange (ioBase d) (ioBase d + 0x20000)).regs = true := SMap.rising_filter _ _ none hs
  have hclear : SMap.rising none ((s.rstRange (ioBase d) (ioBase d + 0x20000)).rstRange (ioBase d + 0x20080)
      (ioBase d + 0x1000000)).regs = true := SMap.rising_filter _ _ none hfirst
  unfold Dev.dieRegs
  rw [(((KeepsReg.refl _).wr _ hcause).wr _ hbod).get hclear, Dev.rstRange, SMap.get_clear _ _ _ _ _ hfirst,
    if_neg (by omega)]

theorem dieRegs_keeps {a : Nat} (s : Dev) (d : Fin 2) (k : RstKind) (ha : a < ioBase d) : KeepsReg a s (s.dieRegs d k) := by
  have hne {r : RegDef} (hw : r.win = .io) : r.addr d.val 0 0 ≠ a := by
    unfold RegDef.addr
    rw [hw, Win.base]
    unfold ioBase at ha
    omega
  unfold Dev.dieRegs
  exact ((((KeepsReg.refl s).rstRange (.inl ha)).rstRange (.inl (by omega))).wr _ (hne rfl)).wr _ (hne rfl)

/-! ### What a reset of a die leaves of the other parts -/

/-- The power sequencer, the hub, the cores and the other I/O die are as before. -/
structure KeepsParts (d : Fin 2) (s t : Dev) : Prop where
  pwr : t.pwr = s.pwr
  hub : t.hub = s.hub
  core : t.core = s.core
  die : ∀ i, i ≠ d → vget t.die i = vget s.die i

namespace KeepsParts

variable {d : Fin 2} {s t u : Dev}

theorem refl (s : Dev) : KeepsParts d s s := ⟨rfl, rfl, rfl, fun _ _ => rfl⟩

theorem trans (h : KeepsParts d s t) (h' : KeepsParts d t u) : KeepsParts d s u :=
  ⟨h'.pwr.trans h.pwr, h'.hub.trans h.hub, h'.core.trans h.core, fun i hi => (h'.die i hi).trans (h.die i hi)⟩

theorem foldl {α : Type} {f : Dev → α → Dev} {l : List α} (h : KeepsParts d s t)
    (hf : ∀ u x, KeepsParts d u (f u x)) : KeepsParts d s (l.foldl f t) := List.foldlRecOn l f h fun u hu x _ => hu.trans (hf u x)

theorem wr (h : KeepsParts d s t) (r : RegDef) (v k i j : Nat) : KeepsParts d s (t.wr r v k i j) :=
  h.trans ⟨rfl, rfl, rfl, fun _ _ => rfl⟩

theorem zeroMem (h : KeepsParts d s t) (lo hi : Nat) : KeepsParts d s (t.zeroMem lo hi) :=
  h.trans ⟨rfl, rfl, rfl, fun _ _ => rfl⟩

theorem busReset (h : KeepsParts d s t) (ini : Nat) : KeepsParts d s (t.busReset ini) :=
  h.trans ⟨rfl, rfl, rfl, fun _ _ => rfl⟩

theorem modDie (h : KeepsParts d s t) (f : DieSt → DieSt) : KeepsParts d s (t.modDie d f) :=
  h.trans ⟨rfl, rfl, rfl, fun _ hi => Dev.modDie_die_ne t f hi⟩

end KeepsParts

theorem trkStnInit_parts (s : Dev) (d e : Fin 2) : KeepsParts e s (s.trkStnInit d) := (KeepsParts.refl s).wr _ _ _ _ _

theorem otpCut_parts (s : Dev) (d : Fin 2) : KeepsParts d s (s.otpCut d) := by
  have hdraw : KeepsParts d s s.draw.2 := ⟨rfl, rfl, rfl, fun _ _ => rfl⟩
  unfold Dev.otpCut
  split
  · exact KeepsParts.refl s
  · dsimp only
    exact hdraw.modDie _

theorem otpCut_keeps {a : Nat} (s : Dev) (d : Fin 2) : KeepsReg a s (s.otpCut d) := by
  have hdraw : KeepsReg a s s.draw.2 := (KeepsReg.refl s).same rfl rfl
  unfold Dev.otpCut
  split
  · exact KeepsReg.refl s
  · dsimp only
    exact hdraw.modDie d _

theorem trkStn_ne {a : Nat} (ha : a < 0x10060000) (d : Fin 2) : R.TRK_STN.addr d.val 0 0 ≠ a := by
  unfold RegDef.addr
  simp only [R.TRK_STN, R.reg1, Win.base]
  omega

/-- A block that is not the trunk's is put to its start without a register; the trunk takes TRK_STN. -/
theorem blockReset_cases (s : Dev) (d e : Fin 2) (i : Fin 7) :
    (KeepsParts e s (s.blockReset d i) ∧ (s.blockReset d i).asm = s.asm ∧ (s.blockReset d i).regs = s.regs) ∨
      s.blockReset d i = { s with trk := vset s.trk d .init }.trkStnInit d := by
  unfold Dev.blockReset
  split_ifs
  · exact .inl ⟨⟨rfl, rfl, rfl, fun _ _ => rfl⟩, rfl, rfl⟩
  · exact .inl ⟨⟨rfl, rfl, rfl, fun _ _ => rfl⟩, rfl, rfl⟩
  · exact .inr rfl
  · exact .inl ⟨⟨rfl, rfl, rfl, fun _ _ => rfl⟩, rfl, rfl⟩
  · exact .inl ⟨⟨rfl, rfl, rfl, fun _ _ => rfl⟩, rfl, rfl⟩
  · exact .inl ⟨KeepsParts.refl s, rfl, rfl⟩

theorem blockReset_parts (s : Dev) (d e : Fin 2) (i : Fin 7) : KeepsParts e s (s.blockReset d i) := by
  rcases blockReset_cases s d e i with ⟨hparts, -, -⟩ | htrk
  · exact hparts
  · rw [htrk]
    exact KeepsParts.trans (t := { s with trk := vset s.trk d .init }) ⟨rfl, rfl, rfl, fun _ _ => rfl⟩
      (trkStnInit_parts _ d e)

theorem blockReset_keeps {a : Nat} (ha : a < 0x10060000) (s : Dev) (d : Fin 2) (i : Fin 7) :
    KeepsReg a s (s.blockReset d i) := by
  rcases blockReset_cases s d d i with ⟨-, hasm, hregs⟩ | htrk
  · exact (KeepsReg.refl s).same hasm hregs
  · rw [htrk]
    exact KeepsReg.trans (t := { s with trk := vset s.trk d .init }) ((KeepsReg.refl s).same rfl rfl)
      (trkStnInit_keeps _ d (trkStn_ne ha d))

/-- The islands, the timetable, the metering and, at a power-on, the test port of a die start afresh. -/
def unitsInit (s : Dev) (d : Fin 2) (cold : Bool) : Dev :=
  { s with
    ioIsl := vset s.ioIsl d (Vector.ofFn fun i : Fin 7 =>
      ⟨decide (i.val < 2), false, R.ioIccReset s.asm 0 i.val 0, false⟩)
    tt := vset s.tt d { TtSt.init with almDue := (vget s.tt d).almDue }
    mtr := vset s.mtr d .init
    test := if d = 0 ∧ cold = true then TestSt.init else s.test }

theorem unitsInit_parts (s : Dev) (d e : Fin 2) (cold : Bool) : KeepsParts e s (unitsInit s d cold) :=
  ⟨rfl, rfl, rfl, fun _ _ => rfl⟩

theorem unitsInit_keeps {a : Nat} (s : Dev) (d : Fin 2) (cold : Bool) : KeepsReg a s (unitsInit s d cold) :=
  (KeepsReg.refl s).same rfl rfl

/-- A reset of a die after its boot path: its blocks, its units, its access ports and, unless the reset is a
power-on, the ROM's part of the warden SRAM. -/
def dieTail (s : Dev) (d : Fin 2) (cold : Bool) : Dev :=
  let s := (List.finRange 7).foldl (fun s i => s.blockReset d i) s
  let s := (dieInis d).foldl Dev.busReset (unitsInit s d cold)
  if cold then s else s.zeroMem (wardenSram d) (wardenSram d + 0x4000)

theorem dieTail_keeps {a : Nat} (ha : a < 0x10060000) (s : Dev) (d : Fin 2) (cold : Bool) :
    KeepsReg a s (dieTail s d cold) := by
  have hblocks := (KeepsReg.refl s).foldl (f := fun s i => s.blockReset d i) (l := List.finRange 7) fun u i _ =>
    blockReset_keeps ha u d i
  have hbus := (hblocks.trans (unitsInit_keeps _ d cold)).foldl (f := Dev.busReset) (l := dieInis d) fun u ini _ =>
    (KeepsReg.refl u).busReset ini
  exact KeepsReg.ite (fun _ => hbus) fun _ => hbus.zeroMem _ _

theorem dieTail_parts (s : Dev) (d e : Fin 2) (cold : Bool) : KeepsParts e s (dieTail s d cold) := by
  have hblocks := (KeepsParts.refl s).foldl (d := e) (f := fun s i => s.blockReset d i) (l := List.finRange 7) fun u i =>
    blockReset_parts u d e i
  have hbus := (hblocks.trans (unitsInit_parts _ d e cold)).foldl (f := Dev.busReset) (l := dieInis d) fun u ini =>
    (KeepsParts.refl u).busReset ini
  unfold dieTail
  dsimp only
  split
  · exact hbus
  · exact hbus.zeroMem _ _

/-- What a reset of I/O die 0 does before the die's own parts: the compute die is off, and the ledger and station
time start afresh. -/
def hostOff (s : Dev) : Dev :=
  { s.cdieOff with ldg := .init, time := { TimeSt.init with units := s.time.units } }

theorem ledgerTime_keeps {a : Nat} {s t : Dev} (h : KeepsReg a s t) (l : LedgerSt) (x : TimeSt) :
    KeepsReg a s { t with ldg := l, time := x } := h.same rfl rfl

theorem hostOff_keeps {a : Nat} (ha : bootReg a) (s : Dev) : KeepsReg a s (hostOff s) :=
  ledgerTime_keeps (cdieOff_keeps ha s) _ _

theorem hostOff_hub (s : Dev) : (hostOff s).hub = .init := rfl

theorem hostOff_phase (s : Dev) : (hostOff s).pwr.phase = .off := rfl

/-- The boot path of a die starts afresh. -/
def bootPath (s : Dev) (d : Fin 2) (cold : Bool) : Dev := (s.otpCut d).modDie d (·.restart cold)

theorem oneDieReset_zero (s : Dev) (k : RstKind) (cold : Bool) :
    s.oneDieReset 0 k cold =
      ((dieTail (bootPath (hostOff s) 0 cold) 0 cold).dieRegs 0 k).modCore (warden 0) fun _ => CoreSt.init := rfl

theorem oneDieReset_one (s : Dev) (k : RstKind) (cold : Bool) :
    s.oneDieReset 1 k cold =
      ((dieTail (bootPath s 1 cold) 1 cold).dieRegs 1 k).modCore (warden 1) fun _ => CoreSt.init := rfl

/-! ### I/O die 0 after a reset (R78 to R80) -/

theorem modCore_rg (s : Dev) (c : Fin 8) (f : CoreSt → CoreSt) (r : RegDef) (k i j : Nat) :
    (s.modCore c f).rg r k i j = s.rg r k i j := rfl

/-- I/O die 0 stands in a reset of kind `n`: its warden, its boot ROM and its ledger are at their start, and the
compute die is off. -/
structure InReset (n : Nat) (cold : Bool) (t : Dev) : Prop where
  inReset : (vget t.die 0).inReset = true
  rom : (vget t.die 0).rom = .start
  isCold : (vget t.die 0).cold = cold
  last : t.fld R.RST_CAUSE 10 8 = n
  seen : t.bt R.RST_CAUSE n = true
  warden : vget t.core 6 = .init
  phase : t.pwr.phase = .off
  hub : t.hub = .init
  ledger : t.rg R.LDG_CTL = R.LDG_CTL.rst t.asm 0 0 0

theorem dieRegs_parts (s : Dev) (d e : Fin 2) (k : RstKind) : KeepsParts e s (s.dieRegs d k) := by
  have hclear : KeepsParts e s ((s.rstRange (ioBase d) (ioBase d + 0x20000)).rstRange (ioBase d + 0x20080)
      (ioBase d + 0x1000000)) := ⟨rfl, rfl, rfl, fun _ _ => rfl⟩
  exact (hclear.wr _ _ _ _ _).wr _ _ _ _ _

/-- A reset of I/O die 0 alone. -/
theorem oneDieReset_zero_inReset {s : Dev} (k : RstKind) (cold : Bool) (hs : SMap.rising none s.regs = true) :
    InReset k.code cold (s.oneDieReset 0 k cold) ∧ SMap.rising none (s.oneDieReset 0 k cold).regs = true ∧
      (s.oneDieReset 0 k cold).bt R.RST_CAUSE 31 = s.bt R.RST_CAUSE 31 := by
  have hboot : bootReg (R.RST_CAUSE.addr 0 0 0) := by unfold bootReg; decide
  have hcause : KeepsReg (R.RST_CAUSE.addr 0 0 0) s (dieTail (bootPath (hostOff s) 0 cold) 0 cold) :=
    (((hostOff_keeps hboot s).trans (otpCut_keeps _ 0)).modDie 0 _).trans (dieTail_keeps (by decide) _ 0 cold)
  have hrising := hcause.rising hs
  obtain ⟨hlast, hseen, hret⟩ := cause_facts (c := s.rg R.RST_CAUSE) (code_lt k)
  have hpath : KeepsParts 0 (hostOff s) (bootPath (hostOff s) 0 cold) := (otpCut_parts _ 0).modDie _
  have htail : KeepsParts 1 (bootPath (hostOff s) 0 cold) ((dieTail (bootPath (hostOff s) 0 cold) 0 cold).dieRegs 0 k) :=
    (dieTail_parts _ 0 1 cold).trans (dieRegs_parts _ 0 1 k)
  have hdie : vget (s.oneDieReset 0 k cold).die 0 = (vget ((hostOff s).otpCut 0).die 0).restart cold := by
    rw [oneDieReset_zero, Dev.modCore_die, htail.die 0 (by decide), bootPath, Dev.modDie_die_same]
  have hrg : (s.oneDieReset 0 k cold).rg R.RST_CAUSE =
      (setBits (s.rg R.RST_CAUSE) 10 8 k.code ||| 2 ^ k.code) % 2 ^ 32 := by
    rw [oneDieReset_zero, modCore_rg, ← hcause.rg hs]
    exact dieRegs_cause (d := 0) hrising
  refine ⟨⟨?_, ?_, ?_, ?_, ?_, ?_, ?_, ?_, ?_⟩, ?_, ?_⟩
  case refine_1 => rw [hdie, DieSt.restart]
  case refine_2 => rw [hdie, DieSt.restart]
  case refine_3 => rw [hdie, DieSt.restart]
  case refine_4 => rw [Dev.fld, hrg, hlast]
  case refine_5 => rw [Dev.bt, hrg, hseen]; rfl
  case refine_6 => rw [oneDieReset_zero]; exact Dev.modCore_core_same _ _ _
  case refine_7 => rw [oneDieReset_zero, Dev.modCore_pwr, htail.pwr, hpath.pwr, hostOff_phase]
  case refine_8 => rw [oneDieReset_zero, Dev.modCore_hub, htail.hub, hpath.hub, hostOff_hub]
  case refine_9 =>
    rw [oneDieReset_zero, Dev.rg, Dev.modCore_regs]
    exact dieRegs_reset (d := 0) hrising (by decide) (by decide) (by decide) (by decide) _
  case refine_10 =>
    rw [oneDieReset_zero, Dev.modCore_regs]
    exact dieRegs_rising hrising
  case refine_11 => rw [Dev.bt, hrg, hret, Dev.bt]

end Sys2Proof.ResetBoot
end

section
namespace Sys2Proof.ResetBoot

open Sys2Proof.Machine

/-- A reset of I/O die 1 keeps the registers of I/O die 0's boot path. -/
theorem oneDieReset_one_keeps {a : Nat} (ha : a < 0x10060000) (s : Dev) (k : RstKind) (cold : Bool) :
    KeepsReg a s (s.oneDieReset 1 k cold) := by
  rw [oneDieReset_one]
  exact ((((otpCut_keeps s 1).modDie 1 _).trans (dieTail_keeps ha _ 1 cold)).trans
    (dieRegs_keeps _ 1 k (Nat.lt_of_lt_of_le ha (by decide)))).modCore _ _

/-- I/O die 0 stays in its reset when I/O die 1 is reset with it (R79). -/
theorem InReset.oneDieReset_one {n : Nat} {cold : Bool} {s : Dev} (h : InReset n cold s)
    (hs : SMap.rising none s.regs = true) (k : RstKind) (c : Bool) : InReset n cold (s.oneDieReset 1 k c) := by
  obtain ⟨hreset, hrom, hcold, hlast, hseen, hwarden, hphase, hhub, hledger⟩ := h
  have hparts : KeepsParts 1 s ((dieTail (bootPath s 1 c) 1 c).dieRegs 1 k) :=
    (((otpCut_parts s 1).modDie _).trans (dieTail_parts _ 1 1 c)).trans (dieRegs_parts _ 1 1 k)
  have hdie : vget (s.oneDieReset 1 k c).die 0 = vget s.die 0 := by
    rw [ResetBoot.oneDieReset_one, Dev.modCore_die, hparts.die 0 (by decide)]
  have hcause : KeepsReg (R.RST_CAUSE.addr 0 0 0) s (s.oneDieReset 1 k c) := oneDieReset_one_keeps (by decide) s k c
  have hldg : KeepsReg (R.LDG_CTL.addr 0 0 0) s (s.oneDieReset 1 k c) := oneDieReset_one_keeps (by decide) s k c
  refine ⟨?_, ?_, ?_, ?_, ?_, ?_, ?_, ?_, ?_⟩
  case refine_1 => rw [hdie, hreset]
  case refine_2 => rw [hdie, hrom]
  case refine_3 => rw [hdie, hcold]
  case refine_4 => rw [hcause.fld hs, hlast]
  case refine_5 => rw [hcause.bt hs, hseen]
  case refine_6 =>
    rw [ResetBoot.oneDieReset_one, Dev.modCore_core_ne _ _ (by decide), hparts.core, hwarden]
  case refine_7 => rw [ResetBoot.oneDieReset_one, Dev.modCore_pwr, hparts.pwr, hphase]
  case refine_8 => rw [ResetBoot.oneDieReset_one, Dev.modCore_hub, hparts.hub, hhub]
  case refine_9 => rw [hldg.rg hs, hldg.asm, hledger]

/-- A reset of I/O die 0, with that of every other fitted die (R79). -/
theorem dieReset_zero {s : Dev} (k : RstKind) (cold : Bool) (hs : SMap.rising none s.regs = true) :
    InReset k.code cold (s.dieReset 0 k cold) ∧ (s.dieReset 0 k cold).bt R.RST_CAUSE 31 = s.bt R.RST_CAUSE 31 := by
  obtain ⟨hreset, hrising, hret⟩ := oneDieReset_zero_inReset k cold hs
  unfold Dev.dieReset
  dsimp only
  split
  · exact ⟨hreset.oneDieReset_one hrising .die0 cold,
      ((oneDieReset_one_keeps (a := R.RST_CAUSE.addr 0 0 0) (by decide) _ .die0 cold).bt hrising 31).trans hret⟩
  · exact ⟨hreset, hret⟩

/-! ### The sources of a reset (R78 to R81) -/

theorem loseRetention_rising {s : Dev} (d : Fin 2) (hs : SMap.rising none s.regs = true) :
    SMap.rising none (s.loseRetention d).regs = true := setB_rising _ _ (Dev.wr_rising _ _ _ _ _ _ hs)

/-- Retention latches that lose their contents read as lost (R80). -/
theorem loseRetention_lost {s : Dev} (hs : SMap.rising none s.regs = true) :
    (s.loseRetention 0).bt R.RST_CAUSE 31 = true := by
  have hlost : SMap.rising none (s.wr R.RST_CAUSE 0x80000000).regs = true := Dev.wr_rising _ _ _ _ _ _ hs
  have hkeeps : KeepsReg (R.RST_CAUSE.addr 0 0 0) (s.wr R.RST_CAUSE 0x80000000) (s.loseRetention 0) :=
    (KeepsReg.refl _).setB 0 false (by decide)
  rw [hkeeps.bt hlost, Dev.bt, Dev.wr_rg_same _ _ _ _ _ _ hs]
  decide

theorem powerOnReset_zero {s : Dev} (hs : SMap.rising none s.regs = true) :
    InReset 0 true (powerOnReset 0 false s) := (dieReset_zero .powerOn true hs).1

/-- A power-on that finds VBAT out of range has lost the retention latches. -/
theorem powerOnReset_vbatOut {s : Dev} (hs : SMap.rising none s.regs = true) :
    InReset 0 true (powerOnReset 0 true s) ∧ (powerOnReset 0 true s).bt R.RST_CAUSE 31 = true := by
  have hlost : SMap.rising none ((s.loseRetention 0).modDie 0 fun x => { x with vbat := false }).regs = true :=
    loseRetention_rising 0 hs
  have hbit : ((s.loseRetention 0).modDie 0 fun x => { x with vbat := false }).bt R.RST_CAUSE 31 = true := by
    rw [modDie_bt, loseRetention_lost hs]
  unfold powerOnReset
  dsimp only
  rw [if_pos rfl]
  split
  · have hone : KeepsReg (R.RST_CAUSE.addr 0 0 0) ((s.loseRetention 0).modDie 0 fun x => { x with vbat := false })
        (((s.loseRetention 0).modDie 0 fun x => { x with vbat := false }).loseRetention 1) :=
      ((KeepsReg.refl _).wr _ (by decide)).setB _ _ (by decide)
    obtain ⟨hreset, hret⟩ := dieReset_zero .powerOn true (hone.rising hlost)
    exact ⟨hreset, hret.trans ((hone.bt hlost 31).trans hbit)⟩
  · obtain ⟨hreset, hret⟩ := dieReset_zero .powerOn true hlost
    exact ⟨hreset, hret.trans hbit⟩

theorem brownoutVddAo_zero {s : Dev} (hs : SMap.rising none s.regs = true) (hvbat : (vget s.die 0).vbat = true) :
    InReset 1 true (brownoutVddAo 0 s) := by
  have hbod : SMap.rising none (s.bod 0 0).regs = true := count_rising _ (Dev.wr_rising _ _ _ _ _ _ hs)
  unfold brownoutVddAo
  rw [if_pos hvbat]
  exact (dieReset_zero .brownout true hbod).1

theorem clockLoss_running {s : Dev} (hs : SMap.rising none s.regs = true) (hrun : (vget s.die 0).inReset = false) :
    InReset 6 false (clockLoss s) := by
  unfold clockLoss
  rw [hrun, if_neg (by decide)]
  exact (dieReset_zero .clockLoss false hs).1

theorem bootRetryReset_failed {s : Dev} (hs : SMap.rising none s.regs = true) (hrom : (vget s.die 0).rom = .failed) :
    InReset 4 false (bootRetryReset s) := by
  unfold bootRetryReset
  rw [if_pos hrom]
  exact (dieReset_zero .system false hs).1

theorem regWrite_rstCtl (s : Dev) (ini v : Nat) :
    s.regWrite ini R.RST_CTL 0 0 0 v = rstCtlWrite 0 (v % 2 ^ 32) s := rfl

/-- An accepted command of RST_CTL resets the device through I/O die 0 (R78). -/
theorem systemReset_accepted {s : Dev} {ini v : Nat} (h : s.accepts ini R.RST_CTL = true) :
    regCmd R.RST_CTL ini (with1 (setBits v 31 24 0xA5) 0) 0 0 s =
      ((s.dieReset 0 .system false).busResp ini ⟨0, false, false⟩).2 := by
  obtain ⟨hkey, hgo, -⟩ := keyed_facts (v := v) (key := 0xA5) (by decide)
  have hcmd := regCmd_accepted (d := 0) (v := with1 (setBits v 31 24 0xA5) 0) h rfl (by decide) rfl rfl
  have hwrite : rstCtlWrite 0 (with1 (setBits v 31 24 0xA5) 0 % 2 ^ 32) s = s.dieReset 0 .system false :=
    if_pos ⟨hkey, hgo⟩
  rw [← hwrite, ← regWrite_rstCtl s ini]
  exact hcmd

theorem InReset.busResp {n : Nat} {cold : Bool} {s : Dev} (h : InReset n cold s) (ini : Nat) (r : Resp) :
    InReset n cold (s.busResp ini r).2 := ⟨h.1, h.2, h.3, h.4, h.5, h.6, h.7, h.8, h.9⟩

/-! ### The release of a reset (R81, R82, R100, R442) -/

/-- A die whose reset is released: the straps are latched, the calibration block is loaded and the trunk takes its
station. -/
def released (s : Dev) (d : Fin 2) (gpio : Nat) : Dev :=
  ((((s.modDie d fun x => { x with inReset := false }).wr R.STRAPS (gpio % 2 ^ 14) d).calLoad d).trkStnInit d)

/-- Station time of I/O die 0 starts from the meridian. -/
def timeFromMeridian (t : Dev) : Dev :=
  let ns := t.fld R.MER_SEC 39 0 0 * 1000000000 + t.fld R.MER_SUB 14 0 0 * 1000000000 / 32768
  { t with time := { TimeSt.init with units := ns % 2 ^ 64 * tsNs } }

theorem resetRelease_eq {s : Dev} {d : Fin 2} {gpio : Nat} (hreset : (vget s.die d).inReset = true) :
    resetRelease d gpio s = if d = 0 then timeFromMeridian (released s d gpio) else released s d gpio := by
  unfold resetRelease
  rw [hreset]
  rfl

end Sys2Proof.ResetBoot
end

section
namespace Sys2Proof.ResetBoot

open Sys2Proof.Machine

/-- The calibration block of a die is staged as stored, and live where it is sound (R100). -/
theorem calLoad_die (s : Dev) (d : Fin 2) :
    vget (s.calLoad d).die d = { vget s.die d with
      calStage := (vget s.die d).calNv
      calLive := if calOk (vget s.die d).calNv then (vget s.die d).calNv else calDefault } := by
  rw [Dev.calLoad, Dev.setF_die, Dev.setB_die, Dev.modDie_die_same]

theorem calLoad_mem (s : Dev) (d : Fin 2) : (s.calLoad d).mem = s.mem := by
  rw [Dev.calLoad, Dev.setF_mem, Dev.setB_mem, Dev.modDie_mem]

theorem calLoad_keeps {a : Nat} (s : Dev) (d : Fin 2) (hne : R.CAL_STAT.addr d 0 0 ≠ a) : KeepsReg a s (s.calLoad d) :=
  (((KeepsReg.refl s).modDie d _).setB _ _ hne).setF _ _ _ hne

theorem calLoad_rising {s : Dev} {d : Fin 2} (hs : SMap.rising none s.regs = true) :
    SMap.rising none (s.calLoad d).regs = true := setF_rising _ _ _ (setB_rising _ _ hs)

/-- DEFAULTS of CAL_STAT shows that the stored block is not sound. -/
theorem calLoad_defaults {s : Dev} {d : Fin 2} (hs : SMap.rising none s.regs = true) :
    (s.calLoad d).bt R.CAL_STAT 31 d = !calOk (vget s.die d).calNv := by
  have hm (f : DieSt → DieSt) : SMap.rising none (s.modDie d f).regs = true := hs
  rw [Dev.calLoad, bt_setF_ne _ (setB_rising _ _ (hm _)) (by decide) (by decide) (by decide),
    bt_setB_same _ (hm _) (by decide)]

theorem trkStnInit_die (s : Dev) (d : Fin 2) : (s.trkStnInit d).die = s.die := by
  rw [Dev.trkStnInit, Dev.wr_die]

theorem trkStnInit_mem (s : Dev) (d : Fin 2) : (s.trkStnInit d).mem = s.mem := by
  rw [Dev.trkStnInit, Dev.wr_mem]

/-- What a release leaves: the die runs with the block that was sound, or with the defaults. -/
theorem released_die (s : Dev) (d : Fin 2) (gpio : Nat) :
    (vget (released s d gpio).die d).inReset = false ∧
      (vget (released s d gpio).die d).calLive =
        if calOk (vget s.die d).calNv then (vget s.die d).calNv else calDefault := by
  rw [released, trkStnInit_die, calLoad_die, Dev.wr_die, Dev.modDie_die_same]
  exact ⟨rfl, rfl⟩

theorem released_mem (s : Dev) (d : Fin 2) (gpio : Nat) : (released s d gpio).mem = s.mem := by
  rw [released, trkStnInit_mem, calLoad_mem, Dev.wr_mem, Dev.modDie_mem]

theorem released_straps {s : Dev} (d : Fin 2) (gpio : Nat) (hs : SMap.rising none s.regs = true) :
    (released s d gpio).rg R.STRAPS d = gpio % 2 ^ 14 := by
  have hm : SMap.rising none (s.modDie d fun x => { x with inReset := false }).regs = true := hs
  have hkeeps := (calLoad_keeps (a := R.STRAPS.addr d 0 0)
    ((s.modDie d fun x => { x with inReset := false }).wr R.STRAPS (gpio % 2 ^ 14) d) d (by fin_cases d <;> decide)).trans
    (trkStnInit_keeps _ d (by fin_cases d <;> decide))
  rw [released, hkeeps.rg (Dev.wr_rising _ _ _ _ _ _ hm), Dev.wr_rg_same _ _ _ _ _ _ hm]
  exact Nat.mod_eq_of_lt (lt_trans (Nat.mod_lt _ (by decide)) (by decide))

theorem released_defaults {s : Dev} (d : Fin 2) (gpio : Nat) (hs : SMap.rising none s.regs = true) :
    (released s d gpio).bt R.CAL_STAT 31 d = !calOk (vget s.die d).calNv := by
  have hm : SMap.rising none (s.modDie d fun x => { x with inReset := false }).regs = true := hs
  have hw := Dev.wr_rising (s.modDie d fun x => { x with inReset := false }) R.STRAPS (gpio % 2 ^ 14) d 0 0 hm
  rw [released, (trkStnInit_keeps _ d (by fin_cases d <;> decide)).bt (calLoad_rising hw), calLoad_defaults hw, Dev.wr_die,
    Dev.modDie_die_same]

theorem setTime_rg (t : Dev) (x : TimeSt) (r : RegDef) (d k i : Nat) :
    ({ t with time := x } : Dev).rg r d k i = t.rg r d k i := rfl

theorem setTime_bt (t : Dev) (x : TimeSt) (r : RegDef) (b d k i : Nat) :
    ({ t with time := x } : Dev).bt r b d k i = t.bt r b d k i := rfl

theorem timeFromMeridian_eq (t : Dev) : ∃ x, timeFromMeridian t = { t with time := x } := ⟨_, rfl⟩

/-- A release of I/O die `d` (R81, R82, R100). -/
theorem resetRelease_result {s : Dev} {d : Fin 2} {gpio : Nat} (hs : SMap.rising none s.regs = true)
    (hreset : (vget s.die d).inReset = true) :
    (vget (resetRelease d gpio s).die d).inReset = false ∧ (resetRelease d gpio s).rg R.STRAPS d = gpio % 2 ^ 14 ∧
      (resetRelease d gpio s).mem = s.mem ∧
      (vget (resetRelease d gpio s).die d).calLive =
        (if calOk (vget s.die d).calNv then (vget s.die d).calNv else calDefault) ∧
      (resetRelease d gpio s).bt R.CAL_STAT 31 d = !calOk (vget s.die d).calNv := by
  obtain ⟨hrun, hlive⟩ := released_die s d gpio
  have hresult := And.intro hrun (And.intro (released_straps d gpio hs) (And.intro (released_mem s d gpio)
    (And.intro hlive (released_defaults d gpio hs))))
  obtain ⟨x, htime⟩ := timeFromMeridian_eq (released s d gpio)
  rw [resetRelease_eq hreset, htime]
  generalize released s d gpio = t at hresult ⊢
  split
  · rw [setTime_rg, setTime_bt]
    exact hresult
  · exact hresult

/-- `InReset` as the statement writes it out. -/
theorem InReset.written_out {n : Nat} {cold : Bool} {t : Dev} (h : InReset n cold t) (a : Asm) :
    (vget t.die 0).inReset = true ∧ (vget t.die 0).rom = .start ∧ (vget t.die 0).cold = cold ∧
      t.fld R.RST_CAUSE 10 8 = n ∧ t.bt R.RST_CAUSE n = true ∧ vget t.core 6 = .init ∧ t.pwr.phase = .off ∧
      t.hub = .init ∧ t.rg R.LDG_CTL = R.LDG_CTL.rst a 0 0 0 :=
  ⟨h.inReset, h.rom, h.isCold, h.last, h.seen, h.warden, h.phase, h.hub, h.ledger⟩

/-- Settles O34: every source resets I/O die 0, whose state after a reset is `InReset`; the release is followed
through its parts. -/
theorem resets : Obligations.Resets := by
  unfold Obligations.Resets
  intro ini v gpio d s hwf resetTo
  have hs := wf_regs hwf
  have hfit0 : s.dev.fitted (0 : Fin 2).val = true := fitted_zero s.dev
  have key : ∀ n cold t, InReset n cold t → resetTo n cold t := fun _ _ _ h => h.written_out s.dev.asm
  refine ⟨answers_onDie hfit0 ?_, answers_onDie hfit0 ?_, fun hvbat => answers_onDie hfit0 ?_,
    fun hfit => answers_onDie hfit ?_, fun hacc => answers_ok ?_, fun hrun => answers_onDie hfit0 ?_,
    fun hfit hreset => answers_onDie hfit ?_, fun hfit => answers_onDie hfit ?_⟩
  case refine_1 => exact key _ _ _ (powerOnReset_zero hs)
  case refine_2 =>
    obtain ⟨hreset, hlost⟩ := powerOnReset_vbatOut hs
    exact ⟨key _ _ _ hreset, hlost⟩
  case refine_3 => exact key _ _ _ (brownoutVddAo_zero hs hvbat)
  case refine_4 => exact key _ _ _ (dieReset_zero .pin false hs).1
  case refine_5 =>
    have hreset := (dieReset_zero .system false hs).1.busResp ini ⟨0, false, false⟩
    rw [← systemReset_accepted (v := v) hacc] at hreset
    exact key _ _ _ hreset
  case refine_6 => exact key _ _ _ (clockLoss_running hs hrun)
  case refine_7 =>
    obtain ⟨hrun, hstraps, hmem, hlive, hdefaults⟩ := resetRelease_result (gpio := gpio) hs hreset
    refine ⟨hrun, hstraps, hmem, fun hbad => ⟨?_, ?_⟩, fun hgood => ?_⟩
    · rw [hlive, hbad, if_neg (by decide)]
    · rw [hdefaults, hbad]; rfl
    · rw [hlive, hgood, if_pos rfl]
  case refine_8 => rfl

end Sys2Proof.ResetBoot
end

section
namespace Sys2Proof.ResetBoot

open Sys2Proof.Machine

/-! ### The boot ROM (R83, R88 to R91, R95) -/

/-- The ROM of I/O die 1 waits for W1_GO and shows it (R95). -/
theorem bootSequence_waits {s : Dev} (hs : SMap.rising none s.regs = true) (hrun : (vget s.die 1).inReset = false)
    (hrom : (vget s.die 1).rom = .start) :
    (vget (bootSequence 1 s).die 1).rom = .wait1 ∧ (bootSequence 1 s).fld R.BOOT_STAT 7 0 1 = 4 ∧
      (bootSequence 1 s).core = s.core := by
  obtain ⟨-, hregs, hcore, -⟩ := coldZero_parts s 1
  rw [bootSequence_one hrun hrom]
  refine ⟨romTo_rom _ 1 _, ?_, ?_⟩
  · rw [romTo_fld]
    exact bootCode_code (d := 1) (hregs ▸ hs) (by decide)
  · rw [Dev.romTo, Dev.modDie_core, Dev.bootCode, Dev.setF_core, hcore]

/-- A boot port that does not answer is dead, and nothing else changes (R89). -/
theorem flashBootTimeout_result (p : Fin 2) (s : Dev) :
    vget (vget (flashBootTimeout p s).die 0).deadPort p = true ∧ (flashBootTimeout p s).mem = s.mem ∧
      (flashBootTimeout p s).core = s.core ∧ (flashBootTimeout p s).regs = s.regs := by
  refine ⟨?_, Dev.modDie_mem _ _ _, Dev.modDie_core _ _ _, Dev.modDie_regs _ _ _⟩
  rw [flashBootTimeout, Dev.modDie_die_same, vget_vset_same]

/-- `octalSet` on port 0, as the statement writes it out. -/
theorem octalSet_zero (s : Dev) {c : Copy} (h : c.port = 0) :
    octalSet s c = ((s.setF R.FL_CFG 29 28 (if s.imgFlag c 2 then 2 else 1)).setF R.FL_CFG 10 8 (s.hdr c 0x49 1)).setF
      R.FL_CFG 4 0 (s.hdr c 0x48 1) := by
  rw [octalSet, h]
  rfl

/-- Settles O36: each source of the statement is followed through the steps of R83 that it takes. -/
theorem bootSequence : Obligations.BootSequence := by
  unfold Obligations.BootSequence
  intro n p s hwf
  have hs := wf_regs hwf
  have hfit0 : s.dev.fitted (0 : Fin 2).val = true := fitted_zero s.dev
  refine ⟨fun hfit hrun hrom => answers_onDie hfit (bootSequence_waits hs hrun hrom),
    fun hrun hrom hstraps hlock => answers_onDie hfit0 (bootSequence_hold hs hrun hrom hstraps hlock),
    answers_ok (flashBootTimeout_result p s.dev), fun hrom => answers_ok ?_, fun c hrom hc hport => ?_⟩
  · obtain ⟨hreset, -, -, hlast, -⟩ := bootRetryReset_failed hs hrom
    exact ⟨hreset, hlast⟩
  · intro set loaded
    have hset : octalSet s.dev c = set := octalSet_zero s.dev hport
    refine ⟨fun hsign => answers_ok ?_,
      fun hlast htries => answers_ok (octalSwitch_failed hs hrom hc hport hlast htries)⟩
    obtain ⟨hdone, hrising⟩ := octalSwitch_loaded hs hrom hc loaded (by rw [hset]) hsign
    obtain ⟨hrunning, hcode, hcore⟩ := bootDone_result c hrising
    rw [hdone]
    generalize loaded.bootDone c = t at hrunning hcode hcore ⊢
    rw [hcore]
    exact ⟨hrunning, hcode, rfl, rfl⟩

end Sys2Proof.ResetBoot
end

section
/-!
PROOFS. Releases and starts (R92 to R95): the atrium's initialisation, a gallery's store, the warden of I/O die 1.
-/

namespace Sys2Proof.ResetBoot

open Sys2Proof.Machine

/-! ### A compute die that is up with a zero atrium (R53, R93) -/

/-- The compute die is up and its atrium reads 0. -/
structure AtriumUp (s : Dev) : Prop where
  wf : Memory.wf s.mem = true
  phase : s.pwr.phase = .on
  zero : ∀ a, 0x40000000 ≤ a → a < 0x43000000 → s.byte a = 0

namespace AtriumUp

variable {s t : Dev}

/-- What keeps the memory and the phase of the die's power keeps a zero atrium. -/
theorem same (h : AtriumUp s) (hm : t.mem = s.mem) (hp : t.pwr.phase = s.pwr.phase) : AtriumUp t :=
  ⟨hm ▸ h.wf, hp.trans h.phase, fun a hl hh => (byte_congr hm a).trans (h.zero a hl hh)⟩

theorem wr (h : AtriumUp s) (r : RegDef) (v k i j : Nat) : AtriumUp (s.wr r v k i j) := h.same rfl rfl

theorem setB (h : AtriumUp s) (r : RegDef) (b : Nat) (x : Bool) (k i j : Nat) : AtriumUp (s.setB r b x k i j) :=
  h.same rfl rfl

theorem setF (h : AtriumUp s) (r : RegDef) (hi lo v k i j : Nat) : AtriumUp (s.setF r hi lo v k i j) := h.same rfl rfl

theorem orR (h : AtriumUp s) (r : RegDef) (m k i j : Nat) : AtriumUp (s.orR r m k i j) := h.same rfl rfl

theorem rstRange (h : AtriumUp s) (lo hi : Nat) : AtriumUp (s.rstRange lo hi) := h.same rfl rfl

theorem modIsl (h : AtriumUp s) (i : Fin 13) (f : Isl → Isl) : AtriumUp (s.modIsl i f) := h.same rfl rfl

theorem modPwr (h : AtriumUp s) {f : PowerSt → PowerSt} (hf : (f s.pwr).phase = s.pwr.phase) : AtriumUp (s.modPwr f) :=
  h.same rfl hf

theorem modHost (h : AtriumUp s) (f : HostSt → HostSt) : AtriumUp (s.modHost f) := h.same rfl rfl

theorem modCore (h : AtriumUp s) (c : Fin 8) (f : CoreSt → CoreSt) : AtriumUp (s.modCore c f) := h.same rfl rfl

theorem modGal (h : AtriumUp s) (g : Fin 6) (f : GalSt → GalSt) : AtriumUp (s.modGal g f) := h.same rfl rfl

theorem modCar (h : AtriumUp s) (g : Fin 6) (f : CarSt → CarSt) : AtriumUp (s.modCar g f) := h.same rfl rfl

theorem modHub (h : AtriumUp s) (f : HubSt → HubSt) : AtriumUp (s.modHub f) := h.same rfl rfl

theorem busReset (h : AtriumUp s) (ini : Nat) : AtriumUp (s.busReset ini) := h.same rfl rfl

theorem zeroMem (h : AtriumUp s) (lo hi : Nat) : AtriumUp (s.zeroMem lo hi) :=
  ⟨zeroMem_wf s lo hi h.wf, h.phase, fun a hl hh => by
    rw [zeroMem_byte s lo hi a h.wf (by omega), h.zero a hl hh, ite_self]⟩

theorem ite {c : Prop} [Decidable c] (hs : c → AtriumUp s) (ht : ¬ c → AtriumUp t) : AtriumUp (if c then s else t) := by
  split
  case isTrue hc => exact hs hc
  case isFalse hc => exact ht hc

theorem foldl {α : Type} {f : Dev → α → Dev} {l : List α} (h : AtriumUp s)
    (hf : ∀ u x, AtriumUp u → AtriumUp (f u x)) : AtriumUp (l.foldl f s) := List.foldlRecOn l f h fun u hu x _ => hf u x hu

/-! #### Requests to the regulators (R56 to R59) -/

theorem ldgEvent (h : AtriumUp s) (code arg : Nat) : AtriumUp (s.ldgEvent code arg) := by
  unfold Dev.ldgEvent
  exact AtriumUp.ite (fun _ => h.same rfl rfl) fun _ => h

theorem pmbErr (h : AtriumUp s) (b r : Nat) : AtriumUp (s.pmbErr b r) := by
  unfold Dev.pmbErr
  exact (((h.orR _ _ _ _ _).setF _ _ _ _ _ _ _).orR _ _ _ _ _).ldgEvent 8 _

theorem vfCheck (h : AtriumUp s) (r : Fin 9) : AtriumUp (s.vfCheck r) := by
  unfold Dev.vfCheck
  exact AtriumUp.ite (fun _ => h) fun _ => h.pmbErr 28 r.val

theorem sendVout (h : AtriumUp s) (r : Fin 9) (mv : Nat) : AtriumUp (s.sendVout r mv).2 := by
  have hvf := h.vfCheck r
  unfold Dev.sendVout
  simp only
  split
  · exact hvf.pmbErr 29 r.val
  · split
    · exact hvf.pmbErr 29 r.val
    · dsimp only
      exact hvf.modPwr rfl

theorem putCeil (h : AtriumUp s) (i : Fin 7) (f : Nat) : AtriumUp (s.putCeil i f) := h.modPwr rfl

theorem retune (h : AtriumUp s) (i : Fin 7) : AtriumUp (s.retune i) := by
  have hput := h.putCeil i (s.wantCeil i)
  unfold Dev.retune
  simp only
  split
  · exact AtriumUp.ite (fun _ => hput.sendVout _ _) fun _ => hput
  · split
    · exact AtriumUp.ite (fun _ => hput.sendVout _ _) fun _ => hput
    · exact AtriumUp.ite (fun _ => (h.sendVout _ _).modPwr rfl) fun _ => (h.sendVout _ _).pmbErr 30 _

theorem rerequest (h : AtriumUp s) (r : Fin 9) : AtriumUp (s.rerequest r) := by
  have hvf := h.vfCheck r
  unfold Dev.rerequest
  simp only
  refine AtriumUp.ite (fun _ => h) fun _ => AtriumUp.ite (fun _ => hvf) fun _ => ?_
  exact AtriumUp.ite (fun _ => hvf.sendVout _ _) fun _ => (hvf.sendVout _ _).foldl fun u x hu => hu.modPwr rfl

/-! #### Galleries and host cores (R52, R92, R94) -/

theorem setPhase (h : AtriumUp s) (g : Fin 6) (p : GPhase) : AtriumUp (s.setPhase g p) := h.same rfl rfl

theorem galRelease (h : AtriumUp s) (g : Fin 6) : AtriumUp (s.galRelease g) := by
  unfold Dev.galRelease Dev.curatorStart
  exact AtriumUp.ite (fun _ => AtriumUp.ite (fun _ => (h.setPhase g .run).modCore _ _) fun _ => h.setPhase g .zeroing)
    fun _ => h

theorem galUngate (h : AtriumUp s) (g : Fin 6) : AtriumUp (s.galUngate g) := by
  unfold Dev.galUngate
  exact AtriumUp.ite (fun _ => h) fun _ => (((h.setPhase g .reset).putCeil _ _).retune _).galRelease g

theorem carLost (h : AtriumUp s) (g : Fin 6) (gated : Bool) : AtriumUp (s.carLost g gated) := by
  have herr (ms : List (Fin 6)) : AtriumUp (s.carError ms 2) := by
    unfold Dev.carError
    exact h.foldl fun u x hu => (hu.modCar x _).orR _ _ _ _ _
  unfold Dev.carLost
  exact (AtriumUp.ite (fun _ => herr _) fun _ => h).modCar g _

theorem clearGal (h : AtriumUp s) (g : Fin 6) : AtriumUp (s.clearGal g) := by
  unfold Dev.clearGal
  exact ((((((h.modHub _).modGal g _).modCore (curator g) _).rstRange _ _).rstRange _ _).busReset _).busReset _

theorem galGate (h : AtriumUp s) (g : Fin 6) : AtriumUp (s.galGate g) := by
  have hclear := ((h.carLost g true).clearGal g).rstRange (galBase g) (galBase g + 0x100000)
  have hzero := hclear.zeroMem (galStore g) (galStore g + 0x1000000)
  have hlost := hzero.modPwr (f := fun p => { p with zeroed := vset p.zeroed g false }) rfl
  unfold Dev.galGate
  exact AtriumUp.ite (fun _ => h) fun _ =>
    (((hlost.setPhase g .gated).setB R.CRST_REL (4 + g.val) false 0 0 0).putCeil _ _).rerequest _

theorem hostStart (h : AtriumUp s) (c : Fin 4) : AtriumUp (s.hostStart c) := by
  unfold Dev.hostStart
  exact AtriumUp.ite (fun _ => h.modHost _) fun _ => h

/-! #### The rails' sequence (R47, R53) -/

theorem railOff (h : AtriumUp s) (r : Nat) : AtriumUp (s.railOff r) := h.modPwr rfl

theorem railsOff (h : AtriumUp s) (l : List Nat) : AtriumUp (l.foldl Dev.railOff s) := h.foldl fun _ r hu => hu.railOff r

theorem railUsersUp (h : AtriumUp s) (r : Nat) : AtriumUp (s.railUsersUp r) := by
  unfold Dev.railUsersUp
  refine AtriumUp.ite (fun _ => ?_) fun _ => AtriumUp.ite (fun _ => ?_) fun _ =>
    AtriumUp.ite (fun _ => h.putCeil 6 _) fun _ => h
  · refine h.foldl fun u g hu => ?_
    split
    · exact AtriumUp.ite (fun _ => hu.galUngate _) fun _ => hu
    · exact hu
  · exact h.foldl fun u k hu => AtriumUp.ite (fun _ => hu.modIsl _ _) fun _ => hu

/-- A bit of PWR_CISL that changed during the rise takes effect: the rail's users rise, the rail goes off, or it joins
the steps. -/
theorem lateRail (h : AtriumUp s) (r : Nat) {off : Dev} (hoff : AtriumUp off) (on : Bool) :
    AtriumUp (if on = true then if s.railWanted r = true then s.railUsersUp r else off
      else if s.railWanted r = true then s.modPwr fun p => { p with steps := p.steps ++ [r] } else s) :=
  AtriumUp.ite (fun _ => AtriumUp.ite (fun _ => h.railUsersUp r) fun _ => hoff) fun _ =>
    AtriumUp.ite (fun _ => h.modPwr rfl) fun _ => h

/-- On a die that is up a step that fails switches its rails off and keeps the die (R47). -/
theorem stepFail (h : AtriumUp s) (r : Nat) : AtriumUp (s.stepFail r) := by
  have herr : AtriumUp ((s.seqErr r).modPwr fun p =>
      { p with settle := false, steps := p.steps.filter fun x => railK x != railK r }) :=
    ((h.setB R.PWR_STAT 29 true 0 0 0).setF R.PWR_STAT 28 26 (railK r) 0 0 0).modPwr rfl
  unfold Dev.stepFail
  rw [if_pos h.phase]
  exact AtriumUp.ite
    (fun _ => ((herr.setB R.PWR_CISL (2 * r) false 0 0 0).setB R.PWR_CISL (2 * r + 1) false 0 0 0).railOff r)
    fun _ => (herr.setF R.PWR_CISL 11 8 0 0 0 0).railsOff _

theorem seqNext (n : Nat) : ∀ {s : Dev}, AtriumUp s → AtriumUp (s.seqNext n) := by
  induction n with
  | zero => exact fun h => h
  | succ n ih =>
    intro s h
    unfold Dev.seqNext
    split
    case h_1 =>
      rw [if_neg (by rw [h.phase]; decide)]
      exact h
    case h_2 r rs _ =>
      exact AtriumUp.ite (fun _ => ih (h.modPwr rfl)) fun _ =>
        AtriumUp.ite (fun _ => AtriumUp.ite (fun _ => ih (h.stepFail r)) fun _ => h.stepFail r) fun _ => h

end AtriumUp

/-! ### The end of the atrium's initialisation (R53, R93) -/

/-- The atrium is zero, its islands are up and so is the die. -/
def atriumZeroed (s : Dev) : Dev :=
  (([6, 7, 8] : List (Fin 13)).foldl (fun s i => s.modIsl i fun x => { x with on := true })
    (s.zeroMem 0x40000000 0x43000000)).modPwr fun p => { p with phase := .on }

/-- The rails of the galleries take up what changed during the rise. -/
def lateRails (s : Dev) : Dev :=
  ([0, 1, 2] : List Nat).foldl (fun s r =>
    if (vget s.pwr.rails (Fin.ofNat 9 r)).on then
      if s.railWanted r then s.railUsersUp r else s.railOff r
    else if s.railWanted r then s.modPwr fun p => { p with steps := p.steps ++ [r] } else s) s

/-- So do the rails of the stacks. -/
def lateStacks (s : Dev) : Dev :=
  if (vget s.pwr.rails 5).on then
    if s.railWanted 5 then s.railUsersUp 5 else [5, 6, 7, 8].foldl Dev.railOff s
  else if s.railWanted 5 then s.modPwr fun p => { p with steps := p.steps ++ [5] } else s

/-- So do the galleries. -/
def lateGalleries (s : Dev) : Dev :=
  (List.finRange 6).foldl (fun s g => if s.bt R.PWR_CISL g.val then s else s.galGate g) s

theorem atriumInitDone_eq {s : Dev} (hphase : s.pwr.phase = .init) :
    atriumInitDone s =
      ((List.finRange 4).foldl Dev.hostStart (lateGalleries (lateStacks (lateRails (atriumZeroed s))))).seqNext 10 :=
  if_pos hphase

theorem atriumZeroed_up {s : Dev} (hm : Memory.wf s.mem = true) : AtriumUp (atriumZeroed s) :=
  ⟨zeroMem_wf s _ _ hm, rfl, fun a hl hh =>
    (zeroMem_byte s 0x40000000 0x43000000 a hm (by omega)).trans (if_neg (by omega))⟩

namespace AtriumUp

variable {s : Dev}

theorem lateRails (h : AtriumUp s) : AtriumUp (lateRails s) :=
  h.foldl fun _ r hu => hu.lateRail r (hu.railOff r) _

theorem lateStacks (h : AtriumUp s) : AtriumUp (lateStacks s) := h.lateRail 5 (h.railsOff _) _

theorem lateGalleries (h : AtriumUp s) : AtriumUp (lateGalleries s) :=
  h.foldl fun _ g hu => AtriumUp.ite (fun _ => hu) fun _ => hu.galGate g

end AtriumUp

theorem atriumInitDone_up {s : Dev} (hm : Memory.wf s.mem = true) (hphase : s.pwr.phase = .init) :
    AtriumUp (atriumInitDone s) := by
  rw [atriumInitDone_eq hphase]
  exact ((atriumZeroed_up hm).lateRails.lateStacks.lateGalleries.foldl fun _ c hu => hu.hostStart c).seqNext 10

end Sys2Proof.ResetBoot
end

section
namespace Sys2Proof.ResetBoot

open Sys2Proof.Machine

/-! ### A gallery whose store has been zeroed (R94) -/

theorem setPhase_gal_same (s : Dev) (g : Fin 6) (p : GPhase) : vget (s.setPhase g p).pwr.gal g = p :=
  vget_vset_same _ _ _

theorem setPhase_zeroed (s : Dev) (g : Fin 6) (p : GPhase) : (s.setPhase g p).pwr.zeroed = s.pwr.zeroed := rfl

theorem curatorStart_gal (s : Dev) (g : Fin 6) : vget (s.curatorStart g).pwr.gal g = .run := setPhase_gal_same s g .run

theorem curatorStart_zeroed (s : Dev) (g : Fin 6) : (s.curatorStart g).pwr.zeroed = s.pwr.zeroed := rfl

theorem curatorStart_mem (s : Dev) (g : Fin 6) : (s.curatorStart g).mem = s.mem := rfl

/-- The curator starts at its gallery's release address. -/
theorem curatorStart_core (s : Dev) (g : Fin 6) :
    vget (s.curatorStart g).core (curator g) =
      { CoreSt.init with run := .running, pc := BitVec.ofNat 32 (s.rg R.GREL_PC 0 g.val / 4 * 4) } :=
  Dev.modCore_core_same _ _ _

/-- Zeroing keeps the bytes outside its range, those of the ROM among them. -/
theorem zeroMem_outside {s : Dev} {lo hi a : Nat} (hm : Memory.wf s.mem = true) (ha : a < lo ∨ hi ≤ a) :
    (s.zeroMem lo hi).byte a = s.byte a := by
  by_cases hrom : a < 0x10000
  · rw [Dev.byte, Dev.byte, if_pos hrom, if_pos hrom]
  · rw [zeroMem_byte s lo hi a hm (by omega), if_pos ha]

theorem storeZeroingDone_result {g : Fin 6} {s : Dev} (hm : Memory.wf s.mem = true)
    (hphase : vget s.pwr.gal g = .zeroing) :
    vget (storeZeroingDone g s).pwr.gal g = .run ∧ vget (storeZeroingDone g s).pwr.zeroed g = true ∧
      (vget (storeZeroingDone g s).core (curator g)).run = .running ∧
      (∀ a, galStore g ≤ a → a < galStore g + 0x1000000 → (storeZeroingDone g s).byte a = 0) ∧
      ∀ a, (a < galStore g ∨ galStore g + 0x1000000 ≤ a) → (storeZeroingDone g s).byte a = s.byte a := by
  have hdone : storeZeroingDone g s = ((s.zeroMem (galStore g) (galStore g + 0x1000000)).modPwr fun p =>
      { p with zeroed := vset p.zeroed g true }).curatorStart g := if_pos (by rw [hphase]; rfl)
  have hmem : (storeZeroingDone g s).mem = (s.zeroMem (galStore g) (galStore g + 0x1000000)).mem := by
    rw [hdone, curatorStart_mem, Dev.modPwr_mem]
  refine ⟨?_, ?_, ?_, fun a hl hh => ?_, fun a ha => ?_⟩
  · rw [hdone, curatorStart_gal]
  · rw [hdone, curatorStart_zeroed, Dev.modPwr_pwr]
    exact vget_vset_same _ _ _
  · rw [hdone, curatorStart_core]
  · rw [byte_congr hmem, zeroMem_byte s _ _ a hm (by unfold galStore at hl; omega), if_neg (by omega)]
  · rw [byte_congr hmem, zeroMem_outside hm ha]

/-! ### W1_GO (R95) -/

theorem regAt_w1Go : regAt (R.W1_GO.addr 1 0 0) = some ⟨R.W1_GO, 1, 0, 0, 0⟩ := by
  have hshared : findIn R.tbl_io 1 0x58044 = none := by rfl
  have hown : findIn R.tbl_io1 1 0x58044 = some ⟨R.W1_GO, 1, 0, 0, 0⟩ := by rfl
  have haddr : R.W1_GO.addr 1 0 0 = 0x11058044 := by decide
  rw [haddr]
  simp [regAt, hshared, hown]

theorem regWrite_w1Go (s : Dev) (ini v : Nat) : s.regWrite ini R.W1_GO 1 0 0 v = w1GoWrite (v % 2 ^ 32) s := rfl

theorem w1GoWrite_waiting {s : Dev} {v : Nat} (hs : SMap.rising none s.regs = true) (hv : bit v 0 = 1)
    (hrom : (vget s.die 1).rom = .wait1) :
    (vget (w1GoWrite v s).die 1).rom = .running ∧ (w1GoWrite v s).fld R.BOOT_STAT 7 0 1 = 1 ∧
      vget (w1GoWrite v s).core 7 = { CoreSt.init with run := .running, pc := BitVec.ofNat 32 (s.rg R.W1_PC 1) } := by
  have hcode : SMap.rising none (s.bootCode 1 1).regs = true := bootCode_rising hs
  have hgo : w1GoWrite v s = ((s.bootCode 1 1).romTo 1 .running).wardenStart 1 (s.rg R.W1_PC 1) := if_pos ⟨hv, hrom⟩
  rw [hgo]
  refine ⟨?_, ?_, wardenStart_core _ 1 _⟩
  · rw [wardenStart_die, romTo_rom]
  · rw [(wardenStart_keeps _ 1 _ (by decide)).fld (romTo_rising hcode), romTo_fld]
    exact bootCode_code (d := 1) hs (by decide)

theorem w1GoWrite_other {s : Dev} {v : Nat} (hrom : (vget s.die 1).rom ≠ .wait1) : w1GoWrite v s = s :=
  if_neg fun h => hrom h.2

theorem w1Go_accepted {s : Dev} {ini v : Nat} (h : s.accepts ini R.W1_GO 1 = true) :
    regCmd R.W1_GO ini (with1 v 0) 1 0 s = ((w1GoWrite (with1 v 0 % 2 ^ 32) s).busResp ini ⟨0, false, false⟩).2 := by
  rw [← regWrite_w1Go s ini]
  exact regCmd_accepted (d := 1) h rfl (by decide) rfl regAt_w1Go

end Sys2Proof.ResetBoot
end

section
namespace Sys2Proof.ResetBoot

open Sys2Proof.Machine

/-- A fold over distinct elements, split at one of them: what every other element's step keeps holds from the start
to that element's step and from there to the end. -/
theorem foldl_at {α : Type} {R : Dev → Dev → Prop} {f : Dev → α → Dev} {l : List α} {c : α}
    (hrefl : ∀ u, R u u) (htrans : ∀ {u v w}, R u v → R v w → R u w) (hc : c ∈ l) (hl : l.Nodup)
    (hother : ∀ u x, x ≠ c → R u (f u x)) (s : Dev) : ∃ u, R s u ∧ R (f u c) (l.foldl f s) := by
  have hfold (m : List α) (hm : c ∉ m) (u : Dev) : R u (m.foldl f u) :=
    List.foldlRecOn m f (hrefl u) fun v hv x hx => htrans hv (hother v x fun h => hm (h ▸ hx))
  obtain ⟨before, after, rfl⟩ := List.append_of_mem hc
  obtain ⟨-, hafter, hdisj⟩ := List.nodup_append.mp hl
  refine ⟨before.foldl f s, hfold before (fun h => hdisj c h c List.mem_cons_self rfl) s, ?_⟩
  rw [List.foldl_append, List.foldl_cons]
  exact hfold after (List.nodup_cons.mp hafter).1 _

/-! ### A write of CRST_REL.HOST, seen from one core (R92) -/

/-- What the release or reset of the other host cores leaves of core `c` and of the power. -/
structure HostKept (c : Fin 4) (s t : Dev) : Prop where
  core : vget t.host.core c = vget s.host.core c
  pwr : t.pwr = s.pwr
  pc : KeepsReg (R.HOST_PC.addr 0 0 0) s t
  dm : SMap.rising none s.host.dm = true → SMap.rising none t.host.dm = true
  flag : SMap.rising none s.host.dm = true → ∀ k, k ≠ 0x80 → t.dmFlag k c = s.dmFlag k c
  rel : SMap.rising none s.regs = true → t.bt R.CRST_REL c.val = s.bt R.CRST_REL c.val

namespace HostKept

variable {c : Fin 4} {s t u : Dev}

theorem refl (s : Dev) : HostKept c s s := ⟨rfl, rfl, .refl s, id, fun _ _ _ => rfl, fun _ => rfl⟩

theorem trans (h : HostKept c s t) (h' : HostKept c t u) : HostKept c s u where
  core := h'.core.trans h.core
  pwr := h'.pwr.trans h.pwr
  pc := h.pc.trans h'.pc
  dm hs := h'.dm (h.dm hs)
  flag hs k hk := (h'.flag (h.dm hs) k hk).trans (h.flag hs k hk)
  rel hs := (h'.rel (h.pc.rising hs)).trans (h.rel hs)

/-- Another core's bit of CRST_REL. -/
theorem setRel (s : Dev) {b : Nat} (x : Bool) (hb : c.val ≠ b) : HostKept c s (s.setB R.CRST_REL b x) where
  core := by rw [Dev.setB_host]
  pwr := Dev.setB_pwr _ _ _ _ _ _ _
  pc := (KeepsReg.refl s).setB _ _ (by decide)
  dm hs := by rwa [Dev.setB_host]
  flag _ k _ := by rw [Dev.dmFlag, Dev.setB_host, Dev.dmFlag]
  rel hs := bt_setB_ne x hs (lt_trans c.isLt (by decide)) hb

theorem start (s : Dev) {x : Fin 4} (hx : x ≠ c) : HostKept c s (s.hostStart x) := by
  unfold Dev.hostStart
  split
  case isTrue =>
    exact ⟨Dev.modHc_hc_ne _ _ hx.symm, rfl, (KeepsReg.refl s).same rfl rfl, id, fun _ _ _ => rfl, fun _ => rfl⟩
  case isFalse => exact refl s

theorem hostReset_dm (s : Dev) (x : Fin 4) :
    (s.hostReset x).host.dm = SMap.set 0 s.host.dm 0x80 (setBits (SMap.get 0 s.host.dm 0x80) x.val x.val 1) := rfl

theorem hostReset_core (s : Dev) (x : Fin 4) :
    (s.hostReset x).host.core = vmod s.host.core x fun _ => HostCore.init := rfl

theorem hostReset_pwr (s : Dev) (x : Fin 4) : (s.hostReset x).pwr = s.pwr := rfl

theorem reset (s : Dev) {x : Fin 4} (hx : x ≠ c) : HostKept c s (s.hostReset x) where
  core := by rw [hostReset_core, vget_vmod_ne _ _ _ _ hx.symm]
  pwr := hostReset_pwr s x
  pc := hostReset_keeps (by decide) s x
  dm hs := by
    rw [hostReset_dm]
    exact SMap.rising_set 0 _ _ _ hs
  flag hs k hk := by rw [Dev.dmFlag, hostReset_dm, SMap.get_set_ne 0 0 _ hs hk, Dev.dmFlag]
  rel hs := (hostReset_keeps (a := R.CRST_REL.addr 0 0 0) (by decide) s x).bt hs c.val

end HostKept

/-- What a write of CRST_REL.HOST does with one core. -/
def relHostStep (v : Nat) (s : Dev) (c : Fin 4) : Dev :=
  if bit v c.val = 1 then (s.setB R.CRST_REL c.val (bit v c.val == 1)).hostStart c
  else (s.setB R.CRST_REL c.val (bit v c.val == 1)).hostReset c

theorem relHost_eq (s : Dev) (v : Nat) : s.relHost v = (List.finRange 4).foldl (relHostStep v) s := rfl

theorem relHostStep_other (v : Nat) (s : Dev) {x c : Fin 4} (hx : x ≠ c) : HostKept c s (relHostStep v s x) := by
  have hset : HostKept c s (s.setB R.CRST_REL x.val (bit v x.val == 1)) :=
    .setRel s _ fun h => hx (Fin.ext h.symm)
  unfold relHostStep
  split
  · exact hset.trans (.start _ hx)
  · exact hset.trans (.reset _ hx)

/-- The step of core `c` is the one that decides its state. -/
theorem relHost_split (v : Nat) (s : Dev) (c : Fin 4) :
    ∃ u, HostKept c s u ∧ HostKept c (relHostStep v u c) (s.relHost v) :=
  foldl_at HostKept.refl HostKept.trans (List.mem_finRange c) (List.nodup_finRange 4)
    (fun u _ hx => relHostStep_other v u hx) s

theorem hostStart_reset {s : Dev} {c : Fin 4} (hon : s.cdieOn = true) (hrun : (vget s.host.core c).run = .reset)
    (hrel : s.bt R.CRST_REL c.val = true) (h82 : s.dmFlag 0x82 c = false) (h83 : s.dmFlag 0x83 c = false) :
    vget (s.hostStart c).host.core c =
      { HostCore.init with run := .running, pc := BitVec.ofNat 64 (s.rg R.HOST_PC) } := by
  unfold Dev.hostStart
  simp only [hon, hrun, hrel, h82, h83, beq_self_eq_true, Bool.and_self, Bool.or_self, if_true, Bool.false_eq_true,
    if_false]
  exact Dev.modHc_hc_same _ _ _

/-- A core in reset that is released runs from HOST_PC (R92). -/
theorem relHost_starts {v : Nat} {s : Dev} {c : Fin 4} (hs : SMap.rising none s.regs = true)
    (hdm : SMap.rising none s.host.dm = true) (hv : bit v c.val = 1) (hon : s.cdieOn = true)
    (hrun : (vget s.host.core c).run = .reset) (h82 : s.dmFlag 0x82 c = false) (h83 : s.dmFlag 0x83 c = false) :
    vget (s.relHost v).host.core c = { HostCore.init with run := .running, pc := BitVec.ofNat 64 (s.rg R.HOST_PC) } ∧
      (s.relHost v).bt R.CRST_REL c.val = true := by
  obtain ⟨u, hbefore, hafter⟩ := relHost_split v s c
  have hu := hbefore.pc.rising hs
  have hset : (u.setB R.CRST_REL c.val true).bt R.CRST_REL c.val = true :=
    bt_setB_same true hu (lt_trans c.isLt (by decide))
  have hpc : KeepsReg (R.HOST_PC.addr 0 0 0) s (u.setB R.CRST_REL c.val true) := hbefore.pc.setB _ _ (by decide)
  have hstep : relHostStep v u c = (u.setB R.CRST_REL c.val true).hostStart c := by
    rw [relHostStep, if_pos hv, hv, beq_self_eq_true]
  have hkeeps : KeepsReg (R.CRST_REL.addr 0 0 0) (u.setB R.CRST_REL c.val true) (relHostStep v u c) := by
    rw [hstep]
    exact hostStart_keeps _ c
  refine ⟨?_, ?_⟩
  · rw [hafter.core, hstep, hostStart_reset ?_ ?_ hset ?_ ?_, hpc.rg hs]
    · rw [Dev.cdieOn, Dev.setB_pwr, hbefore.pwr]
      exact hon
    · rw [Dev.setB_host, hbefore.core, hrun]
    · rw [Dev.dmFlag, Dev.setB_host]
      exact (hbefore.flag hdm 0x82 (by decide)).trans h82
    · rw [Dev.dmFlag, Dev.setB_host]
      exact (hbefore.flag hdm 0x83 (by decide)).trans h83
  · rw [hafter.rel (hkeeps.rising (setB_rising _ _ hu)), hkeeps.bt (setB_rising _ _ hu), hset]

/-- A core whose bit is written 0 is in reset. -/
theorem relHost_resets {v : Nat} {c : Fin 4} (s : Dev) (hv : bit v c.val = 0) :
    vget (s.relHost v).host.core c = .init := by
  obtain ⟨u, -, hafter⟩ := relHost_split v s c
  rw [hafter.core, relHostStep, if_neg (by rw [hv]; decide), HostKept.hostReset_core, vget_vmod_same]

end Sys2Proof.ResetBoot
end

section
namespace Sys2Proof.ResetBoot

open Sys2Proof.Machine

/-! ### A write of CRST_REL.GAL (R94) -/

/-- The parts of the device that a write of CRST_REL.GAL is followed through. -/
def relParts (s : Dev) : PowerSt × Vector CoreSt 8 × HostSt := (s.pwr, s.core, s.host)

theorem carLost_parts (s : Dev) (g : Fin 6) (gated : Bool) : relParts (s.carLost g gated) = relParts s := by
  have herr (ms : List (Fin 6)) (code : Nat) : relParts (s.carError ms code) = relParts s := by
    unfold Dev.carError
    refine foldl_keeps relParts _ ms (fun u x _ => ?_) s
    rfl
  have hcar (u : Dev) : relParts (u.modCar g fun _ => CarSt.init) = relParts u := rfl
  unfold Dev.carLost
  simp only
  rw [hcar]
  split
  · exact herr _ _
  · rfl

theorem clearGal_pwr (s : Dev) (g : Fin 6) : (s.clearGal g).pwr = s.pwr := rfl

theorem clearGal_host (s : Dev) (g : Fin 6) : (s.clearGal g).host = s.host := rfl

theorem clearGal_core (s : Dev) (g : Fin 6) : (s.clearGal g).core = vmod s.core (curator g) fun _ => CoreSt.init := rfl

theorem setPhase_gal (s : Dev) (g : Fin 6) (p : GPhase) : (s.setPhase g p).pwr.gal = vset s.pwr.gal g p := rfl

theorem setPhase_core (s : Dev) (g : Fin 6) (p : GPhase) : (s.setPhase g p).core = s.core := rfl

theorem setPhase_host (s : Dev) (g : Fin 6) (p : GPhase) : (s.setPhase g p).host = s.host := rfl

/-- What the release or reset of the other galleries leaves of gallery `g`. -/
structure GalKept (g : Fin 6) (s t : Dev) : Prop where
  phase : vget t.pwr.gal g = vget s.pwr.gal g
  zeroed : t.pwr.zeroed = s.pwr.zeroed
  core : vget t.core (curator g) = vget s.core (curator g)
  pc : KeepsReg (R.GREL_PC.addr 0 g.val 0) s t

theorem grelPc_ne (g : Fin 6) : R.CRST_REL.addr 0 0 0 ≠ R.GREL_PC.addr 0 g.val 0 := by
  revert g
  decide

theorem grelPc_lt (g : Fin 6) : R.GREL_PC.addr 0 g.val 0 < 0x20000000 := by
  revert g
  decide

theorem curator_ne {g x : Fin 6} (hx : x ≠ g) : curator g ≠ curator x := fun h =>
  hx (Fin.ext (Fin.ext_iff.mp h).symm)

namespace GalKept

variable {g : Fin 6} {s t u : Dev}

theorem refl (s : Dev) : GalKept g s s := ⟨rfl, rfl, rfl, .refl s⟩

theorem trans (h : GalKept g s t) (h' : GalKept g t u) : GalKept g s u :=
  ⟨h'.phase.trans h.phase, h'.zeroed.trans h.zeroed, h'.core.trans h.core, h.pc.trans h'.pc⟩

theorem setRel (s : Dev) (b : Nat) (x : Bool) : GalKept g s (s.setB R.CRST_REL b x) where
  phase := by rw [Dev.setB_pwr]
  zeroed := by rw [Dev.setB_pwr]
  core := by rw [Dev.setB_core]
  pc := (KeepsReg.refl s).setB _ _ (grelPc_ne g)

theorem setPhase (s : Dev) {x : Fin 6} (hx : x ≠ g) (p : GPhase) : GalKept g s (s.setPhase x p) where
  phase := by rw [setPhase_gal, vget_vset_ne _ _ _ _ hx.symm]
  zeroed := setPhase_zeroed s x p
  core := by rw [setPhase_core]
  pc := (KeepsReg.refl s).setPhase x p

theorem release (s : Dev) {x : Fin 6} (hx : x ≠ g) : GalKept g s (s.galRelease x) := by
  have hstart : GalKept g (s.setPhase x .run) (s.curatorStart x) :=
    ⟨rfl, rfl, Dev.modCore_core_ne _ _ (curator_ne hx), (KeepsReg.refl _).modCore _ _⟩
  unfold Dev.galRelease
  split
  · split
    · exact (setPhase s hx .run).trans hstart
    · exact setPhase s hx .zeroing
  · exact refl s

theorem reset (s : Dev) {x : Fin 6} (hx : x ≠ g) : GalKept g s (s.galReset x) := by
  have hparts := carLost_parts s x false
  simp only [relParts, Prod.mk.injEq] at hparts
  obtain ⟨hpwr, hcore, -⟩ := hparts
  have hclear : GalKept g s ((s.carLost x false).clearGal x) := by
    refine ⟨?_, ?_, ?_, (carLost_keeps (grelPc_lt g) s x false).trans (clearGal_keeps (grelPc_lt g) _ x)⟩
    · rw [clearGal_pwr, hpwr]
    · rw [clearGal_pwr, hpwr]
    · rw [clearGal_core, vget_vmod_ne _ _ _ _ (curator_ne hx), hcore]
  unfold Dev.galReset
  split
  · exact refl s
  · exact hclear.trans (setPhase _ hx .reset)

end GalKept

/-- What a write of CRST_REL.GAL does with one gallery. -/
def relGalStep (v : Nat) (s : Dev) (g : Fin 6) : Dev :=
  let s := s.setB R.CRST_REL (4 + g.val) (bit v (4 + g.val) == 1)
  if bit v (4 + g.val) = 1 then s.galRelease g
  else if vget s.pwr.gal g == .run || vget s.pwr.gal g == .zeroing then s.galReset g else s

theorem relGal_eq (s : Dev) (v : Nat) : s.relGal v = (List.finRange 6).foldl (relGalStep v) s := rfl

theorem relGalStep_other (v : Nat) (s : Dev) {x g : Fin 6} (hx : x ≠ g) : GalKept g s (relGalStep v s x) := by
  have hset : GalKept g s (s.setB R.CRST_REL (4 + x.val) (bit v (4 + x.val) == 1)) := .setRel s _ _
  unfold relGalStep
  simp only
  split
  · exact hset.trans (.release _ hx)
  · split
    · exact hset.trans (.reset _ hx)
    · exact hset

/-- The step of gallery `g` is the one that decides its state. -/
theorem relGal_split (v : Nat) (s : Dev) (g : Fin 6) :
    ∃ u, GalKept g s u ∧ GalKept g (relGalStep v u g) (s.relGal v) :=
  foldl_at GalKept.refl GalKept.trans (List.mem_finRange g) (List.nodup_finRange 6)
    (fun u _ hx => relGalStep_other v u hx) s

/-- A gallery in reset with a zero store runs once it is released, its curator at GREL_PC. -/
theorem relGal_starts {v : Nat} {s : Dev} {g : Fin 6} (hs : SMap.rising none s.regs = true)
    (hv : bit v (4 + g.val) = 1) (hreset : vget s.pwr.gal g = .reset) (hzero : vget s.pwr.zeroed g = true) :
    vget (s.relGal v).pwr.gal g = .run ∧
      vget (s.relGal v).core (curator g) =
        { CoreSt.init with run := .running, pc := BitVec.ofNat 32 (s.rg R.GREL_PC 0 g.val / 4 * 4) } := by
  obtain ⟨u, hbefore, hafter⟩ := relGal_split v s g
  have hkept : GalKept g s (u.setB R.CRST_REL (4 + g.val) true) := hbefore.trans (.setRel u _ _)
  have hrel : (u.setB R.CRST_REL (4 + g.val) true).bt R.CRST_REL (4 + g.val) = true :=
    bt_setB_same true (hbefore.pc.rising hs) (Nat.lt_of_lt_of_le (Nat.add_lt_add_left g.isLt 4) (by decide))
  have hstep : relGalStep v u g = (u.setB R.CRST_REL (4 + g.val) true).curatorStart g := by
    rw [relGalStep, if_pos hv, hv, beq_self_eq_true, Dev.galRelease, if_pos (by rw [hkept.phase, hreset, hrel]; rfl),
      if_pos (by rw [hkept.zeroed, hzero])]
  rw [hafter.phase, hafter.core, hstep, curatorStart_gal, curatorStart_core, hkept.pc.rg hs]
  exact ⟨rfl, rfl⟩

/-! #### What it leaves of the host -/

theorem galRelease_host (s : Dev) (g : Fin 6) : (s.galRelease g).host = s.host := by
  unfold Dev.galRelease
  split
  · split <;> rfl
  · rfl

theorem galReset_host (s : Dev) (g : Fin 6) : (s.galReset g).host = s.host := by
  have hparts := carLost_parts s g false
  simp only [relParts, Prod.mk.injEq] at hparts
  unfold Dev.galReset
  split
  · rfl
  · rw [setPhase_host, clearGal_host, hparts.2.2]

theorem relGal_host (s : Dev) (v : Nat) : (s.relGal v).host = s.host := by
  rw [relGal_eq]
  refine foldl_keeps Dev.host _ _ (fun u g _ => ?_) s
  unfold relGalStep
  simp only
  split
  · rw [galRelease_host, Dev.setB_host]
  · split
    · rw [galReset_host, Dev.setB_host]
    · rw [Dev.setB_host]

/-- The bits of the host cores in CRST_REL stay as they are. -/
theorem relGal_rel {s : Dev} {b : Nat} (hb : b < 4) (v : Nat) (hs : SMap.rising none s.regs = true) :
    (s.relGal v).bt R.CRST_REL b = s.bt R.CRST_REL b := by
  have hstep (u : Dev) (g : Fin 6) (hu : SMap.rising none u.regs = true) :
      SMap.rising none (relGalStep v u g).regs = true ∧ (relGalStep v u g).bt R.CRST_REL b = u.bt R.CRST_REL b := by
    have hset (x : Bool) := setB_rising (r := R.CRST_REL) (k := 0) (i := 0) (j := 0) (4 + g.val) x hu
    have hbit (x : Bool) : (u.setB R.CRST_REL (4 + g.val) x).bt R.CRST_REL b = u.bt R.CRST_REL b :=
      bt_setB_ne x hu (lt_trans hb (by decide)) (by omega)
    have hkeeps (x : Bool) {t : Dev} (h : KeepsReg (R.CRST_REL.addr 0 0 0) (u.setB R.CRST_REL (4 + g.val) x) t) :
        SMap.rising none t.regs = true ∧ t.bt R.CRST_REL b = u.bt R.CRST_REL b :=
      ⟨h.rising (hset x), (h.bt (hset x) b).trans (hbit x)⟩
    unfold relGalStep
    simp only
    split
    · exact hkeeps _ (galRelease_keeps _ g)
    · split
      · exact hkeeps _ (galReset_keeps (by decide) _ g)
      · exact hkeeps _ (.refl _)
  rw [relGal_eq]
  exact (List.foldlRecOn (motive := fun t : Dev => SMap.rising none t.regs = true ∧ t.bt R.CRST_REL b = s.bt R.CRST_REL b)
    _ _ ⟨hs, rfl⟩ fun u hu g _ => ⟨(hstep u g hu.1).1, (hstep u g hu.1).2.trans hu.2⟩).2

end Sys2Proof.ResetBoot
end

section
namespace Sys2Proof.ResetBoot

open Sys2Proof.Machine

/-! ### CRST_REL as a register -/

theorem regAt_crstRel : regAt (R.CRST_REL.addr 0 0 0) = some ⟨R.CRST_REL, 0, 0, 0, 0⟩ := by
  have hshared : findIn R.tbl_io 0 0x58018 = none := by rfl
  have hown : findIn R.tbl_io0 0 0x58018 = some ⟨R.CRST_REL, 0, 0, 0, 0⟩ := by rfl
  have haddr : R.CRST_REL.addr 0 0 0 = 0x10058018 := by decide
  rw [haddr]
  simp [regAt, hshared, hown]

theorem regWrite_crstRel (s : Dev) (ini v : Nat) :
    s.regWrite ini R.CRST_REL 0 0 0 v = (s.relHost (v % 2 ^ 32)).relGal (v % 2 ^ 32) := rfl

/-- An accepted write of CRST_REL acts on the host cores and then on the galleries (R92, R94). -/
theorem release_accepted {s : Dev} {ini v : Nat} (h : s.accepts ini R.CRST_REL = true) :
    regCmd R.CRST_REL ini v 0 0 s =
      (((s.relHost (v % 2 ^ 32)).relGal (v % 2 ^ 32)).busResp ini ⟨0, false, false⟩).2 := by
  rw [← regWrite_crstRel s ini]
  exact regCmd_accepted (d := 0) h rfl (by decide) rfl regAt_crstRel

theorem hostStart_pwr (s : Dev) (c : Fin 4) : (s.hostStart c).pwr = s.pwr := by
  unfold Dev.hostStart
  split <;> rfl

theorem relHost_pwr (s : Dev) (v : Nat) : (s.relHost v).pwr = s.pwr := by
  rw [relHost_eq]
  refine foldl_keeps Dev.pwr _ _ (fun u c _ => ?_) s
  unfold relHostStep
  split
  · rw [hostStart_pwr, Dev.setB_pwr]
  · rw [HostKept.hostReset_pwr, Dev.setB_pwr]

/-- A released gallery finds its state and its start address untouched by the host's part of the write. -/
theorem release_gallery {v : Nat} {s : Dev} {g : Fin 6} (hs : SMap.rising none s.regs = true)
    (hv : bit v (4 + g.val) = 1) (hreset : vget s.pwr.gal g = .reset) (hzero : vget s.pwr.zeroed g = true) :
    vget ((s.relHost v).relGal v).pwr.gal g = .run ∧
      vget ((s.relHost v).relGal v).core (curator g) =
        { CoreSt.init with run := .running, pc := BitVec.ofNat 32 (s.rg R.GREL_PC 0 g.val / 4 * 4) } := by
  have hkeeps : KeepsReg (R.GREL_PC.addr 0 g.val 0) s (s.relHost v) := relHost_keeps (grelPc_lt g) (grelPc_ne g) s v
  rw [← hkeeps.rg hs]
  exact relGal_starts (hkeeps.rising hs) hv (by rw [relHost_pwr, hreset]) (by rw [relHost_pwr, hzero])

theorem release_hostStarts {v : Nat} {s : Dev} {c : Fin 4} (hs : SMap.rising none s.regs = true)
    (hdm : SMap.rising none s.host.dm = true) (hv : bit v c.val = 1) (hon : s.cdieOn = true)
    (hrun : (vget s.host.core c).run = .reset) (h82 : s.dmFlag 0x82 c = false) (h83 : s.dmFlag 0x83 c = false) :
    vget ((s.relHost v).relGal v).host.core c =
        { HostCore.init with run := .running, pc := BitVec.ofNat 64 (s.rg R.HOST_PC) } ∧
      ((s.relHost v).relGal v).bt R.CRST_REL c.val = true := by
  obtain ⟨hcore, hrel⟩ := relHost_starts hs hdm hv hon hrun h82 h83
  have hrising : SMap.rising none (s.relHost v).regs = true :=
    (relHost_keeps (a := 0) (by decide) (by decide) s v).rising hs
  rw [relGal_host, relGal_rel c.isLt v hrising]
  exact ⟨hcore, hrel⟩

/-- Settles O35: the write of CRST_REL is split at the core or gallery that the statement speaks of, the end of the
atrium's initialisation keeps `AtriumUp`, and the rest is one step each. -/
theorem releasesAndStarts : Obligations.ReleasesAndStarts := by
  unfold Obligations.ReleasesAndStarts
  intro ini v c g s hwf
  have hs := wf_regs hwf
  have hmem := wf_mem hwf
  have hhost : bit (v % 2 ^ 32) c.val = bit v c.val := bit_mod v (lt_trans c.isLt (by decide))
  have hgal : bit (v % 2 ^ 32) (4 + g.val) = bit v (4 + g.val) :=
    bit_mod v (lt_trans (Nat.add_lt_add_left g.isLt 4) (by decide))
  refine ⟨fun hacc hon => ⟨fun hv hrun h82 h83 => answers_ok ?_, fun hv => answers_ok ?_,
      fun hv hreset hzero => answers_ok ?_⟩,
    fun hzeroing => answers_ok (storeZeroingDone_result hmem hzeroing), fun hinit => answers_ok ?_,
    fun hacc => ⟨fun hwait => answers_ok ?_, fun hother => answers_ok ?_⟩⟩
  case refine_1 =>
    obtain ⟨hcore, hrel⟩ := release_hostStarts hs (wf_dm hwf) (hhost.trans hv) hon hrun h82 h83
    rw [release_accepted hacc, busResp_host, busResp_bt]
    exact ⟨hcore, hrel⟩
  case refine_2 =>
    rw [release_accepted hacc, busResp_host, relGal_host, relHost_resets s.dev (hhost.trans hv)]
  case refine_3 =>
    obtain ⟨hphase, hcore⟩ := release_gallery hs (hgal.trans hv) hreset hzero
    rw [release_accepted hacc, busResp_pwr, busResp_core, hcore]
    exact ⟨hphase, rfl, rfl, rfl⟩
  case refine_4 =>
    have hup := atriumInitDone_up hmem hinit
    refine ⟨?_, hup.zero⟩
    rw [Dev.cdieOn, hup.phase]
    rfl
  case refine_5 =>
    have hgo : bit (with1 v 0 % 2 ^ 32) 0 = 1 := bit_setBits_same v 1 (by decide)
    obtain ⟨hrom, hcode, hcore⟩ := w1GoWrite_waiting hs hgo hwait
    rw [w1Go_accepted hacc, busResp_die, busResp_fld, busResp_core, hcore]
    exact ⟨hrom, hcode, rfl, rfl⟩
  case refine_6 =>
    rw [w1Go_accepted hacc, w1GoWrite_other hother]
    rfl

end Sys2Proof.ResetBoot
end
